-- ==== Sys2Proof/Word.lean ====
section
/-! DEFINITION. The word type of the register pages and the plainest arithmetic on it. -/

namespace Sys2Proof

/-- A 32-bit register word (R8). -/
abbrev Word := BitVec 32

/-- A byte of HDM. -/
abbrev Byte := BitVec 8

/-- The number of values of a field of `w` bits. -/
def pow2 (w : Nat) : Nat := 2 ^ w

/-- The lowest `w` bits of `v`. -/
def trunc (w v : Nat) : Nat := v % pow2 w

/-- Bits `lo + w - 1` down to `lo` of `v`. -/
def bitsOf (v lo w : Nat) : Nat := trunc w (v / pow2 lo)

/-- Bit `i` of `v`. -/
def bitOf (v i : Nat) : Bool := bitsOf v i 1 == 1

/-- A Boolean as one bit. -/
def b1 (b : Bool) : Nat := if b then 1 else 0

/-- The signed value of a `w`-bit pattern in two's complement. -/
def sgn (w v : Nat) : Int :=
  if trunc w v < pow2 (w - 1) then (trunc w v : Int) else (trunc w v : Int) - (pow2 w : Int)

/-- The `w`-bit two's complement pattern of an integer. -/
def unsgn (w : Nat) (v : Int) : Nat := (v % (pow2 w : Int)).toNat

/-- An integer limited to the range `lo` to `hi`. -/
def clampI (lo hi v : Int) : Int := if v < lo then lo else if hi < v then hi else v

/-- A natural number limited to `hi`. -/
def capN (hi v : Nat) : Nat := if hi < v then hi else v

/-- One of two values of a state, by a Boolean condition. -/
def onlyIf {α : Type} (c : Bool) (f : α → α) (s : α) : α := if c then f s else s

end Sys2Proof
end

