-- ==== Sys2Proof/Syntax.lean ====
section
/-! DEFINITION. The commands and events of the LT-12800, one constructor for each row of the opcode table, and the data
they carry from outside the part. -/

namespace Sys2Proof

/-- Where a host write lands: a register of a BAR0 page, a dword of the MSI-X table in BAR2, or the commit bit of the
HDM decoder among the component registers (R437, R438). -/
inductive Space where
  | page (p : Nat) (off : Nat)
  | msix (vector : Fin 32) (dword : Fin 4)
  | decoder
deriving DecidableEq, Repr

/-! ### Line receive (ch. 03) -/

/-- What the receive path measures over one received galley (R97, R99, R103, R106, R112 to R114, R123): RMS level, clipped
samples and interleave image of XI, XQ, YI and YQ; the dispersion estimate in 0.01 ps/nm; the SNR of each subcarrier and
polarisation in 0.01 dB; the marker position; the MEQ centroid at the marker in 1/256 tap, with PDL and DGD; the
frequency offset and the slips corrected; and the TRL phase and symbol-rate offset. -/
structure RxGalley where
  rms : List Nat
  clips : List Nat
  spur : List Nat
  dEst : Int
  snr : List Nat
  pInt : Nat
  pFrac : Nat
  centroid : Int
  pdl : Nat
  dgd : Nat
  fofs : Int
  slips : Nat
  phase : Nat
  ppb : Int
deriving DecidableEq, Repr

/-! ### Forward error correction (ch. 04) and formes (ch. 05) -/

/-- A forme as the recovery loops hand it to the demapper (R113, R146): the ADC sample index of its first symbol, its symbols by
subcarrier and polarisation (at 2 d + p) in 2^-8 of the unnormalised grid, and the pilot-based estimates of their SNR in 0.01 dB. -/
structure Received where
  first : Nat
  syms : List (List (Int × Int))
  snr : List Nat
deriving DecidableEq, Repr

/-! ### Host lanes (ch. 07) -/

/-- A lane clock about one block (R267): the number of a beat of the time base, counted from its lock, the clock's symbol counts at
that beat and at those after it, and the symbol count at the block's first symbol. -/
structure LaneClock where
  beat : Nat
  counts : List Nat
  first : Nat
deriving DecidableEq, Repr

/-- A block on one physical receive lane: the levels of its 5,440 data symbols, and the recovered clock. -/
structure LaneBlock where
  levels : List (Fin 4)
  clock : LaneClock
deriving DecidableEq, Repr

/-- A received block (R234): its eight physical lanes, and the fill of the host-receive buffer in ns. -/
structure HostBlock where
  lanes : List LaneBlock
  rxFill : Nat
deriving DecidableEq, Repr

/-! ### Tympan (ch. 08) -/

/-- A ToD message (R272): does its checksum hold, is it the time event message, and the seconds it carries. -/
structure TodMessage where
  sumOk : Bool
  timeEvent : Bool
  seconds : Nat
deriving DecidableEq, Repr

/-! ### Calibration and monitor (ch. 12) -/

/-- How a measurement of the calibration controller ends (R392 to R395, R409): the words measured for an ADC or DAC set,
from word 2 to the word before the CRC, with whether the target was met; for RXPATH the times of the intensity edges at the
ADC samples, in 2^-16 ns, oldest first (TXPATH needs none); or the monitor's bandgap reading in 0.05 mV at gain x1 and the
three words of its set. -/
inductive CalResult where
  | set (words : List Nat) (met : Bool)
  | edges (times : List Int)
  | monitor (bandgap : Nat) (words : List Nat)
deriving DecidableEq, Repr


/-- What a committed WC shadow belongs to, for line engine `n` (R64, R71, R122, R140). -/
inductive Commit where
  | txBank (n : Fin 8)
  | rxBank (n : Fin 8)
  | mask (n : Fin 8)
  | iterMax (n : Fin 8)
deriving DecidableEq, Repr

/-- The commands and events, one for each row of the opcode table, in its order. -/
inductive Instr where
  /-- R452. Where the write lands, and the word. -/
  | registerWrite (sp : Space) (value : Word)
  /-- R10. The page and the byte offset of the register read. -/
  | rlRead (page off : Nat)
  /-- R455. The page, and the AUTO_INC written with the command. -/
  | tblCmdRead (page : Nat) (autoInc : Bool)
  /-- R455. The page, and the AUTO_INC written with the command. -/
  | tblCmdWrite (page : Nat) (autoInc : Bool)
  /-- R456. Which committed shadow. -/
  | wcCommitApply (commit : Commit)
  /-- R450. The page. -/
  | blkReset (page : Nat)
  /-- R450. The page, and the level written. -/
  | freeze (page : Nat) (on : Bool)
  /-- R453. The page. -/
  | fenceRead (page : Nat)
  /-- R454. The word written. -/
  | globalFenceWrite (value : Word)
  /-- R454. -/
  | globalFenceRead
  /-- R457. The page, and the bits written. -/
  | evForce (page : Nat) (bits : Word)
  /-- R461. -/
  | evqPop (queue : Fin 4)
  /-- R461. The queue and the position written. -/
  | evqRp (queue : Fin 4) (position : Word)
  /-- R464. -/
  | evqIntegrity (queue : Fin 4)
  /-- R467. -/
  | msixHoldoffExpiry (queue : Fin 4)
  /-- R447. Is it a read, and the bytes it asks for. -/
  | badAccess (read : Bool) (len : Nat)
  /-- R434. In CXL mode? Then the width in lanes and the rate code that training reached. -/
  | cxlLinkUp (cxl : Bool) (width rate : Nat)
  /-- R434. -/
  | cxlLinkDown
  /-- R420. The address in the claimed range, the byte enables and the 64 bytes of the line. -/
  | cxlMemWrite (addr : Nat) (enables : BitVec 64) (bytes : List Byte)
  /-- R439. -/
  | hdmZeroDone
  /-- R440. The length of the request in dwords, and its index. -/
  | doeDiscovery (dwords index : Nat)
  /-- R441. The length of the request in dwords, and the entry handle. -/
  | cdat (dwords entry : Nat)
  /-- R440. -/
  | doeAbort
  /-- R443. -/
  | snapNow
  /-- R445. -/
  | snapDone
  /-- R446. The fields SRC, LE and DSC written with GO. -/
  | captureGo (src : Fin 16) (le : Fin 8) (dsc : Fin 16)
  /-- R446. The samples captured, two bytes each, as they lie in memory. -/
  | captureDone (samples : List Byte)
  /-- R468. The channel and the TAIL written. -/
  | dmaTail (channel : Fin 16) (tail : Fin 64)
  /-- R470. The channel, and what its host accesses answer: the bytes it reads, or none where an access fails. -/
  | dmaDescriptorStart (channel : Fin 16) (host : Option (List Byte))
  /-- R470. -/
  | dmaDone (channel : Fin 16)
  /-- R471. -/
  | dmaReset (channel : Fin 16)
  /-- R477. -/
  | por
  /-- R477. The rails that caused it, by the bits of R479. -/
  | supplyReset (rails : Fin 128)
  /-- R477. -/
  | pinReset
  /-- R477. -/
  | thermalReset
  /-- R477. -/
  | softReset
  /-- R478. -/
  | cxlReset
  /-- R480. Does the retained store pass its CRC (R489)? -/
  | resetRelease (retainedOk : Bool)
  /-- R265. -/
  | timebaseLock
  /-- R483. The two copies of the fuse words as read. -/
  | fuseLoadAttempt (copyA copyB : List Word)
  /-- R493. The rail. -/
  | pwrWarn (rail : Fin 7)
  /-- R492. The rail, and the lowest level of the dip in mV. -/
  | railGood (rail : Fin 7) (minMv : Nat)
  /-- R493. -/
  | freezeEnd
  /-- R494. -/
  | avsWriteAck
  /-- R494. -/
  | avsLevelWindowExpiry
  /-- R497. -/
  | avsFault
  /-- R496. The level read back, in mV. -/
  | avsReadback (mv : Nat)
  /-- R500. The hottest die sensor, in 1/64 C. -/
  | rstHot (temp : Int)
  /-- R488. -/
  | retainCapture
  /-- R38. FLOOR_MV. -/
  | vcoreFloorWrite (mv : Fin 1024)
  /-- R29. The transmit and receive margins in ns, and the fills of the two buffers in ns. -/
  | paceGuardMargin (le : Fin 8) (tx rx : Int) (txFill rxFill : Nat)
  /-- R30. -/
  | vcoreStepUp
  /-- R30. -/
  | vcoreStepDown
  /-- R26. The samples discarded, from now on. -/
  | rxOverflow (le : Fin 8) (count : Nat)
  /-- R26. The flows of the cells dropped. -/
  | hlnRxOverflow (group : Fin 16) (flows : List (Fin 1024))
  /-- R27. -/
  | txUnderrun (le : Fin 8)
  /-- R27. -/
  | hlnTxUnderrun (group : Fin 16)
  /-- R265. -/
  | txGalleyStart
  /-- R80. -/
  | formeStart
  /-- R76. -/
  | start (le : Fin 8)
  /-- R76. -/
  | beacon (le : Fin 8)
  /-- R76. -/
  | stop (le : Fin 8)
  /-- R84. The level written. -/
  | kill (le : Fin 8) (on : Bool)
  /-- R83. -/
  | txenFault (le : Fin 8)
  /-- R87. -/
  | bankGrant
  /-- R86. The bank, 0 LOGIC, 1 DAC, 2 ADC. -/
  | bankSoftstartDone (le : Fin 8) (bank : Fin 3)
  /-- R86. The bank, 0 LOGIC, 1 DAC, 2 ADC. -/
  | bankSoftstopDone (le : Fin 8) (bank : Fin 3)
  /-- R75. -/
  | txenLeadExpiry (le : Fin 8)
  /-- R88. -/
  | rampSlotGrant
  /-- R80. -/
  | rampComplete (le : Fin 8)
  /-- R75. -/
  | txenLagExpiry (le : Fin 8)
  /-- R88. -/
  | startHeld (le : Fin 8)
  /-- R64. NEGOTIATE. -/
  | blSwitch (le : Fin 8) (negotiate : Bool)
  /-- R65. The receive bank, or the transmit bank? -/
  | blSwitchApply (le : Fin 8) (receive : Bool)
  /-- R122. -/
  | rxBlSwitch (le : Fin 8)
  /-- R71. -/
  | maskCommit (le : Fin 8)
  /-- R71. -/
  | maskSlewStep (le : Fin 8)
  /-- R73. By DAC XI, XQ, YI, YQ: the samples of the galley as they come to level control. -/
  | dacGalleyMeasure (le : Fin 8) (channels : List (List Int))
  /-- R98. EN. -/
  | rxEnable (le : Fin 8) (on : Bool)
  /-- R119. -/
  | reacq (le : Fin 8)
  /-- R118. -/
  | rawLosAssert (le : Fin 8)
  /-- R118. -/
  | rawLosRelease (le : Fin 8)
  /-- R115. -/
  | signalPresent (le : Fin 8)
  /-- R115. The candidates in the order of the search, in 0.01 ps/nm. -/
  | cdSearchDone (le : Fin 8) (candidates : List Int)
  /-- R115. The frequency offset in MHz. -/
  | freqAcquired (le : Fin 8) (mhz : Int)
  /-- R115. -/
  | meqConverged (le : Fin 8)
  /-- R115. -/
  | trlLocked (le : Fin 8)
  /-- R115. -/
  | pilotLocked (le : Fin 8)
  /-- R116. -/
  | acqTimeout (le : Fin 8)
  /-- R117. The cause, by the code of R117. -/
  | lossOfLock (le : Fin 8) (cause : Nat)
  /-- R518. What was measured over the galley. -/
  | rxGalleyComplete (le : Fin 8) (galley : RxGalley)
  /-- R107. -/
  | cdeStep (le : Fin 8)
  /-- R124. The subcarrier, and the bits that come to the checker. -/
  | rxPrbsLock (le : Fin 8) (dsc : Fin 16) (bits : List Bool)
  /-- R131. RATE and CODE. -/
  | fecCfg (le : Fin 8) (rate code : Fin 4)
  /-- R152. -/
  | fecIterCommit (le : Fin 8)
  /-- R147. -/
  | fecClear (le : Fin 8)
  /-- R171. The decoded forme. -/
  | formeReceived (le : Fin 8) (forme : Received)
  /-- R173. The carrier, or none for the flows; and the unit that ends, by the length of its defects (R174). -/
  | defectIntegrationUnit (carrier : Option (Fin 8)) (unit : Fin 3)
  /-- R182. -/
  | pmSecondEnd
  /-- R183. -/
  | pmSecondCommit
  /-- R187. -/
  | pmClr
  /-- R202. The GNUM and FNUM of the formes. -/
  | deskewRelease (gnum fnum : Nat)
  /-- R202. The GNUM and FNUM of the formes. -/
  | deskewTimeout (gnum fnum : Nat)
  /-- R206. -/
  | placeCompute
  /-- R221. The trial mask. -/
  | placeTry (mask : Fin 256)
  /-- R212. -/
  | bsigFreeze
  /-- R212. -/
  | txMapSwitch
  /-- R213. The GNUM of the received galley. -/
  | bsigReceive (gnum : Nat)
  /-- R213. The GNUM of the received galley. -/
  | rxMapSwitch (gnum : Nat)
  /-- R215. -/
  | commit
  /-- R215. -/
  | cancel
  /-- R215. -/
  | mapSwitchTimeout
  /-- R216. The mask written. -/
  | returnBundle (mask : Fin 256)
  /-- R217. -/
  | departureComplete (le : Fin 8)
  /-- R217. -/
  | departForced (le : Fin 8)
  /-- R228. EN. -/
  | hlnGroupEn (group : Fin 16) (on : Bool)
  /-- R254. -/
  | retrain (group : Fin 16)
  /-- R252. -/
  | rejoin (group : Fin 16)
  /-- R245. The physical lane. -/
  | laneSignalDetect (group : Fin 16) (phys : Fin 8)
  /-- R246. The physical lane. -/
  | laneSignalLoss (group : Fin 16) (phys : Fin 8)
  /-- R233. The physical lane, and the levels of the 128 symbols at a block start. -/
  | rimshot (group : Fin 16) (phys : Fin 8) (symbols : List (Fin 4))
  /-- R245. The logical lane; its SNR in 0.01 dB, the first DFE tap and the CTLE setting. -/
  | laneTuneDone (group : Fin 16) (lane : Fin 8) (snr : Nat) (dfe : Int) (ctle : Nat)
  /-- R246. -/
  | laneTimeout (group : Fin 16) (lane : Fin 8)
  /-- R246. -/
  | laneBackoffExpiry (group : Fin 16) (lane : Fin 8)
  /-- R248. The skew of each logical lane, in ns. -/
  | groupAlign (group : Fin 16) (skew : List Nat)
  /-- R248. -/
  | groupRunEntry (group : Fin 16)
  /-- R239. The block. -/
  | hlnBlockReceive (group : Fin 16) (block : HostBlock)
  /-- R250. The transmit clock about the block. -/
  | hlnBlockSend (group : Fin 16) (clock : LaneClock)
  /-- R249. The logical lane, and the cause code of R249. -/
  | laneLost (group : Fin 16) (lane : Fin 8) (cause : Fin 4)
  /-- R254. -/
  | peerStuck (group : Fin 16)
  /-- R244. -/
  | pairMergeTimeout (flow : Fin 1024)
  /-- R256. The physical lane, and the levels received since the last such event. -/
  | hlnPrbsLock (group : Fin 16) (lane : Fin 8) (levels : List (Fin 4))
  /-- R269. SRC. -/
  | src (source : Fin 4)
  /-- R295. INCR_LO. -/
  | incr (lo : Word)
  /-- R270. -/
  | servoUpdate
  /-- R271. -/
  | holdExpired
  /-- R272. The time stamp of the edge, in 2^-16 ns of device time. -/
  | ppsInEdge (stamp : Int)
  /-- R272. -/
  | ppsInWindowExpiry
  /-- R272. -/
  | todMessage (message : TodMessage)
  /-- R272. -/
  | todFault
  /-- R272. The frequency offset of the oscillator from 10MHZ_IN measured over the second, in 0.001 ppb. -/
  | f10Lost (ppb : Int)
  /-- R273. The time stamp of the edge, in 2^-16 ns of device time. -/
  | timecalEdge (stamp : Int)
  /-- R274. -/
  | deviceSecond
  /-- R297. -/
  | set
  /-- R297. -/
  | step
  /-- R275. -/
  | stepApply
  /-- R281. -/
  | spanInterval
  /-- R284. -/
  | asymFit
  /-- R289. The flow and the frame; the edge of its first cell is the one reported under R255. -/
  | ptpIngress (flow : Fin 1024) (frame : List Byte)
  /-- R289. The flow and the frame; the edge of its first cell is the one reported under R255. -/
  | ptpEgress (flow : Fin 1024) (frame : List Byte)
  /-- R306. The metric in 0.1 dB, and the bytes of a reception that ends in an error, none where it goes on to a valid packet. -/
  | chimePreamble (le : Fin 8) (metric : Nat) (bytes : List Byte)
  /-- R307. -/
  | chimeLockTimeout (le : Fin 8)
  /-- R311. -/
  | chimeSend (le : Fin 8)
  /-- R313. -/
  | helloSend (le : Fin 8)
  /-- R314. The message. -/
  | hello (le : Fin 8) (bytes : List Byte)
  /-- R279. -/
  | timeReportSend
  /-- R280. The message. -/
  | timeReport (le : Fin 8) (bytes : List Byte)
  /-- R315. -/
  | stepNoticeSend
  /-- R282. The message. -/
  | stepNotice (le : Fin 8) (bytes : List Byte)
  /-- R316. The message. -/
  | blPropose (le : Fin 8) (bytes : List Byte)
  /-- R316. -/
  | blProposeRepeat (le : Fin 8)
  /-- R316. The message. -/
  | blAnswer (le : Fin 8) (bytes : List Byte)
  /-- R65. -/
  | blProposeTimeout (le : Fin 8)
  /-- R310. -/
  | snrReportSend (le : Fin 8)
  /-- R317. The message. -/
  | snrReport (le : Fin 8) (bytes : List Byte)
  /-- R318. The message. -/
  | transfer (le : Fin 8) (bytes : List Byte)
  /-- R318. The message. -/
  | receipt (le : Fin 8) (bytes : List Byte)
  /-- R318. -/
  | transferRetry
  /-- R318. The XID. -/
  | transferPartialExpiry (xid : Nat)
  /-- R319. -/
  | partnerAbsent (le : Fin 8)
  /-- R346. -/
  | importKey
  /-- R346. -/
  | importComplete
  /-- R347. The slot. -/
  | generate (slot : Fin 4096)
  /-- R352. The slot. -/
  | arm (slot : Fin 4096)
  /-- R355. The slot. -/
  | erase (slot : Fin 4096)
  /-- R342. A slot of the flow. -/
  | eraseFlow (slot : Fin 4096)
  /-- R342. -/
  | zeroise
  /-- R342. -/
  | nonce
  /-- R358. -/
  | alarmClear
  /-- R355. -/
  | eraseApply
  /-- R348. Does the record's RSA signature verify? -/
  | transportCheckDone (sigOk : Bool)
  /-- R353. The GNUM of the received galley. -/
  | ksigReceive (gnum : Nat)
  /-- R352. -/
  | switched (flow : Fin 1024)
  /-- R357. The conditions present, by the bits of R357. -/
  | carillonAlarm (conditions : Fin 64)
  /-- R376. -/
  | anchorInstall
  /-- R376. -/
  | pairInstall
  /-- R376. -/
  | pairClear
  /-- R369. The two flash slots, each its bytes or none where the flash does not answer; the identity chain, and whether its signatures verify. -/
  | romBoot (slotA slotB : Option (List Byte)) (chain : List Byte) (chainOk : Bool)
  /-- R372. -/
  | identityDerived
  /-- R372. -/
  | identityTimeout
  /-- R370. The length of the staged image in KiB. -/
  | load (lenKib : Fin 8192)
  /-- R370. -/
  | hostImageCheckDone
  /-- R378. The length of the request in dwords. -/
  | getVersion (dwords : Nat)
  /-- R378. The length of the request in dwords. -/
  | getCapabilities (dwords : Nat)
  /-- R378. The length of the request in dwords. -/
  | negotiateAlgorithms (dwords : Nat)
  /-- R374. The length of the request in dwords. -/
  | getDigests (dwords : Nat)
  /-- R374. The length of the request in dwords; its slot, offset and length. -/
  | getCertificate (dwords slot offset len : Nat)
  /-- R378. The length of the request in dwords; its slot and its measurement summary type. -/
  | challenge (dwords slot summary : Nat)
  /-- R379. The length of the request in dwords; its operation; is a signature asked for? -/
  | getMeasurements (dwords operation : Nat) (signed : Bool)
  /-- R378. The length of the request in dwords. -/
  | spdmUnsupportedRequest (dwords : Nat)
  /-- R418. The core, the region and the byte offset. -/
  | fetchTrap (core : Fin 4) (region : Fin 16) (off : Nat)
  /-- R418. The core; does its memory check? -/
  | coreRestart (core : Fin 4) (ok : Bool)
  /-- R392. -/
  | calRunAdc (le : Fin 8)
  /-- R393. -/
  | calRunDac (le : Fin 8)
  /-- R394. -/
  | calRunTxpath (le : Fin 8)
  /-- R395. -/
  | calRunRxpath (le : Fin 8)
  /-- R409. -/
  | calRunMon
  /-- R399. -/
  | restore
  /-- R390. -/
  | abort
  /-- R387. -/
  | hold
  /-- R387. -/
  | settle
  /-- R387. How it ends. -/
  | measure (result : CalResult)
  /-- R387. -/
  | apply
  /-- R400. The temperature of each line engine, in 1/64 C. -/
  | calDrift (temps : List Int)
  /-- R402. -/
  | go
  /-- R402. -/
  | monPeriodTrigger
  /-- R402. The conversion code, and the temperature in 1/64 °C that it stands for at a sensor input. -/
  | monConversionDone (code scaled : Nat)
  /-- R405. GAIN and INPUT. -/
  | monInj (gain : Fin 4) (input : Fin 64)
  /-- R404. -/
  | monData
  /-- R406. EN, INPUT and VALUE. -/
  | monTdac (on : Bool) (input : Fin 64) (value : Fin 4096)
  /-- R421. The bit positions of the word struck by new errors. -/
  | scrubVisit (struck : List Nat)
  /-- R421. The region. -/
  | lapLate (region : Fin 16)
  /-- R423. The region and the entry. -/
  | trackerEntryExpiry (region : Fin 16) (entry : Fin 16)
  /-- R425. The region and the spare. -/
  | spared (region : Fin 16) (spare : Fin 8)
  /-- R427. The region, and BITS. -/
  | eccInj (region : Fin 16) (bits : Fin 4)
  /-- R417. The address in the claimed range. -/
  | cxlMemRead (addr : Nat)
  /-- R347. -/
  | generateLoadComplete
  /-- R376. -/
  | trustCmdDone
deriving DecidableEq, Repr

end Sys2Proof
end

