-- ==== Sys2Proof/Decode.lean ====
section
/-! DEFINITION. The opcode table gives its rows no bits: a command is a register access, a message or an event, and no word
spells one. -/

namespace Sys2Proof

/-- The command that a word spells: none, since no row of the table has bits. (Log 1: DESIGN CHOICE) -/
def decodeTableWord (_nbits _w : Nat) : Option Instr := none

end Sys2Proof
end

