-- ==== Sys2Proof/Machine/Codec.lean ====
section
/-! DEFINITION. Byte orders, checks, generators and code constructions that the chapters print: CRCs, pilot and scrambler
sequences, the trellis and staircase codes, the distribution matcher, and the layout of formes and cells. -/

namespace Sys2Proof.Machine

/-! ### Byte orders (R8) -/

/-- The `n` bytes of a number, least significant first. -/
def bytesLE : Nat → Nat → List Nat
  | 0, _ => []
  | n + 1, v => v % 256 :: bytesLE n (v / 256)

/-- The `n` bytes of a number, most significant first. -/
def bytesBE (n v : Nat) : List Nat := (bytesLE n v).reverse

/-- The number that bytes spell, least significant first, and most significant first. -/
def ofBytesLE : List Nat → Nat
  | [] => 0
  | b :: rest => b + 256 * ofBytesLE rest
def ofBytesBE (l : List Nat) : Nat := l.foldl (fun a b => a * 256 + b) 0

/-- `n` items of a list from place `i`. -/
def slice {α : Type} (l : List α) (i n : Nat) : List α := (l.drop i).take n

/-- The bits of a byte, most significant first. -/
def bitsMSB (b : Nat) : List Bool := (List.range 8).map fun i => bitOf b (7 - i)

/-! ### Cyclic redundancy checks -/

/-- One bit through a reflected CRC-32 register. -/
def crc32Bit (r : Nat) : Nat := if r % 2 = 1 then (r / 2) ^^^ 0xEDB88320 else r / 2

/-- One byte through a reflected CRC-32 register. -/
def crc32Byte (r b : Nat) : Nat :=
  crc32Bit (crc32Bit (crc32Bit (crc32Bit (crc32Bit (crc32Bit (crc32Bit (crc32Bit (r ^^^ b))))))))

/-- CRC-32 with the parameters of R207. -/
def crc32 (l : List Nat) : Nat := (l.foldl crc32Byte 0xFFFFFFFF) ^^^ 0xFFFFFFFF

/-- One bit, most significant first, through the CRC-16 register of generator x^16 + x^12 + x^5 + 1. -/
def crc16Bit (r : Nat) : Nat := if 0x8000 ≤ r then (2 * r % 65536) ^^^ 0x1021 else 2 * r % 65536

/-- One byte through the CRC-16 register. -/
def crc16Byte (r b : Nat) : Nat :=
  crc16Bit (crc16Bit (crc16Bit (crc16Bit (crc16Bit (crc16Bit (crc16Bit (crc16Bit (r ^^^ (b * 256)))))))))

/-- CRC-16 with the parameters of R158: start 0xFFFF, no final inversion. -/
def crc16 (l : List Nat) : Nat := l.foldl crc16Byte 0xFFFF

/-- One bit, most significant first, through the CRC-8 register of generator x^8 + x^2 + x + 1. -/
def crc8Bit (r : Nat) : Nat := if 0x80 ≤ r then (2 * r % 256) ^^^ 0x07 else 2 * r % 256

/-- CRC-8 with the parameters of R240: start 0x00, no final inversion. -/
def crc8 (l : List Nat) : Nat :=
  l.foldl (fun r b => crc8Bit (crc8Bit (crc8Bit (crc8Bit (crc8Bit (crc8Bit (crc8Bit (crc8Bit (r ^^^ b))))))))) 0

/-! ### Sequences -/

/-- One step of a generator of degree `n` whose polynomial has the terms x^k for `k` in `taps`, and 1: the output bit is the
last stage, bit n − 1 of the register; the register moves up by one, and the sum of stages k − 1 enters at bit 0. (Log 150: PRESUMED) -/
def lfsrStep (n : Nat) (taps : List Nat) (r : Nat) : Bool × Nat :=
  (bitOf r (n - 1), (2 * r + b1 (taps.foldl (fun a k => a != bitOf r (k - 1)) false)) % pow2 n)

/-- The first `m` bits of a generator set to `r`. (Log 150: PRESUMED) -/
def lfsrBits (n : Nat) (taps : List Nat) : Nat → Nat → List Bool
  | 0, _ => []
  | m + 1, r => (lfsrStep n taps r).1 :: lfsrBits n taps m (lfsrStep n taps r).2

/-- The first `n` bits of PRBS15, x^15 + x^14 + 1, from a seed (R67). (Log 150: PRESUMED) -/
def prbs15 (n r : Nat) : List Bool := lfsrBits 15 [15, 14] n r

/-- The pilot generator's seed at every forme start, for subcarrier `d` and polarisation `p` (R67). -/
def pilotSeed (d p : Nat) : Nat := 0x0100 * (d + 1) + 0x0010 * p

/-- Is symbol `k` of a forme a pilot on an active subcarrier (R66)? -/
def isPilot (k : Nat) : Bool := k % 32 == 0

/-- One bit of the forme scrambler x^16 + x^12 + x^3 + x + 1 (R157): the output bit and the next register. (Log 150: PRESUMED) -/
def scramblerStep (r : Nat) : Bool × Nat := lfsrStep 16 [16, 12, 3, 1] r

/-- Eight scrambler bits as a byte, first bit most significant, and the next register. -/
def scramblerByte (r : Nat) : Nat × Nat :=
  (List.range 8).foldl (fun a _ => (a.1 * 2 + b1 (scramblerStep a.2).1, (scramblerStep a.2).2)) (0, r)

/-- Bytes scrambled, or descrambled, from a register. -/
def scrambleFrom : Nat → List Nat → List Nat
  | _, [] => []
  | r, b :: rest => (b ^^^ (scramblerByte r).1) :: scrambleFrom (scramblerByte r).2 rest

/-- A forme's bytes scrambled from byte 8 on; bytes 0 to 7 are never scrambled (R157). -/
def scramble (l : List Nat) : List Nat := l.take 8 ++ scrambleFrom 0xFFFF (l.drop 8)

/-! ### The trellis and staircase codes (R140 to R142) -/

/-- One step of the 16-state trellis encoder: generators 23 and 35 octal, state = the last four inputs, latest in bit 0.
The answer is c0, c1 and the next state. -/
def trellisStep (state : Nat) (u : Bool) : Bool × Bool × Nat :=
  let d (k : Nat) : Bool := bitOf state (k - 1)
  ((u != d 3) != d 4, ((u != d 1) != d 2) != d 4, (state * 2 + b1 u) % 16)

/-- The 17 output bits of one step of sixteen staircase bits: c0, c1, u1 to u15. -/
def trellisOut (state : Nat) (step : List Bool) : List Bool × Nat :=
  let u0 := step.getD 0 false
  let (c0, c1, s') := trellisStep state u0
  (c0 :: c1 :: step.drop 1, s')

/-- Multiplication by x modulo x^11 + x^2 + 1 in GF(2^11). -/
def gfDouble (a : Nat) : Nat := if a < 1024 then 2 * a else (2 * a - 2048) ^^^ 5

/-- The product of two elements of GF(2^11). -/
def gfMul (a b : Nat) : Nat :=
  ((List.range 11).foldl (fun (acc : Nat × Nat) i => ((if bitOf b i then acc.1 ^^^ acc.2 else acc.1), gfDouble acc.2)) (0, a)).1

/-- α to the power `n`. -/
def gfAlpha : Nat → Nat
  | 0 => 1
  | n + 1 => gfDouble (gfAlpha n)

/-- The value at `x` of the polynomial whose coefficients the bits give, first bit of highest degree. -/
def gfEval (bits : List Bool) (x : Nat) : Nat := bits.foldl (fun a b => gfMul a x ^^^ b1 b) 0

/-! ### The distribution matcher (R58) -/

/-- n factorial. -/
def fact : Nat → Nat
  | 0 => 1
  | n + 1 => (n + 1) * fact n

/-- The number of sequences with these counts at each level. -/
def multinomial (cnt : List Nat) : Nat := fact (cnt.foldl (· + ·) 0) / (cnt.foldl (fun a c => a * fact c) 1)

/-- The level of the next amplitude of rank `u`, with the rank and counts that remain, trying levels from `lev` on. -/
def unrankLevel : Nat → List Nat → Nat → Nat → Nat × Nat × List Nat
  | 0, cnt, lev, u => (lev, u, cnt)
  | fuel + 1, cnt, lev, u =>
    if cnt.getD lev 0 = 0 then unrankLevel fuel cnt (lev + 1) u
    else
      let cnt' := cnt.set lev (cnt.getD lev 0 - 1)
      let n := multinomial cnt'
      if u < n then (lev, u, cnt') else unrankLevel fuel cnt (lev + 1) (u - n)

/-- The `n` amplitudes of rank `u` with the composition `cnt` (R58). -/
def unrank : Nat → List Nat → Nat → List Nat
  | 0, _, _ => []
  | n + 1, cnt, u =>
    let (lev, u', cnt') := unrankLevel (cnt.length + 1) cnt 0 u
    (2 * lev + 1) :: unrank n cnt' u'

/-! ### Layout -/

/-- The forme byte at which payload byte `j` of carrier sort `k` lies, with `S` carrier sorts (R156). -/
def payloadByte (S k j : Nat) : Nat := 4096 + (j / 16 * S + k) * 16 + j % 16

/-- The line cell and the member of a flow's cell position `c`, with `n` members (R200). -/
def cellPosition (n c : Nat) : Nat × Nat := (c / n, c % n)

/-- The line header of a cell (R199). -/
def lineHeader (valid ptp late gap errored : Bool) (lseq : Nat) : Nat :=
  b1 valid * pow2 15 + b1 ptp * pow2 14 + b1 late * pow2 13 + b1 gap * pow2 12 + b1 errored * pow2 11 + lseq % 256

end Sys2Proof.Machine
end

