-- ==== Sys2Proof/Machine/Chips.lean ====
section
/-! DEFINITION. The chips of the chime channel: idle fill, preamble, convolutional code and spreading (R301, R303). -/

namespace Sys2Proof.Machine

/-- A chip of a bit. -/
def chipOf (b : Bool) : Int := if b then -1 else 1

/-- A chip lasts 10 ns, at 100 MBd; the pulse with 25 % roll-off occupies 125 MHz about the carrier centre (R301). -/
def chipNs : Nat := 10
def chimeWidth : Nat := 125000000

/-- `n` idle chips from a register's state, and the period of the generator x^23 + x^18 + 1 (R301).
(Log 150: PRESUMED, 185: DESIGN CHOICE) -/
def idleChips (n r : Nat) : List Int := (lfsrBits 23 [23, 18] n r).map chipOf
def idlePeriod : Nat := 8388607

/-- The 2,048 chips of a preamble (R303). (Log 150: PRESUMED) -/
def preambleChips : List Int := (lfsrBits 11 [11, 9] 2047 0x7FF).map chipOf ++ [1]

/-- The coded bits of the convolutional code of constraint length 7, generators 171 and 133 octal, from the last six inputs,
latest in bit 5 (R303). (Log 151: DEDUCED) -/
def convBits : Nat → List Bool → List Bool
  | _, [] => []
  | s, u :: rest =>
    let r := b1 u * 64 + s
    let par (g : Nat) : Bool := (List.range 7).foldl (fun a i => a != (bitOf g i && bitOf r i)) false
    par 0o171 :: par 0o133 :: convBits (r / 2) rest

/-- The chips of a packet's coded section: header, payload and PCRC, six tail bits, five chips to a coded bit (R303). (Log 150: PRESUMED) -/
def codedChips (packet : List Nat) : List Int :=
  let coded := convBits 0 (packet.flatMap bitsMSB ++ List.replicate 6 false)
  let spread := lfsrBits 15 [15, 14] (5 * coded.length) 0x0001
  List.zipWith (fun b p => chipOf b * chipOf p) (coded.flatMap (List.replicate 5)) spread

/-- The chips of a packet (R303). -/
def packetChips (packet : List Nat) : List Int := preambleChips ++ codedChips packet

end Sys2Proof.Machine
end

