-- ==== Sys2Proof/Config.lean ====
section
/-! DEFINITION. What an implementation fixes and what the spec leaves open: constants without a body, of which nothing
can be computed or proved. A statement that mentions one holds whatever its value is. -/

namespace Sys2Proof

/-- A value that the spec does not fix, drawn afresh for each count: random numbers of the part (RESET_ID, nonces, keys)
and results for which the spec gives no way to compute them. (Log 7: DESIGN CHOICE) -/
opaque Config.freeValue : Nat → Nat

/-- The RSA-3072 identity key, modulus and private exponent, that the derivation of R372 yields from the words of the
fused device secret. (Log 11: DESIGN CHOICE) -/
opaque Config.identityKey : List Nat → Nat × Nat

/-- The bytes of the boot ROM, of which measurement 1 is the digest (R379). (Log 11: DESIGN CHOICE) -/
opaque Config.romDigest : List Nat

/-- The taps 0 to 15 of the linear-phase FIR of the detectors (R407), in 2^-15; tap 30 - k equals tap k. (Log 9: DESIGN CHOICE) -/
opaque Config.firTap : Nat → Int

/-- The fixed tables of the part whose contents the spec does not print: the constellation labels (R94), the shaped
compositions (R57, R94), and the shifts of the LDPC base matrices LD20 and LD26 (R135, R154). (Log 9: DESIGN CHOICE) -/
opaque Config.constLabel : Nat → Nat
opaque Config.composition : Nat → Nat
opaque Config.ldpcShift20 : Nat → Nat
opaque Config.ldpcShift26 : Nat → Nat

/-- Figures of the decoder that the spec does not give (R138, R146): the offset of the min-sum, the size of a unit of the
quantised ratios in 2^-16 of a factor of 2, and the size of the ratio of matcher bit `k` from what was received of its block.
(Log 153: DESIGN CHOICE) -/
opaque Config.minSumOffset : Nat
opaque Config.ratioUnit : Nat
opaque Config.matcherRatio : List Int → Nat → Nat

/-- The level, at a moment, of an output whose release has handed it to a bus or port that the spec leaves to other
standards (R487, R509). (Log 145: DESIGN CHOICE) -/
opaque Config.pinHigh : Nat → Nat → Bool

/-- What the fused words 0 to 3 and 4 to 7 say, whose bit places the spec does not give (R482): CIPHER, the lifecycle state,
FUSE_MV, MIN_SVN and the revocation bits. (Log 10: DESIGN CHOICE) -/
opaque Config.fuseCipher : List Nat → Bool
opaque Config.fuseLifecycle : List Nat → Nat
opaque Config.fuseMv : List Nat → Nat
opaque Config.fuseMinSvn : List Nat → Nat
opaque Config.fuseRevoked : List Nat → Nat

/-- The subsystem vendor ID and subsystem ID that the fuses hold (R436); their place in the fuses is not given. (Log 10: DESIGN CHOICE) -/
opaque Config.fuseSubsystem : List Nat → Nat × Nat

end Sys2Proof
end

