-- ==== Sys2Proof/Machine/RegMap.lean ====
section
/-! DEFINITION. The register pages (R437, R448, R449, R455) and every register field that the chapters' register tables
give, with its place, access, reset value and stated range. Reset values marked fuse, cause, retained, mode, random or
page in the spec stand as 0 here (the cause as POR, the VCORE target as 750 mV, R33) and are written by the operation that loads them, or computed when the field is read. -/

namespace Sys2Proof.Machine

/-- The kinds of register page that exist (R437, R449). -/
inductive PageKind where
  | chip0  -- page 0x000, chip identification, seal, reset and fence registers
  | rst  -- page 0x001, supply and temperature
  | fuse  -- page 0x002, fuse map and pin tables
  | vcore  -- page 0x003, VCORE arbiter and AVSBus
  | start  -- page 0x004, start-rate limiter
  | link  -- page 0x010, CXL link
  | dma  -- page 0x011
  | hdm  -- page 0x012
  | evq  -- pages 0x020 to 0x023, event queues
  | evqC  -- page 0x024, event queue common page
  | mon  -- page 0x030
  | det  -- page 0x031, detectors
  | cal  -- page 0x032
  | tymC  -- page 0x040, control
  | tymT  -- page 0x041, time
  | tymS  -- page 0x042, span
  | tymX  -- page 0x043, transparent clock
  | car  -- page 0x050
  | cyp  -- page 0x051
  | trust  -- page 0x052
  | mcu  -- page 0x053
  | ecc  -- page 0x060
  | scb  -- page 0x061
  | hlnG  -- lane group page 0x080 + 8g
  | hlnL  -- lane page 0x081 + 8g
  | hlnE  -- electrical page 0x082 + 8g
  | pace  -- line engine page 0x1E
  | tx  -- line engine page 0x01
  | dac  -- line engine page 0x02
  | rx  -- line engine page 0x03
  | adc  -- line engine page 0x04
  | cde  -- line engine page 0x05
  | meq  -- line engine page 0x06
  | fec  -- line engine page 0x07
  | chime  -- line engine page 0x08
  | frm  -- framer carrier page 0x200 + n
  | frmc  -- framer common page 0x208
  | fmxB  -- page 0x210, bundle
  | fmxF  -- page 0x211, flow
  | fmxD  -- page 0x212, deskew
deriving DecidableEq, Repr

/-- Access types of R10. -/
inductive Acc where
  | RW | RO | WO | W1C | WC | RL
deriving DecidableEq, Repr

/-- One register field, or an array of equal ones: its page (`base + stride * i`), its offset (`off + step * j`), its
lowest bit and its width. -/
structure Fld where
  base : Nat
  stride : Nat
  off : Nat
  step : Nat
  lo : Nat
  width : Nat
deriving DecidableEq, Repr

/-- The key under which the field of page instance `i` and array index `j` is stored. -/
def Fld.key (f : Fld) (i j : Nat) : Nat :=
  ((f.base + f.stride * i) * 0x1000 + (f.off + f.step * j)) * 8 + f.lo

/-- A row of a page's register table: the field, how many registers the array has, its access, whether it is a count
field of a counter register, its reset value and its stated range. -/
structure FieldRow where
  off : Nat
  step : Nat
  num : Nat
  lo : Nat
  width : Nat
  acc : Acc
  count : Bool
  reset : Nat
  rmin : Nat
  rmax : Nat
deriving DecidableEq, Repr

/-- The page number of instance `i` of a page kind (R449). -/
def pageOf (k : PageKind) (i : Nat) : Nat :=
  match k with
  | .chip0 => 0x0
  | .rst => 0x1
  | .fuse => 0x2
  | .vcore => 0x3
  | .start => 0x4
  | .link => 0x10
  | .dma => 0x11
  | .hdm => 0x12
  | .evq => 0x20 + i
  | .evqC => 0x24
  | .mon => 0x30
  | .det => 0x31
  | .cal => 0x32
  | .tymC => 0x40
  | .tymT => 0x41
  | .tymS => 0x42
  | .tymX => 0x43
  | .car => 0x50
  | .cyp => 0x51
  | .trust => 0x52
  | .mcu => 0x53
  | .ecc => 0x60
  | .scb => 0x61
  | .hlnG => 0x80 + 0x8 * i
  | .hlnL => 0x81 + 0x8 * i
  | .hlnE => 0x82 + 0x8 * i
  | .pace => 0x11E + 0x20 * i
  | .tx => 0x101 + 0x20 * i
  | .dac => 0x102 + 0x20 * i
  | .rx => 0x103 + 0x20 * i
  | .adc => 0x104 + 0x20 * i
  | .cde => 0x105 + 0x20 * i
  | .meq => 0x106 + 0x20 * i
  | .fec => 0x107 + 0x20 * i
  | .chime => 0x108 + 0x20 * i
  | .frm => 0x200 + i
  | .frmc => 0x208
  | .fmxB => 0x210
  | .fmxF => 0x211
  | .fmxD => 0x212

/-- The kind and the instance of a page number; none where the page is reserved (R437, R449). -/
def decodePage (p : Nat) : Option (PageKind × Nat) :=
  if p < 0x5 then
    match p with
    | 0 => some (.chip0, 0) | 1 => some (.rst, 0) | 2 => some (.fuse, 0) | 3 => some (.vcore, 0)
    | _ => some (.start, 0)
  else if p < 0x80 then
    if 0x20 ≤ p ∧ p < 0x24 then some (.evq, p - 0x20)
    else match p with
      | 0x10 => some (.link, 0)
      | 0x11 => some (.dma, 0)
      | 0x12 => some (.hdm, 0)
      | 0x24 => some (.evqC, 0)
      | 0x30 => some (.mon, 0)
      | 0x31 => some (.det, 0)
      | 0x32 => some (.cal, 0)
      | 0x40 => some (.tymC, 0)
      | 0x41 => some (.tymT, 0)
      | 0x42 => some (.tymS, 0)
      | 0x43 => some (.tymX, 0)
      | 0x50 => some (.car, 0)
      | 0x51 => some (.cyp, 0)
      | 0x52 => some (.trust, 0)
      | 0x53 => some (.mcu, 0)
      | 0x60 => some (.ecc, 0)
      | 0x61 => some (.scb, 0)
      | _ => none
  else if p < 0x100 then
    match (p - 0x80) % 8 with
    | 0 => some (.hlnG, (p - 0x80) / 8)
    | 1 => some (.hlnL, (p - 0x80) / 8)
    | 2 => some (.hlnE, (p - 0x80) / 8)
    | _ => none
  else if p < 0x200 then
    let n := (p - 0x100) / 0x20
    match (p - 0x100) % 0x20 with
    | 0x1 => some (.tx, n) | 0x2 => some (.dac, n) | 0x3 => some (.rx, n) | 0x4 => some (.adc, n)
    | 0x5 => some (.cde, n) | 0x6 => some (.meq, n) | 0x7 => some (.fec, n) | 0x8 => some (.chime, n)
    | 0x1E => some (.pace, n)
    | _ => none
  else if p < 0x208 then some (.frm, p - 0x200)
  else match p with
    | 0x208 => some (.frmc, 0) | 0x210 => some (.fmxB, 0) | 0x211 => some (.fmxF, 0) | 0x212 => some (.fmxD, 0)
    | _ => none

/-- The first event source number of a page kind and how many events the page lists (R458). -/
def eventsOf (k : PageKind) : Nat × Nat :=
  match k with
  | .chip0 => (0x0, 0)
  | .rst => (0x81, 3)
  | .fuse => (0x0, 0)
  | .vcore => (0x84, 1)
  | .start => (0x80, 1)
  | .link => (0x90, 3)
  | .dma => (0x96, 2)
  | .hdm => (0x93, 3)
  | .evq => (0x98, 1)
  | .evqC => (0x0, 0)
  | .mon => (0x70, 3)
  | .det => (0x0, 0)
  | .cal => (0x73, 2)
  | .tymC => (0x50, 8)
  | .tymT => (0x0, 0)
  | .tymS => (0x58, 4)
  | .tymX => (0x5C, 1)
  | .car => (0x60, 3)
  | .cyp => (0x63, 8)
  | .trust => (0x6B, 3)
  | .mcu => (0x6E, 1)
  | .ecc => (0x78, 5)
  | .scb => (0x7D, 1)
  | .hlnG => (0x40, 10)
  | .hlnL => (0x0, 0)
  | .hlnE => (0x0, 0)
  | .pace => (0x0, 4)
  | .tx => (0x4, 5)
  | .dac => (0x9, 1)
  | .rx => (0xA, 4)
  | .adc => (0xE, 2)
  | .cde => (0x10, 1)
  | .meq => (0x0, 0)
  | .fec => (0x11, 2)
  | .chime => (0x13, 3)
  | .frm => (0x20, 8)
  | .frmc => (0x28, 2)
  | .fmxB => (0x30, 9)
  | .fmxF => (0x0, 0)
  | .fmxD => (0x0, 0)

/-! ## The common header (R448, R455): page number `p` as instance -/

namespace Hdr

def PAGE_ID.TYPE : Fld := ⟨0, 1, 0x0, 0, 24, 8⟩
def PAGE_ID.SUB : Fld := ⟨0, 1, 0x0, 0, 16, 8⟩
def PAGE_ID.INST : Fld := ⟨0, 1, 0x0, 0, 0, 16⟩
def PAGE_VER.MAJOR : Fld := ⟨0, 1, 0x4, 0, 8, 8⟩
def PAGE_VER.MINOR : Fld := ⟨0, 1, 0x4, 0, 0, 8⟩
def CTRL.FREEZE : Fld := ⟨0, 1, 0x8, 0, 2, 1⟩
def CTRL.BLK_RESET : Fld := ⟨0, 1, 0x8, 0, 1, 1⟩
def CTRL.ENABLE : Fld := ⟨0, 1, 0x8, 0, 0, 1⟩
def STATUS.FROZEN : Fld := ⟨0, 1, 0xC, 0, 2, 1⟩
def STATUS.ERR : Fld := ⟨0, 1, 0xC, 0, 1, 1⟩
def STATUS.IDLE : Fld := ⟨0, 1, 0xC, 0, 0, 1⟩
def ERR_CODE.CODE : Fld := ⟨0, 1, 0x10, 0, 0, 8⟩
def ERR_OFFSET.OFFSET : Fld := ⟨0, 1, 0x14, 0, 0, 12⟩
def ERR_COUNT.COUNT : Fld := ⟨0, 1, 0x18, 0, 0, 16⟩
def FENCE.COUNT : Fld := ⟨0, 1, 0x1C, 0, 0, 16⟩
def EV_RAW.RAW : Fld := ⟨0, 1, 0x20, 0, 0, 32⟩
def EV_LATCH.LATCH : Fld := ⟨0, 1, 0x24, 0, 0, 32⟩
def EV_ENABLE.ENABLE : Fld := ⟨0, 1, 0x28, 0, 0, 32⟩
def EV_FORCE.FORCE : Fld := ⟨0, 1, 0x2C, 0, 0, 32⟩
def EV_PEAK.PEAK : Fld := ⟨0, 1, 0x30, 0, 0, 16⟩
def EV_COUNT.COUNT : Fld := ⟨0, 1, 0x34, 0, 0, 32⟩
def TBL_SEL.SEL : Fld := ⟨0, 1, 0x800, 0, 0, 8⟩
def TBL_INDEX.INDEX : Fld := ⟨0, 1, 0x804, 0, 0, 16⟩
def TBL_DATA.DATA : Fld := ⟨0, 1, 0x808, 4, 0, 32⟩
def TBL_CMD.AUTO_INC : Fld := ⟨0, 1, 0x828, 0, 8, 1⟩
def TBL_CMD.OP : Fld := ⟨0, 1, 0x828, 0, 0, 2⟩

end Hdr

namespace Reg


/-! Registers of R4 -/

def CHIP_PART.PART_NUM : Fld := ⟨0x0, 0x0, 0x40, 0x0, 0, 16⟩
def CHIP_REV.MAJOR : Fld := ⟨0x0, 0x0, 0x44, 0x0, 4, 4⟩
def CHIP_REV.MINOR : Fld := ⟨0x0, 0x0, 0x44, 0x0, 0, 4⟩
def CHIP_FEATURE.CIPHER : Fld := ⟨0x0, 0x0, 0x48, 0x0, 0, 1⟩

/-! Registers of R34 -/

def LE_PG_CTRL.VREQ_EN : Fld := ⟨0x11E, 0x20, 0x40, 0x0, 0, 1⟩
def LE_PG_THRESH.EVT_MARGIN : Fld := ⟨0x11E, 0x20, 0x44, 0x0, 16, 16⟩
def LE_PG_THRESH.VREQ_MARGIN : Fld := ⟨0x11E, 0x20, 0x44, 0x0, 0, 16⟩
def LE_PG_HIGH.HIGH_MARGIN : Fld := ⟨0x11E, 0x20, 0x48, 0x0, 0, 16⟩
def LE_PG_MARGIN.MIN : Fld := ⟨0x11E, 0x20, 0x4C, 0x0, 16, 16⟩
def LE_PG_MARGIN.NOW : Fld := ⟨0x11E, 0x20, 0x4C, 0x0, 0, 16⟩
def LE_PG_STATE.REQ : Fld := ⟨0x11E, 0x20, 0x50, 0x0, 1, 2⟩
def LE_PG_STATE.LOW : Fld := ⟨0x11E, 0x20, 0x50, 0x0, 0, 1⟩
def LE_EB_FILL.RX_FILL : Fld := ⟨0x11E, 0x20, 0x54, 0x0, 16, 16⟩
def LE_EB_FILL.TX_FILL : Fld := ⟨0x11E, 0x20, 0x54, 0x0, 0, 16⟩
def LE_EB_CTRL.TX_TARGET : Fld := ⟨0x11E, 0x20, 0x58, 0x0, 0, 16⟩

/-! Registers of R35 -/

def LE_EB_ERR.TX_UNDERRUN : Fld := ⟨0x11E, 0x20, 0x5C, 0x0, 16, 16⟩
def LE_EB_ERR.RX_OVERFLOW : Fld := ⟨0x11E, 0x20, 0x5C, 0x0, 0, 16⟩

/-! Registers of R37 -/

def CHIP_VCORE_FLOOR.FUSE_MV : Fld := ⟨0x3, 0x0, 0x40, 0x0, 16, 10⟩
def CHIP_VCORE_FLOOR.FLOOR_MV : Fld := ⟨0x3, 0x0, 0x40, 0x0, 0, 10⟩
def CHIP_VCORE_NOW.LAST_UP : Fld := ⟨0x3, 0x0, 0x44, 0x0, 16, 4⟩
def CHIP_VCORE_NOW.TARGET_MV : Fld := ⟨0x3, 0x0, 0x44, 0x0, 0, 10⟩
def CHIP_VCORE_STEP.DOWN_MV : Fld := ⟨0x3, 0x0, 0x48, 0x0, 8, 5⟩
def CHIP_VCORE_STEP.UP_MV : Fld := ⟨0x3, 0x0, 0x48, 0x0, 0, 5⟩

/-! Registers of R91 -/

def LE_TX_CTRL.KILL : Fld := ⟨0x101, 0x20, 0x40, 0x0, 8, 1⟩
def LE_TX_CTRL.REQ : Fld := ⟨0x101, 0x20, 0x40, 0x0, 0, 3⟩
def LE_TX_STAT.POWER : Fld := ⟨0x101, 0x20, 0x44, 0x0, 16, 16⟩
def LE_TX_STAT.DEPART_WAIT : Fld := ⟨0x101, 0x20, 0x44, 0x0, 13, 1⟩
def LE_TX_STAT.FROZEN : Fld := ⟨0x101, 0x20, 0x44, 0x0, 12, 1⟩
def LE_TX_STAT.TXEN_PIN : Fld := ⟨0x101, 0x20, 0x44, 0x0, 11, 1⟩
def LE_TX_STAT.SQUELCH : Fld := ⟨0x101, 0x20, 0x44, 0x0, 10, 1⟩
def LE_TX_STAT.QPOS : Fld := ⟨0x101, 0x20, 0x44, 0x0, 4, 4⟩
def LE_TX_STAT.STATE : Fld := ⟨0x101, 0x20, 0x44, 0x0, 0, 4⟩
def LE_TX_CFG.ROLLOFF : Fld := ⟨0x101, 0x20, 0x48, 0x0, 8, 5⟩
def LE_TX_CFG.SYM_RATE : Fld := ⟨0x101, 0x20, 0x48, 0x0, 0, 3⟩
def LE_TX_BL_CTRL.RESULT : Fld := ⟨0x101, 0x20, 0x4C, 0x0, 8, 4⟩
def LE_TX_BL_CTRL.NEGOTIATE : Fld := ⟨0x101, 0x20, 0x4C, 0x0, 4, 1⟩
def LE_TX_BL_CTRL.SWITCH : Fld := ⟨0x101, 0x20, 0x4C, 0x0, 1, 1⟩
def LE_TX_BL_CTRL.ACTIVE : Fld := ⟨0x101, 0x20, 0x4C, 0x0, 0, 1⟩
def LE_TX_REQ_BITS.REQ_BITS : Fld := ⟨0x101, 0x20, 0x50, 0x0, 0, 24⟩
def LE_TX_CAP.CAP : Fld := ⟨0x101, 0x20, 0x54, 0x0, 0, 24⟩
def LE_TX_CAP_SHADOW.CAP : Fld := ⟨0x101, 0x20, 0x58, 0x0, 0, 24⟩
def LE_TX_PILOT.BOOST : Fld := ⟨0x101, 0x20, 0x5C, 0x0, 0, 4⟩
def LE_TX_CHIME.LEVEL : Fld := ⟨0x101, 0x20, 0x60, 0x0, 0, 6⟩
def LE_TX_MASK_CTRL.NORM : Fld := ⟨0x101, 0x20, 0x64, 0x0, 16, 16⟩
def LE_TX_MASK_CTRL.SLEW_LEFT : Fld := ⟨0x101, 0x20, 0x64, 0x0, 8, 8⟩
def LE_TX_MASK_CTRL.SLEWING : Fld := ⟨0x101, 0x20, 0x64, 0x0, 2, 1⟩
def LE_TX_MASK_CTRL.COMMIT : Fld := ⟨0x101, 0x20, 0x64, 0x0, 1, 1⟩
def LE_TX_MASK_CTRL.ACTIVE : Fld := ⟨0x101, 0x20, 0x64, 0x0, 0, 1⟩
def LE_TX_XY.Y_GAIN : Fld := ⟨0x101, 0x20, 0x68, 0x0, 0, 8⟩
def LE_TX_RAMP.RAMP_US : Fld := ⟨0x101, 0x20, 0x6C, 0x0, 0, 16⟩
def LE_TX_TXEN.LAG_US : Fld := ⟨0x101, 0x20, 0x70, 0x0, 16, 16⟩
def LE_TX_TXEN.LEAD_US : Fld := ⟨0x101, 0x20, 0x70, 0x0, 0, 16⟩
def LE_TX_PRBS.MODE : Fld := ⟨0x101, 0x20, 0x74, 0x0, 0, 2⟩

/-! Registers of R92 -/

def LE_DAC_CTRL.CLIP_THRESH : Fld := ⟨0x102, 0x20, 0x40, 0x0, 16, 16⟩
def LE_DAC_CTRL.BACKOFF : Fld := ⟨0x102, 0x20, 0x40, 0x0, 0, 8⟩
def LE_DAC_STAT.SQUELCH : Fld := ⟨0x102, 0x20, 0x44, 0x0, 2, 1⟩
def LE_DAC_STAT.BANK : Fld := ⟨0x102, 0x20, 0x44, 0x0, 0, 2⟩
def LE_DAC_CLIP_X.XQ : Fld := ⟨0x102, 0x20, 0x48, 0x0, 16, 16⟩
def LE_DAC_CLIP_X.XI : Fld := ⟨0x102, 0x20, 0x48, 0x0, 0, 16⟩
def LE_DAC_CLIP_Y.YQ : Fld := ⟨0x102, 0x20, 0x4C, 0x0, 16, 16⟩
def LE_DAC_CLIP_Y.YI : Fld := ⟨0x102, 0x20, 0x4C, 0x0, 0, 16⟩
def LE_DAC_RMS.YQ : Fld := ⟨0x102, 0x20, 0x50, 0x0, 24, 8⟩
def LE_DAC_RMS.YI : Fld := ⟨0x102, 0x20, 0x50, 0x0, 16, 8⟩
def LE_DAC_RMS.XQ : Fld := ⟨0x102, 0x20, 0x50, 0x0, 8, 8⟩
def LE_DAC_RMS.XI : Fld := ⟨0x102, 0x20, 0x50, 0x0, 0, 8⟩

/-! Registers of R93 -/

def CHIP_START_CTRL.BANK_GAP_US : Fld := ⟨0x4, 0x0, 0x40, 0x0, 16, 16⟩
def CHIP_START_CTRL.MAX_RAMPS : Fld := ⟨0x4, 0x0, 0x40, 0x0, 0, 3⟩
def CHIP_START_STAT.FROZEN : Fld := ⟨0x4, 0x0, 0x44, 0x0, 8, 1⟩
def CHIP_START_STAT.DEPTH : Fld := ⟨0x4, 0x0, 0x44, 0x0, 4, 4⟩
def CHIP_START_STAT.RAMPING : Fld := ⟨0x4, 0x0, 0x44, 0x0, 0, 3⟩
def CHIP_START_Q.WAIT_MS : Fld := ⟨0x4, 0x0, 0x48, 0x4, 16, 16⟩
def CHIP_START_Q.VALID : Fld := ⟨0x4, 0x0, 0x48, 0x4, 8, 1⟩
def CHIP_START_Q.KIND : Fld := ⟨0x4, 0x0, 0x48, 0x4, 4, 4⟩
def CHIP_START_Q.LE : Fld := ⟨0x4, 0x0, 0x48, 0x4, 0, 4⟩

/-! Registers of R125 -/

def LE_RX_CTRL.REACQ : Fld := ⟨0x103, 0x20, 0x40, 0x0, 1, 1⟩
def LE_RX_CTRL.EN : Fld := ⟨0x103, 0x20, 0x40, 0x0, 0, 1⟩
def LE_RX_CFG.ROLLOFF : Fld := ⟨0x103, 0x20, 0x44, 0x0, 8, 5⟩
def LE_RX_CFG.FE_FILT : Fld := ⟨0x103, 0x20, 0x44, 0x0, 4, 1⟩
def LE_RX_CFG.SYM_RATE : Fld := ⟨0x103, 0x20, 0x44, 0x0, 0, 3⟩
def LE_RX_FREQ.FREQ_MHZ : Fld := ⟨0x103, 0x20, 0x48, 0x0, 0, 32⟩
def LE_RX_STAT.LOL_CAUSE : Fld := ⟨0x103, 0x20, 0x4C, 0x0, 12, 4⟩
def LE_RX_STAT.SEEDED : Fld := ⟨0x103, 0x20, 0x4C, 0x0, 11, 1⟩
def LE_RX_STAT.CHIME : Fld := ⟨0x103, 0x20, 0x4C, 0x0, 10, 1⟩
def LE_RX_STAT.LOL : Fld := ⟨0x103, 0x20, 0x4C, 0x0, 9, 1⟩
def LE_RX_STAT.LOS : Fld := ⟨0x103, 0x20, 0x4C, 0x0, 8, 1⟩
def LE_RX_STAT.CAND : Fld := ⟨0x103, 0x20, 0x4C, 0x0, 4, 4⟩
def LE_RX_STAT.STATE : Fld := ⟨0x103, 0x20, 0x4C, 0x0, 0, 4⟩
def LE_RX_ACQ_CNT.FAILS : Fld := ⟨0x103, 0x20, 0x50, 0x0, 16, 16⟩
def LE_RX_ACQ_CNT.LOCKS : Fld := ⟨0x103, 0x20, 0x50, 0x0, 0, 16⟩
def LE_RX_ACQ_TIME.ACQ_US : Fld := ⟨0x103, 0x20, 0x54, 0x0, 0, 24⟩
def LE_RX_LOS.HYST : Fld := ⟨0x103, 0x20, 0x58, 0x0, 16, 16⟩
def LE_RX_LOS.THRESH : Fld := ⟨0x103, 0x20, 0x58, 0x0, 0, 16⟩
def LE_RX_BL_CTRL.RESULT : Fld := ⟨0x103, 0x20, 0x5C, 0x0, 8, 4⟩
def LE_RX_BL_CTRL.SWITCH : Fld := ⟨0x103, 0x20, 0x5C, 0x0, 1, 1⟩
def LE_RX_BL_CTRL.ACTIVE : Fld := ⟨0x103, 0x20, 0x5C, 0x0, 0, 1⟩
def LE_RX_PRBS.LOCK : Fld := ⟨0x103, 0x20, 0x60, 0x0, 8, 1⟩
def LE_RX_PRBS.MODE : Fld := ⟨0x103, 0x20, 0x60, 0x0, 0, 2⟩
def LE_RX_PRBS_ERR.ERR : Fld := ⟨0x103, 0x20, 0x64, 0x0, 0, 32⟩
def LE_RX_PRBS_CNT.CNT : Fld := ⟨0x103, 0x20, 0x68, 0x0, 0, 32⟩

/-! Registers of R126 -/

def LE_RX_MARK_IDX_LO.IDX_LO : Fld := ⟨0x103, 0x20, 0x70, 0x0, 0, 32⟩
def LE_RX_MARK_IDX_HI.IDX_HI : Fld := ⟨0x103, 0x20, 0x74, 0x0, 0, 32⟩
def LE_RX_MARK_FRAC.GALLEY : Fld := ⟨0x103, 0x20, 0x78, 0x0, 16, 16⟩
def LE_RX_MARK_FRAC.FRAC : Fld := ⟨0x103, 0x20, 0x78, 0x0, 0, 16⟩
def LE_RX_MARK_FLAGS.CENTROID : Fld := ⟨0x103, 0x20, 0x7C, 0x0, 16, 16⟩
def LE_RX_MARK_FLAGS.LOCKED : Fld := ⟨0x103, 0x20, 0x7C, 0x0, 3, 1⟩
def LE_RX_MARK_FLAGS.GAP : Fld := ⟨0x103, 0x20, 0x7C, 0x0, 2, 1⟩
def LE_RX_MARK_FLAGS.CDE_STEP : Fld := ⟨0x103, 0x20, 0x7C, 0x0, 1, 1⟩
def LE_RX_MARK_FLAGS.VALID : Fld := ⟨0x103, 0x20, 0x7C, 0x0, 0, 1⟩

/-! Registers of R127 -/

def LE_ADC_CTRL.CLIP_THRESH : Fld := ⟨0x104, 0x20, 0x40, 0x0, 16, 16⟩
def LE_ADC_STAT.CAL_VALID : Fld := ⟨0x104, 0x20, 0x44, 0x0, 2, 1⟩
def LE_ADC_STAT.BANK : Fld := ⟨0x104, 0x20, 0x44, 0x0, 0, 2⟩
def LE_ADC_RMS.YQ : Fld := ⟨0x104, 0x20, 0x48, 0x0, 24, 8⟩
def LE_ADC_RMS.YI : Fld := ⟨0x104, 0x20, 0x48, 0x0, 16, 8⟩
def LE_ADC_RMS.XQ : Fld := ⟨0x104, 0x20, 0x48, 0x0, 8, 8⟩
def LE_ADC_RMS.XI : Fld := ⟨0x104, 0x20, 0x48, 0x0, 0, 8⟩
def LE_ADC_CLIP_X.XQ : Fld := ⟨0x104, 0x20, 0x4C, 0x0, 16, 16⟩
def LE_ADC_CLIP_X.XI : Fld := ⟨0x104, 0x20, 0x4C, 0x0, 0, 16⟩
def LE_ADC_CLIP_Y.YQ : Fld := ⟨0x104, 0x20, 0x50, 0x0, 16, 16⟩
def LE_ADC_CLIP_Y.YI : Fld := ⟨0x104, 0x20, 0x50, 0x0, 0, 16⟩
def LE_ADC_SPUR.YQ : Fld := ⟨0x104, 0x20, 0x54, 0x0, 24, 8⟩
def LE_ADC_SPUR.YI : Fld := ⟨0x104, 0x20, 0x54, 0x0, 16, 8⟩
def LE_ADC_SPUR.XQ : Fld := ⟨0x104, 0x20, 0x54, 0x0, 8, 8⟩
def LE_ADC_SPUR.XI : Fld := ⟨0x104, 0x20, 0x54, 0x0, 0, 8⟩
def LE_ADC_IDX_LO.IDX_LO : Fld := ⟨0x104, 0x20, 0x58, 0x0, 0, 32⟩
def LE_ADC_IDX_HI.IDX_HI : Fld := ⟨0x104, 0x20, 0x5C, 0x0, 0, 32⟩
def LE_ADC_SPUR_THRESH.THRESH : Fld := ⟨0x104, 0x20, 0x60, 0x0, 0, 8⟩

/-! Registers of R128 -/

def LE_CDE_CTRL.HYST : Fld := ⟨0x105, 0x20, 0x40, 0x0, 8, 8⟩
def LE_CDE_CTRL.SEED_EN : Fld := ⟨0x105, 0x20, 0x40, 0x0, 1, 1⟩
def LE_CDE_CTRL.MODE : Fld := ⟨0x105, 0x20, 0x40, 0x0, 0, 1⟩
def LE_CDE_SET.D_SET : Fld := ⟨0x105, 0x20, 0x44, 0x0, 0, 32⟩
def LE_CDE_EST.D_EST : Fld := ⟨0x105, 0x20, 0x48, 0x0, 0, 32⟩
def LE_CDE_PREDELAY.N : Fld := ⟨0x105, 0x20, 0x4C, 0x0, 0, 16⟩
def LE_CDE_SEED.SEED : Fld := ⟨0x105, 0x20, 0x50, 0x0, 0, 32⟩
def LE_CDE_SEARCH.WINDOW : Fld := ⟨0x105, 0x20, 0x54, 0x0, 0, 16⟩

/-! Registers of R129 -/

def LE_MEQ_CTRL.STEP : Fld := ⟨0x106, 0x20, 0x40, 0x0, 0, 3⟩
def LE_MEQ_CENTROID.C : Fld := ⟨0x106, 0x20, 0x44, 0x0, 0, 16⟩
def LE_MEQ_PMD.PDL : Fld := ⟨0x106, 0x20, 0x48, 0x0, 16, 16⟩
def LE_MEQ_PMD.DGD : Fld := ⟨0x106, 0x20, 0x48, 0x0, 0, 16⟩
def LE_CPR_FOFS.FOFS : Fld := ⟨0x106, 0x20, 0x4C, 0x0, 0, 16⟩
def LE_CPR_SLIPS.SLIPS : Fld := ⟨0x106, 0x20, 0x50, 0x0, 0, 32⟩
def LE_TRL_PHASE.PHASE : Fld := ⟨0x106, 0x20, 0x54, 0x0, 0, 16⟩
def LE_TRL_FOFS.PPB : Fld := ⟨0x106, 0x20, 0x58, 0x0, 0, 32⟩

/-! Registers of R153 -/

def LE_FEC_CFG.RATE : Fld := ⟨0x107, 0x20, 0x40, 0x0, 16, 2⟩
def LE_FEC_CFG.CODE : Fld := ⟨0x107, 0x20, 0x40, 0x0, 8, 2⟩
def LE_FEC_ITER.COMMIT : Fld := ⟨0x107, 0x20, 0x44, 0x0, 16, 1⟩
def LE_FEC_ITER.ITER_MAX : Fld := ⟨0x107, 0x20, 0x44, 0x0, 0, 5⟩
def LE_FEC_STAT.ITER_PEAK : Fld := ⟨0x107, 0x20, 0x48, 0x0, 16, 5⟩
def LE_FEC_STAT.ITER_NOW : Fld := ⟨0x107, 0x20, 0x48, 0x0, 8, 5⟩
def LE_FEC_STAT.MISMATCH : Fld := ⟨0x107, 0x20, 0x48, 0x0, 3, 1⟩
def LE_FEC_STAT.DEG : Fld := ⟨0x107, 0x20, 0x48, 0x0, 2, 1⟩
def LE_FEC_STAT.FECX : Fld := ⟨0x107, 0x20, 0x48, 0x0, 1, 1⟩
def LE_FEC_STAT.RUN : Fld := ⟨0x107, 0x20, 0x48, 0x0, 0, 1⟩
def LE_FEC_FECX.UNC_THRESH : Fld := ⟨0x107, 0x20, 0x4C, 0x0, 0, 16⟩
def LE_FEC_DEG.HYST : Fld := ⟨0x107, 0x20, 0x50, 0x0, 16, 16⟩
def LE_FEC_DEG.MARGIN : Fld := ⟨0x107, 0x20, 0x50, 0x0, 0, 16⟩
def LE_FEC_QTHR.QTHR : Fld := ⟨0x107, 0x20, 0x54, 0x0, 0, 16⟩
def LE_FEC_Q.MARGIN : Fld := ⟨0x107, 0x20, 0x58, 0x0, 16, 16⟩
def LE_FEC_Q.Q : Fld := ⟨0x107, 0x20, 0x58, 0x0, 0, 16⟩
def LE_FEC_BITS_LO.BITS : Fld := ⟨0x107, 0x20, 0x60, 0x0, 0, 32⟩
def LE_FEC_BITS_HI.BITS : Fld := ⟨0x107, 0x20, 0x64, 0x0, 0, 32⟩
def LE_FEC_CORR_LO.CORR : Fld := ⟨0x107, 0x20, 0x68, 0x0, 0, 32⟩
def LE_FEC_CORR_HI.CORR : Fld := ⟨0x107, 0x20, 0x6C, 0x0, 0, 32⟩
def LE_FEC_INNER_LO.INNER : Fld := ⟨0x107, 0x20, 0x70, 0x0, 0, 32⟩
def LE_FEC_INNER_HI.INNER : Fld := ⟨0x107, 0x20, 0x74, 0x0, 0, 32⟩
def LE_FEC_CW_LO.CW : Fld := ⟨0x107, 0x20, 0x78, 0x0, 0, 32⟩
def LE_FEC_CW_HI.CW : Fld := ⟨0x107, 0x20, 0x7C, 0x0, 0, 32⟩
def LE_FEC_UNC_LO.UNC : Fld := ⟨0x107, 0x20, 0x80, 0x0, 0, 32⟩
def LE_FEC_UNC_HI.UNC : Fld := ⟨0x107, 0x20, 0x84, 0x0, 0, 32⟩
def LE_FEC_UGAL.UGAL : Fld := ⟨0x107, 0x20, 0x88, 0x0, 0, 32⟩
def LE_FEC_CLEAR.CLR : Fld := ⟨0x107, 0x20, 0x8C, 0x0, 0, 1⟩

/-! Registers of R188 -/

def FRM_ALIGN_STAT.FNUM : Fld := ⟨0x200, 0x1, 0x40, 0x0, 24, 4⟩
def FRM_ALIGN_STAT.CAND : Fld := ⟨0x200, 0x1, 0x40, 0x0, 16, 8⟩
def FRM_ALIGN_STAT.GA : Fld := ⟨0x200, 0x1, 0x40, 0x0, 2, 1⟩
def FRM_ALIGN_STAT.FA : Fld := ⟨0x200, 0x1, 0x40, 0x0, 1, 1⟩
def FRM_ALIGN_STAT.HUNT : Fld := ⟨0x200, 0x1, 0x40, 0x0, 0, 1⟩
def FRM_GNUM_RX.GNUM : Fld := ⟨0x200, 0x1, 0x44, 0x0, 0, 32⟩
def FRM_GNUM_TX.GNUM : Fld := ⟨0x200, 0x1, 0x48, 0x0, 0, 32⟩
def FRM_DEF_STAT.RAW : Fld := ⟨0x200, 0x1, 0x4C, 0x0, 24, 6⟩
def FRM_DEF_STAT.DECL : Fld := ⟨0x200, 0x1, 0x4C, 0x0, 16, 6⟩
def FRM_DEF_STAT.REPT : Fld := ⟨0x200, 0x1, 0x4C, 0x0, 0, 6⟩
def FRM_BDI_CTRL.CAUSE : Fld := ⟨0x200, 0x1, 0x50, 0x0, 12, 3⟩
def FRM_BDI_CTRL.TX : Fld := ⟨0x200, 0x1, 0x50, 0x0, 8, 1⟩
def FRM_BDI_CTRL.FORCE : Fld := ⟨0x200, 0x1, 0x50, 0x0, 1, 1⟩
def FRM_BDI_CTRL.INHIBIT : Fld := ⟨0x200, 0x1, 0x50, 0x0, 0, 1⟩
def FRM_HUNT_CNT.FALSE : Fld := ⟨0x200, 0x1, 0x54, 0x0, 16, 16⟩
def FRM_HUNT_CNT.DROPPED : Fld := ⟨0x200, 0x1, 0x54, 0x0, 0, 16⟩
def FRM_FAS_PAY.VALID : Fld := ⟨0x200, 0x1, 0x58, 0x0, 31, 1⟩
def FRM_FAS_PAY.OFFSET : Fld := ⟨0x200, 0x1, 0x58, 0x0, 0, 18⟩
def FRM_OH_CRC.ERR : Fld := ⟨0x200, 0x1, 0x5C, 0x0, 0, 32⟩
def FRM_OH_GAL.INCONS : Fld := ⟨0x200, 0x1, 0x60, 0x0, 16, 16⟩
def FRM_OH_GAL.LOST : Fld := ⟨0x200, 0x1, 0x60, 0x0, 0, 16⟩
def FRM_ALIGN_CNT.LOF : Fld := ⟨0x200, 0x1, 0x64, 0x0, 16, 16⟩
def FRM_ALIGN_CNT.LOM : Fld := ⟨0x200, 0x1, 0x64, 0x0, 0, 16⟩
def FRM_PM_NOW.EG : Fld := ⟨0x200, 0x1, 0x68, 0x0, 16, 16⟩
def FRM_PM_NOW.RUN : Fld := ⟨0x200, 0x1, 0x68, 0x0, 12, 4⟩
def FRM_PM_NOW.UNAVAIL : Fld := ⟨0x200, 0x1, 0x68, 0x0, 3, 1⟩
def FRM_PM_NOW.DEF : Fld := ⟨0x200, 0x1, 0x68, 0x0, 2, 1⟩
def FRM_PM_NOW.INH : Fld := ⟨0x200, 0x1, 0x68, 0x0, 1, 1⟩

/-! Registers of R190 -/

def FRM_PM_CTRL.CLR : Fld := ⟨0x208, 0x0, 0x40, 0x0, 8, 1⟩
def FRM_PM_CTRL.EN : Fld := ⟨0x208, 0x0, 0x40, 0x0, 0, 1⟩
def FRM_PM_STAT.CLOSED : Fld := ⟨0x208, 0x0, 0x44, 0x0, 16, 16⟩
def FRM_PM_STAT.INVALID : Fld := ⟨0x208, 0x0, 0x44, 0x0, 1, 1⟩
def FRM_PM_STAT.CLR_PEND : Fld := ⟨0x208, 0x0, 0x44, 0x0, 0, 1⟩
def FRM_FDEF_SUM.FLOWS : Fld := ⟨0x208, 0x0, 0x48, 0x4, 0, 32⟩

/-! Registers of R221 -/

def FMX_BND_STAT.MEMBERS : Fld := ⟨0x210, 0x0, 0x40, 0x0, 24, 8⟩
def FMX_BND_STAT.EXCL_TX : Fld := ⟨0x210, 0x0, 0x40, 0x0, 16, 8⟩
def FMX_BND_STAT.EXCL_RX : Fld := ⟨0x210, 0x0, 0x40, 0x0, 8, 8⟩
def FMX_BND_STAT.FOREIGN : Fld := ⟨0x210, 0x0, 0x40, 0x0, 0, 8⟩
def FMX_BND_CTRL.AUTO_RETURN : Fld := ⟨0x210, 0x0, 0x44, 0x0, 16, 1⟩
def FMX_BND_CTRL.RETURN : Fld := ⟨0x210, 0x0, 0x44, 0x0, 0, 8⟩
def FMX_BND_SW.TXN_TX : Fld := ⟨0x210, 0x0, 0x48, 0x0, 24, 8⟩
def FMX_BND_SW.REASON_TX : Fld := ⟨0x210, 0x0, 0x48, 0x0, 20, 4⟩
def FMX_BND_SW.SW_IN_TX : Fld := ⟨0x210, 0x0, 0x48, 0x0, 16, 4⟩
def FMX_BND_SW.TXN_RX : Fld := ⟨0x210, 0x0, 0x48, 0x0, 8, 8⟩
def FMX_BND_SW.REASON_RX : Fld := ⟨0x210, 0x0, 0x48, 0x0, 4, 4⟩
def FMX_BND_SW.SW_IN_RX : Fld := ⟨0x210, 0x0, 0x48, 0x0, 0, 4⟩
def FMX_HOME_ID_TX.ID : Fld := ⟨0x210, 0x0, 0x4C, 0x0, 0, 32⟩
def FMX_HOME_ID_RX.ID : Fld := ⟨0x210, 0x0, 0x50, 0x0, 0, 32⟩
def FMX_MAP_ID_TX.ID : Fld := ⟨0x210, 0x0, 0x54, 0x0, 0, 32⟩
def FMX_MAP_ID_RX.ID : Fld := ⟨0x210, 0x0, 0x58, 0x0, 0, 32⟩
def FMX_SHADOW_ID.ID : Fld := ⟨0x210, 0x0, 0x5C, 0x0, 0, 32⟩
def FMX_SHADOW_ID_PEER.ID : Fld := ⟨0x210, 0x0, 0x60, 0x0, 0, 32⟩
def FMX_MAP_CTRL.RESULT : Fld := ⟨0x210, 0x0, 0x64, 0x0, 28, 4⟩
def FMX_MAP_CTRL.HOME_RX : Fld := ⟨0x210, 0x0, 0x64, 0x0, 17, 1⟩
def FMX_MAP_CTRL.HOME_TX : Fld := ⟨0x210, 0x0, 0x64, 0x0, 16, 1⟩
def FMX_MAP_CTRL.PEER_READY : Fld := ⟨0x210, 0x0, 0x64, 0x0, 8, 1⟩
def FMX_MAP_CTRL.CANCEL : Fld := ⟨0x210, 0x0, 0x64, 0x0, 1, 1⟩
def FMX_MAP_CTRL.COMMIT : Fld := ⟨0x210, 0x0, 0x64, 0x0, 0, 1⟩
def FMX_PLACE_TRY.MASK : Fld := ⟨0x210, 0x0, 0x68, 0x0, 0, 8⟩
def FMX_PLACE_RES.DONE : Fld := ⟨0x210, 0x0, 0x6C, 0x0, 31, 1⟩
def FMX_PLACE_RES.SHED : Fld := ⟨0x210, 0x0, 0x6C, 0x0, 16, 11⟩
def FMX_PLACE_RES.MOVED : Fld := ⟨0x210, 0x0, 0x6C, 0x0, 0, 11⟩
def FMX_REMAP_LAST.REASON : Fld := ⟨0x210, 0x0, 0x70, 0x0, 28, 4⟩
def FMX_REMAP_LAST.SHED : Fld := ⟨0x210, 0x0, 0x70, 0x0, 16, 11⟩
def FMX_REMAP_LAST.LEARN_US : Fld := ⟨0x210, 0x0, 0x70, 0x0, 0, 16⟩
def FMX_REMAP_CNT.SWITCHES : Fld := ⟨0x210, 0x0, 0x74, 0x0, 16, 16⟩
def FMX_REMAP_CNT.MISMATCH : Fld := ⟨0x210, 0x0, 0x74, 0x0, 0, 16⟩
def FMX_BSIG_CNT.DIFF : Fld := ⟨0x210, 0x0, 0x78, 0x0, 16, 16⟩
def FMX_BSIG_CNT.LOST : Fld := ⟨0x210, 0x0, 0x78, 0x0, 0, 16⟩
def FMX_IN_DROP.WRONG_GROUP : Fld := ⟨0x210, 0x0, 0x7C, 0x0, 0, 16⟩

/-! Registers of R223 -/

def FMX_SHED_SUM.FLOWS : Fld := ⟨0x211, 0x0, 0x40, 0x4, 0, 32⟩

/-! Registers of R225 -/

def FMX_DSK_CTRL.MAX_NS : Fld := ⟨0x212, 0x0, 0x40, 0x0, 0, 16⟩
def FMX_DSK_SKEW.VALID : Fld := ⟨0x212, 0x0, 0x44, 0x4, 31, 1⟩
def FMX_DSK_SKEW.SKEW_PS : Fld := ⟨0x212, 0x0, 0x44, 0x4, 0, 24⟩
def FMX_DSK_HOLD.PEAK_NS : Fld := ⟨0x212, 0x0, 0x64, 0x0, 16, 16⟩
def FMX_DSK_HOLD.NOW_NS : Fld := ⟨0x212, 0x0, 0x64, 0x0, 0, 16⟩
def FMX_DSK_ERR.OVER : Fld := ⟨0x212, 0x0, 0x68, 0x0, 0, 32⟩

/-! Registers of R258 -/

def HLN_GRP_CTRL.LANE_EN : Fld := ⟨0x80, 0x8, 0x40, 0x0, 24, 8⟩
def HLN_GRP_CTRL.REJOIN : Fld := ⟨0x80, 0x8, 0x40, 0x0, 4, 1⟩
def HLN_GRP_CTRL.AUTO_REJOIN : Fld := ⟨0x80, 0x8, 0x40, 0x0, 3, 1⟩
def HLN_GRP_CTRL.MIN7 : Fld := ⟨0x80, 0x8, 0x40, 0x0, 2, 1⟩
def HLN_GRP_CTRL.RETRAIN : Fld := ⟨0x80, 0x8, 0x40, 0x0, 1, 1⟩
def HLN_GRP_CTRL.EN : Fld := ⟨0x80, 0x8, 0x40, 0x0, 0, 1⟩
def HLN_GRP_STAT.LANES : Fld := ⟨0x80, 0x8, 0x44, 0x0, 24, 8⟩
def HLN_GRP_STAT.HEALTH : Fld := ⟨0x80, 0x8, 0x44, 0x0, 16, 8⟩
def HLN_GRP_STAT.PEER_HEALTH : Fld := ⟨0x80, 0x8, 0x44, 0x0, 8, 8⟩
def HLN_GRP_STAT.SW : Fld := ⟨0x80, 0x8, 0x44, 0x0, 4, 2⟩
def HLN_GRP_STAT.GSTATE : Fld := ⟨0x80, 0x8, 0x44, 0x0, 0, 3⟩
def HLN_GRP_BNUM.BNUM : Fld := ⟨0x80, 0x8, 0x48, 0x0, 0, 32⟩
def HLN_GRP_CAP.CAP : Fld := ⟨0x80, 0x8, 0x4C, 0x0, 16, 7⟩
def HLN_GRP_CAP.USED : Fld := ⟨0x80, 0x8, 0x4C, 0x0, 8, 7⟩
def HLN_GRP_CAP.SHED : Fld := ⟨0x80, 0x8, 0x4C, 0x0, 0, 7⟩
def HLN_GRP_CNT.RESTRIPE : Fld := ⟨0x80, 0x8, 0x50, 0x0, 16, 16⟩
def HLN_GRP_CNT.DOWN : Fld := ⟨0x80, 0x8, 0x50, 0x0, 0, 16⟩
def HLN_CELL_DISC.HCRC : Fld := ⟨0x80, 0x8, 0x54, 0x0, 16, 16⟩
def HLN_CELL_DISC.POLICED : Fld := ⟨0x80, 0x8, 0x54, 0x0, 0, 16⟩
def HLN_RS_CW_LO.CW : Fld := ⟨0x80, 0x8, 0x58, 0x0, 0, 32⟩
def HLN_RS_CW_HI.CW : Fld := ⟨0x80, 0x8, 0x5C, 0x0, 0, 32⟩
def HLN_RS_SYM_LO.SYM : Fld := ⟨0x80, 0x8, 0x60, 0x0, 0, 32⟩
def HLN_RS_SYM_HI.SYM : Fld := ⟨0x80, 0x8, 0x64, 0x0, 0, 32⟩
def HLN_RS_UNC.UNC : Fld := ⟨0x80, 0x8, 0x68, 0x0, 0, 32⟩
def HLN_GRP_TRAIN.SNR_MIN : Fld := ⟨0x80, 0x8, 0x6C, 0x0, 16, 16⟩
def HLN_GRP_TRAIN.PRE_TAP : Fld := ⟨0x80, 0x8, 0x6C, 0x0, 0, 8⟩
def HLN_GRP_EB.RX_FILL : Fld := ⟨0x80, 0x8, 0x70, 0x0, 16, 16⟩
def HLN_GRP_EB.TX_FILL : Fld := ⟨0x80, 0x8, 0x70, 0x0, 0, 16⟩

/-! Registers of R260 -/

def HLN_LANE_CTRL.PRBS_LOCK : Fld := ⟨0x81, 0x8, 0x40, 0x20, 16, 1⟩
def HLN_LANE_CTRL.PRECODE : Fld := ⟨0x81, 0x8, 0x40, 0x20, 8, 2⟩
def HLN_LANE_CTRL.TEST : Fld := ⟨0x81, 0x8, 0x40, 0x20, 0, 3⟩
def HLN_LANE_STAT.SNR : Fld := ⟨0x81, 0x8, 0x44, 0x20, 16, 16⟩
def HLN_LANE_STAT.HEALTH : Fld := ⟨0x81, 0x8, 0x44, 0x20, 15, 1⟩
def HLN_LANE_STAT.SIG : Fld := ⟨0x81, 0x8, 0x44, 0x20, 14, 1⟩
def HLN_LANE_STAT.INV : Fld := ⟨0x81, 0x8, 0x44, 0x20, 13, 1⟩
def HLN_LANE_STAT.PRE_TX : Fld := ⟨0x81, 0x8, 0x44, 0x20, 12, 1⟩
def HLN_LANE_STAT.PRE_RX : Fld := ⟨0x81, 0x8, 0x44, 0x20, 11, 1⟩
def HLN_LANE_STAT.RX_PHYS : Fld := ⟨0x81, 0x8, 0x44, 0x20, 8, 3⟩
def HLN_LANE_STAT.BOUND : Fld := ⟨0x81, 0x8, 0x44, 0x20, 7, 1⟩
def HLN_LANE_STAT.STATE : Fld := ⟨0x81, 0x8, 0x44, 0x20, 0, 4⟩
def HLN_LANE_TRY.LOSSES : Fld := ⟨0x81, 0x8, 0x48, 0x20, 16, 16⟩
def HLN_LANE_TRY.ATTEMPTS : Fld := ⟨0x81, 0x8, 0x48, 0x20, 0, 16⟩
def HLN_LANE_BACKOFF.LAST_FAIL : Fld := ⟨0x81, 0x8, 0x4C, 0x20, 16, 3⟩
def HLN_LANE_BACKOFF.BACKOFF_MS : Fld := ⟨0x81, 0x8, 0x4C, 0x20, 0, 13⟩
def HLN_LANE_SYMERR.SYM : Fld := ⟨0x81, 0x8, 0x50, 0x20, 0, 32⟩
def HLN_LANE_PRBS_ERR.ERR : Fld := ⟨0x81, 0x8, 0x54, 0x20, 0, 32⟩
def HLN_LANE_PRBS_CNT.CNT : Fld := ⟨0x81, 0x8, 0x58, 0x20, 0, 32⟩
def HLN_LANE_DLY.RX_PS : Fld := ⟨0x81, 0x8, 0x5C, 0x20, 16, 16⟩
def HLN_LANE_DLY.TX_PS : Fld := ⟨0x81, 0x8, 0x5C, 0x20, 0, 16⟩

/-! Registers of R261 -/

def HLN_TXFIR.PRE2 : Fld := ⟨0x82, 0x8, 0x40, 0x4, 24, 4⟩
def HLN_TXFIR.PRE1 : Fld := ⟨0x82, 0x8, 0x40, 0x4, 16, 6⟩
def HLN_TXFIR.POST1 : Fld := ⟨0x82, 0x8, 0x40, 0x4, 8, 6⟩
def HLN_TXFIR.AMP : Fld := ⟨0x82, 0x8, 0x40, 0x4, 0, 4⟩
def HLN_RXEQ.CTLE : Fld := ⟨0x82, 0x8, 0x60, 0x4, 16, 8⟩
def HLN_RXEQ.DFE1 : Fld := ⟨0x82, 0x8, 0x60, 0x4, 0, 8⟩

/-! Registers of R295 -/

def TYM_CTRL.SRC : Fld := ⟨0x40, 0x0, 0x40, 0x0, 0, 2⟩
def TYM_STAT.STEP_EPOCH : Fld := ⟨0x40, 0x0, 0x44, 0x0, 24, 8⟩
def TYM_STAT.PEER_EPOCH : Fld := ⟨0x40, 0x0, 0x44, 0x0, 16, 8⟩
def TYM_STAT.PEER_SRC : Fld := ⟨0x40, 0x0, 0x44, 0x0, 10, 2⟩
def TYM_STAT.PEER_STATE : Fld := ⟨0x40, 0x0, 0x44, 0x0, 8, 2⟩
def TYM_STAT.STEP_PEND : Fld := ⟨0x40, 0x0, 0x44, 0x0, 7, 1⟩
def TYM_STAT.ROLE_CONFLICT : Fld := ⟨0x40, 0x0, 0x44, 0x0, 6, 1⟩
def TYM_STAT.SRC_VALID : Fld := ⟨0x40, 0x0, 0x44, 0x0, 5, 1⟩
def TYM_STAT.STATE : Fld := ⟨0x40, 0x0, 0x44, 0x0, 0, 2⟩
def TYM_INCR_LO.INCR_LO : Fld := ⟨0x40, 0x0, 0x48, 0x0, 0, 32⟩
def TYM_INCR_HI.INCR_HI : Fld := ⟨0x40, 0x0, 0x4C, 0x0, 0, 6⟩
def TYM_FREQ.PPB : Fld := ⟨0x40, 0x0, 0x50, 0x0, 0, 32⟩
def TYM_SERVO.STEP_NS : Fld := ⟨0x40, 0x0, 0x54, 0x0, 16, 16⟩
def TYM_SERVO.BW : Fld := ⟨0x40, 0x0, 0x54, 0x0, 8, 8⟩
def TYM_SERVO.SLEW_PPM : Fld := ⟨0x40, 0x0, 0x54, 0x0, 0, 8⟩
def TYM_LOCK.LOCK_PS : Fld := ⟨0x40, 0x0, 0x58, 0x0, 0, 16⟩
def TYM_HOLD.LIMIT_MIN : Fld := ⟨0x40, 0x0, 0x5C, 0x0, 16, 16⟩
def TYM_HOLD.AVG_S : Fld := ⟨0x40, 0x0, 0x5C, 0x0, 0, 12⟩
def TYM_OFS.PS : Fld := ⟨0x40, 0x0, 0x60, 0x0, 0, 32⟩
def TYM_HOLD_STAT.HOLD_S : Fld := ⟨0x40, 0x0, 0x64, 0x0, 0, 32⟩

/-! Registers of R297 -/

def TYM_NOW_SEC_LO.SEC_LO : Fld := ⟨0x41, 0x0, 0x40, 0x0, 0, 32⟩
def TYM_NOW_SEC_HI.SEC_HI : Fld := ⟨0x41, 0x0, 0x44, 0x0, 0, 16⟩
def TYM_NOW_NS.NS : Fld := ⟨0x41, 0x0, 0x48, 0x0, 0, 30⟩
def TYM_NOW_FRAC.FRAC : Fld := ⟨0x41, 0x0, 0x4C, 0x0, 0, 16⟩
def TYM_ADJ_SEC_LO.SEC_LO : Fld := ⟨0x41, 0x0, 0x50, 0x0, 0, 32⟩
def TYM_ADJ_SEC_HI.SIGN : Fld := ⟨0x41, 0x0, 0x54, 0x0, 31, 1⟩
def TYM_ADJ_SEC_HI.SEC_HI : Fld := ⟨0x41, 0x0, 0x54, 0x0, 0, 16⟩
def TYM_ADJ_NS.NS : Fld := ⟨0x41, 0x0, 0x58, 0x0, 0, 30⟩
def TYM_ADJ_CMD.PEND : Fld := ⟨0x41, 0x0, 0x5C, 0x0, 8, 1⟩
def TYM_ADJ_CMD.CMD : Fld := ⟨0x41, 0x0, 0x5C, 0x0, 0, 2⟩
def TYM_STEP_GNUM.GNUM : Fld := ⟨0x41, 0x0, 0x60, 0x0, 0, 32⟩
def TYM_EXT_CTRL.BAUD : Fld := ⟨0x41, 0x0, 0x64, 0x0, 8, 3⟩
def TYM_EXT_CTRL.REFERS : Fld := ⟨0x41, 0x0, 0x64, 0x0, 4, 1⟩
def TYM_EXT_CTRL.F10_EN : Fld := ⟨0x41, 0x0, 0x64, 0x0, 2, 1⟩
def TYM_EXT_CTRL.TOD_EN : Fld := ⟨0x41, 0x0, 0x64, 0x0, 1, 1⟩
def TYM_EXT_CTRL.PPS_POL : Fld := ⟨0x41, 0x0, 0x64, 0x0, 0, 1⟩
def TYM_PPS_IN_DLY.PS : Fld := ⟨0x41, 0x0, 0x68, 0x0, 0, 32⟩
def TYM_PPS_IN_CAP_SEC_LO.SEC_LO : Fld := ⟨0x41, 0x0, 0x6C, 0x0, 0, 32⟩
def TYM_PPS_IN_CAP_SEC_HI.SEC_HI : Fld := ⟨0x41, 0x0, 0x70, 0x0, 0, 16⟩
def TYM_PPS_IN_CAP_NS.NS : Fld := ⟨0x41, 0x0, 0x74, 0x0, 0, 30⟩
def TYM_PPS_IN_CAP_FRAC.FRAC : Fld := ⟨0x41, 0x0, 0x78, 0x0, 0, 16⟩
def TYM_PPS_IN_STAT.FAULTS : Fld := ⟨0x41, 0x0, 0x7C, 0x0, 16, 16⟩
def TYM_PPS_IN_STAT.TOD_ERR : Fld := ⟨0x41, 0x0, 0x7C, 0x0, 8, 8⟩
def TYM_PPS_IN_STAT.TOD_OK : Fld := ⟨0x41, 0x0, 0x7C, 0x0, 2, 1⟩
def TYM_PPS_IN_STAT.F10_OK : Fld := ⟨0x41, 0x0, 0x7C, 0x0, 1, 1⟩
def TYM_PPS_IN_STAT.PPS_OK : Fld := ⟨0x41, 0x0, 0x7C, 0x0, 0, 1⟩
def TYM_TCAL_CAP_SEC_LO.SEC_LO : Fld := ⟨0x41, 0x0, 0x80, 0x0, 0, 32⟩
def TYM_TCAL_CAP_SEC_HI.SEC_HI : Fld := ⟨0x41, 0x0, 0x84, 0x0, 0, 16⟩
def TYM_TCAL_CAP_NS.NS : Fld := ⟨0x41, 0x0, 0x88, 0x0, 0, 30⟩
def TYM_TCAL_CAP_FRAC.FRAC : Fld := ⟨0x41, 0x0, 0x8C, 0x0, 0, 16⟩
def TYM_TCAL_CNT.LOST : Fld := ⟨0x41, 0x0, 0x90, 0x0, 16, 16⟩
def TYM_TCAL_CNT.EDGES : Fld := ⟨0x41, 0x0, 0x90, 0x0, 0, 16⟩
def TYM_OUT_CTRL.SQUELCH : Fld := ⟨0x41, 0x0, 0x94, 0x0, 8, 1⟩
def TYM_OUT_CTRL.TOD : Fld := ⟨0x41, 0x0, 0x94, 0x0, 3, 1⟩
def TYM_OUT_CTRL.F10 : Fld := ⟨0x41, 0x0, 0x94, 0x0, 2, 1⟩
def TYM_OUT_CTRL.PPS1 : Fld := ⟨0x41, 0x0, 0x94, 0x0, 1, 1⟩
def TYM_OUT_CTRL.PPS0 : Fld := ⟨0x41, 0x0, 0x94, 0x0, 0, 1⟩
def TYM_PPS_OUT0_OFS.OFS_PS : Fld := ⟨0x41, 0x0, 0x98, 0x0, 0, 32⟩
def TYM_PPS_OUT0_W.WIDTH_US : Fld := ⟨0x41, 0x0, 0x9C, 0x0, 0, 19⟩
def TYM_PPS_OUT1_OFS.OFS_PS : Fld := ⟨0x41, 0x0, 0xA0, 0x0, 0, 32⟩
def TYM_PPS_OUT1_W.WIDTH_US : Fld := ⟨0x41, 0x0, 0xA4, 0x0, 0, 19⟩
def TYM_UTC.LEAP59 : Fld := ⟨0x41, 0x0, 0xA8, 0x0, 17, 1⟩
def TYM_UTC.LEAP61 : Fld := ⟨0x41, 0x0, 0xA8, 0x0, 16, 1⟩
def TYM_UTC.UTC_OFS : Fld := ⟨0x41, 0x0, 0xA8, 0x0, 0, 16⟩

/-! Registers of R298 -/

def TYM_SPAN_CTRL.LOSS_MS : Fld := ⟨0x42, 0x0, 0x40, 0x0, 16, 16⟩
def TYM_SPAN_CTRL.REJECT_PS : Fld := ⟨0x42, 0x0, 0x40, 0x0, 0, 16⟩
def TYM_SPAN_STAT.CONTRIB : Fld := ⟨0x42, 0x0, 0x44, 0x0, 24, 8⟩
def TYM_SPAN_STAT.REJECTED : Fld := ⟨0x42, 0x0, 0x44, 0x0, 16, 8⟩
def TYM_SPAN_STAT.ASYM_STALE : Fld := ⟨0x42, 0x0, 0x44, 0x0, 2, 1⟩
def TYM_SPAN_STAT.FIT_VALID : Fld := ⟨0x42, 0x0, 0x44, 0x0, 1, 1⟩
def TYM_SPAN_STAT.VALID : Fld := ⟨0x42, 0x0, 0x44, 0x0, 0, 1⟩
def TYM_SPAN_OFS_LO.THETA : Fld := ⟨0x42, 0x0, 0x48, 0x0, 0, 32⟩
def TYM_SPAN_OFS_HI.THETA : Fld := ⟨0x42, 0x0, 0x4C, 0x0, 0, 32⟩
def TYM_SPAN_RATE.PPB : Fld := ⟨0x42, 0x0, 0x50, 0x0, 0, 32⟩
def TYM_SPAN_MPD_LO.MPD : Fld := ⟨0x42, 0x0, 0x54, 0x0, 0, 32⟩
def TYM_SPAN_MPD_HI.MPD : Fld := ⟨0x42, 0x0, 0x58, 0x0, 0, 32⟩
def TYM_ASYM_USER.PS : Fld := ⟨0x42, 0x0, 0x5C, 0x0, 0, 32⟩
def TYM_ASYM_CTRL.AVG_S : Fld := ⟨0x42, 0x0, 0x60, 0x0, 16, 12⟩
def TYM_ASYM_CTRL.ORDER : Fld := ⟨0x42, 0x0, 0x60, 0x0, 0, 2⟩
def TYM_ASYM_PEER.PS : Fld := ⟨0x42, 0x0, 0x64, 0x0, 0, 32⟩
def TYM_FIT_C0.C0 : Fld := ⟨0x42, 0x0, 0x68, 0x0, 0, 32⟩
def TYM_FIT_C1.C1 : Fld := ⟨0x42, 0x0, 0x6C, 0x0, 0, 32⟩
def TYM_FIT_C2.C2 : Fld := ⟨0x42, 0x0, 0x70, 0x0, 0, 32⟩

/-! Registers of R300 -/

def TYM_TC_CTRL.EN : Fld := ⟨0x43, 0x0, 0x40, 0x0, 0, 1⟩
def TYM_TC_CORR_LO.CORR : Fld := ⟨0x43, 0x0, 0x44, 0x0, 0, 32⟩
def TYM_TC_CORR_HI.CORR : Fld := ⟨0x43, 0x0, 0x48, 0x0, 0, 32⟩
def TYM_TC_DISC.NO_OFFSET : Fld := ⟨0x43, 0x0, 0x4C, 0x0, 16, 16⟩
def TYM_TC_DISC.STEP : Fld := ⟨0x43, 0x0, 0x4C, 0x0, 8, 8⟩
def TYM_TC_DISC.RANGE : Fld := ⟨0x43, 0x0, 0x4C, 0x0, 0, 8⟩
def TYM_TC_UNPARSED.FRAMES : Fld := ⟨0x43, 0x0, 0x50, 0x0, 0, 32⟩
def TYM_TC_LAST.RES : Fld := ⟨0x43, 0x0, 0x54, 0x0, 0, 32⟩

/-! Registers of R321 -/

def LE_CHM_CTRL.ABSENT_S : Fld := ⟨0x108, 0x20, 0x40, 0x0, 16, 16⟩
def LE_CHM_CTRL.AUTO_ON : Fld := ⟨0x108, 0x20, 0x40, 0x0, 8, 1⟩
def LE_CHM_CTRL.ABSENT_EN : Fld := ⟨0x108, 0x20, 0x40, 0x0, 0, 1⟩
def LE_CHM_STAT.PEER_RESET_ID : Fld := ⟨0x108, 0x20, 0x44, 0x0, 16, 16⟩
def LE_CHM_STAT.BEACON_ABS : Fld := ⟨0x108, 0x20, 0x44, 0x0, 2, 1⟩
def LE_CHM_STAT.ABSENT : Fld := ⟨0x108, 0x20, 0x44, 0x0, 1, 1⟩
def LE_CHM_STAT.LOCK : Fld := ⟨0x108, 0x20, 0x44, 0x0, 0, 1⟩
def LE_CHM_SILENT.SILENT_MS : Fld := ⟨0x108, 0x20, 0x48, 0x0, 0, 32⟩
def LE_CHM_SEQ_TX.EPOCH : Fld := ⟨0x108, 0x20, 0x4C, 0x0, 16, 8⟩
def LE_CHM_SEQ_TX.SEQ : Fld := ⟨0x108, 0x20, 0x4C, 0x0, 0, 16⟩
def LE_CHM_SEQ_RX.EPOCH : Fld := ⟨0x108, 0x20, 0x50, 0x0, 16, 8⟩
def LE_CHM_SEQ_RX.SEQ : Fld := ⟨0x108, 0x20, 0x50, 0x0, 0, 16⟩
def LE_CHM_TXCNT.SENT : Fld := ⟨0x108, 0x20, 0x54, 0x0, 0, 32⟩
def LE_CHM_RXCNT.VALID : Fld := ⟨0x108, 0x20, 0x58, 0x0, 0, 32⟩
def LE_CHM_ERR.HDR_ERR : Fld := ⟨0x108, 0x20, 0x5C, 0x0, 16, 16⟩
def LE_CHM_ERR.PAY_ERR : Fld := ⟨0x108, 0x20, 0x5C, 0x0, 0, 16⟩
def LE_CHM_LOSS.LOST : Fld := ⟨0x108, 0x20, 0x60, 0x0, 16, 16⟩
def LE_CHM_LOSS.ABANDONED : Fld := ⟨0x108, 0x20, 0x60, 0x0, 0, 16⟩
def LE_CHM_DISC.STALE : Fld := ⟨0x108, 0x20, 0x64, 0x0, 16, 16⟩
def LE_CHM_DISC.MISWIRED : Fld := ⟨0x108, 0x20, 0x64, 0x0, 8, 8⟩
def LE_CHM_DISC.FOREIGN : Fld := ⟨0x108, 0x20, 0x64, 0x0, 0, 8⟩
def LE_CHM_METRIC.PRE_DB : Fld := ⟨0x108, 0x20, 0x68, 0x0, 0, 16⟩

/-! Registers of R361 -/

def CAR_CMD.OP : Fld := ⟨0x50, 0x0, 0x40, 0x0, 24, 8⟩
def CAR_CMD.ARG : Fld := ⟨0x50, 0x0, 0x40, 0x0, 0, 12⟩
def CAR_CMD_STAT.BUSY : Fld := ⟨0x50, 0x0, 0x44, 0x0, 31, 1⟩
def CAR_CMD_STAT.OP : Fld := ⟨0x50, 0x0, 0x44, 0x0, 24, 4⟩
def CAR_CMD_STAT.DETAIL : Fld := ⟨0x50, 0x0, 0x44, 0x0, 16, 8⟩
def CAR_CMD_STAT.RESULT : Fld := ⟨0x50, 0x0, 0x44, 0x0, 0, 8⟩
def CAR_NONCE_LO.NONCE : Fld := ⟨0x50, 0x0, 0x48, 0x0, 0, 32⟩
def CAR_NONCE_HI.NONCE : Fld := ⟨0x50, 0x0, 0x4C, 0x0, 0, 32⟩
def CAR_ALARM.LOCK : Fld := ⟨0x50, 0x0, 0x50, 0x0, 16, 1⟩
def CAR_ALARM.CAUSE : Fld := ⟨0x50, 0x0, 0x50, 0x0, 0, 7⟩
def CAR_ALARM_CNT.ZEROISE : Fld := ⟨0x50, 0x0, 0x54, 0x0, 0, 16⟩
def CAR_CEIL.CEIL_EXP : Fld := ⟨0x50, 0x0, 0x58, 0x0, 0, 6⟩
def CAR_SLOT_CNT.ACTIVE : Fld := ⟨0x50, 0x0, 0x5C, 0x0, 16, 13⟩
def CAR_SLOT_CNT.READY : Fld := ⟨0x50, 0x0, 0x5C, 0x0, 0, 13⟩
def CAR_PEER.PEER_PAIRED : Fld := ⟨0x50, 0x0, 0x60, 0x0, 2, 1⟩
def CAR_PEER.PEER_CIPHER : Fld := ⟨0x50, 0x0, 0x60, 0x0, 1, 1⟩
def CAR_PEER.PAIRED : Fld := ⟨0x50, 0x0, 0x60, 0x0, 0, 1⟩

/-! Registers of R363 -/

def CYP_STAT.PEER_ALARM : Fld := ⟨0x51, 0x0, 0x40, 0x0, 1, 1⟩
def CYP_STAT.CIPHER : Fld := ⟨0x51, 0x0, 0x40, 0x0, 0, 1⟩
def CYP_CKPT_CNT.RESYNC : Fld := ⟨0x51, 0x0, 0x44, 0x0, 0, 16⟩
def CYP_EXH_SUM.FLOWS : Fld := ⟨0x51, 0x0, 0x48, 0x4, 0, 32⟩

/-! Registers of R381 -/

def CAR_ID_STAT.FAULT : Fld := ⟨0x52, 0x0, 0x40, 0x0, 1, 1⟩
def CAR_ID_STAT.READY : Fld := ⟨0x52, 0x0, 0x40, 0x0, 0, 1⟩
def CAR_TRUST_CMD.OP : Fld := ⟨0x52, 0x0, 0x44, 0x0, 24, 8⟩
def CAR_TRUST_STAT.BUSY : Fld := ⟨0x52, 0x0, 0x48, 0x0, 31, 1⟩
def CAR_TRUST_STAT.DETAIL : Fld := ⟨0x52, 0x0, 0x48, 0x0, 16, 8⟩
def CAR_TRUST_STAT.CONFIRMED : Fld := ⟨0x52, 0x0, 0x48, 0x0, 11, 1⟩
def CAR_TRUST_STAT.PAIRED : Fld := ⟨0x52, 0x0, 0x48, 0x0, 10, 1⟩
def CAR_TRUST_STAT.ANCHOR_FUSED : Fld := ⟨0x52, 0x0, 0x48, 0x0, 9, 1⟩
def CAR_TRUST_STAT.ANCHOR_SET : Fld := ⟨0x52, 0x0, 0x48, 0x0, 8, 1⟩
def CAR_TRUST_STAT.RESULT : Fld := ⟨0x52, 0x0, 0x48, 0x0, 0, 8⟩

/-! Registers of R383 -/

def MCU_LIFECYCLE.REVOKED : Fld := ⟨0x53, 0x0, 0x40, 0x0, 16, 4⟩
def MCU_LIFECYCLE.MIN_SVN : Fld := ⟨0x53, 0x0, 0x40, 0x0, 8, 7⟩
def MCU_LIFECYCLE.STATE : Fld := ⟨0x53, 0x0, 0x40, 0x0, 0, 2⟩
def MCU_BOOT_STAT.FAIL_HOST : Fld := ⟨0x53, 0x0, 0x44, 0x0, 28, 4⟩
def MCU_BOOT_STAT.FAIL_B : Fld := ⟨0x53, 0x0, 0x44, 0x0, 24, 4⟩
def MCU_BOOT_STAT.FAIL_A : Fld := ⟨0x53, 0x0, 0x44, 0x0, 20, 4⟩
def MCU_BOOT_STAT.SOURCE : Fld := ⟨0x53, 0x0, 0x44, 0x0, 4, 2⟩
def MCU_BOOT_STAT.STATE : Fld := ⟨0x53, 0x0, 0x44, 0x0, 0, 2⟩
def MCU_FW_SVN.SVN : Fld := ⟨0x53, 0x0, 0x48, 0x0, 0, 32⟩
def MCU_FW_VERSION.VERSION : Fld := ⟨0x53, 0x0, 0x4C, 0x0, 0, 32⟩
def MCU_BOOT_CMD.OP : Fld := ⟨0x53, 0x0, 0x50, 0x0, 24, 8⟩
def MCU_BOOT_CMD.LEN_KIB : Fld := ⟨0x53, 0x0, 0x50, 0x0, 0, 13⟩
def MCU_BOOT_TIME.MS : Fld := ⟨0x53, 0x0, 0x54, 0x0, 0, 16⟩

/-! Registers of R410 -/

def MON_SEQ_CTRL.PERIOD_US : Fld := ⟨0x30, 0x0, 0x40, 0x0, 12, 20⟩
def MON_SEQ_CTRL.GO : Fld := ⟨0x30, 0x0, 0x40, 0x0, 11, 1⟩
def MON_SEQ_CTRL.TRIG : Fld := ⟨0x30, 0x0, 0x40, 0x0, 8, 3⟩
def MON_SEQ_CTRL.LAST : Fld := ⟨0x30, 0x0, 0x40, 0x0, 0, 5⟩
def MON_STAT.ENTRY : Fld := ⟨0x30, 0x0, 0x44, 0x0, 8, 5⟩
def MON_STAT.CAL : Fld := ⟨0x30, 0x0, 0x44, 0x0, 3, 1⟩
def MON_STAT.INJ_PEND : Fld := ⟨0x30, 0x0, 0x44, 0x0, 2, 1⟩
def MON_STAT.RUN : Fld := ⟨0x30, 0x0, 0x44, 0x0, 1, 1⟩
def MON_STAT.CAL_VALID : Fld := ⟨0x30, 0x0, 0x44, 0x0, 0, 1⟩
def MON_DATA.VALID : Fld := ⟨0x30, 0x0, 0x48, 0x0, 31, 1⟩
def MON_DATA.OVR : Fld := ⟨0x30, 0x0, 0x48, 0x0, 30, 1⟩
def MON_DATA.INJ : Fld := ⟨0x30, 0x0, 0x48, 0x0, 29, 1⟩
def MON_DATA.TEST : Fld := ⟨0x30, 0x0, 0x48, 0x0, 28, 1⟩
def MON_DATA.SRC : Fld := ⟨0x30, 0x0, 0x48, 0x0, 16, 6⟩
def MON_DATA.CODE : Fld := ⟨0x30, 0x0, 0x48, 0x0, 0, 16⟩
def MON_DATA_OVR.COUNT : Fld := ⟨0x30, 0x0, 0x4C, 0x0, 0, 16⟩
def MON_TRIG_OVR.COUNT : Fld := ⟨0x30, 0x0, 0x50, 0x0, 0, 16⟩
def MON_INJ.GO : Fld := ⟨0x30, 0x0, 0x54, 0x0, 31, 1⟩
def MON_INJ.PEND : Fld := ⟨0x30, 0x0, 0x54, 0x0, 16, 1⟩
def MON_INJ.GAIN : Fld := ⟨0x30, 0x0, 0x54, 0x0, 8, 2⟩
def MON_INJ.INPUT : Fld := ⟨0x30, 0x0, 0x54, 0x0, 0, 6⟩
def MON_TDAC.EN : Fld := ⟨0x30, 0x0, 0x58, 0x0, 31, 1⟩
def MON_TDAC.INPUT : Fld := ⟨0x30, 0x0, 0x58, 0x0, 16, 6⟩
def MON_TDAC.VALUE : Fld := ⟨0x30, 0x0, 0x58, 0x0, 0, 12⟩

/-! Registers of R413 -/

def CAL_CMD.OP : Fld := ⟨0x32, 0x0, 0x40, 0x0, 24, 8⟩
def CAL_CMD.KIND : Fld := ⟨0x32, 0x0, 0x40, 0x0, 8, 4⟩
def CAL_CMD.LE : Fld := ⟨0x32, 0x0, 0x40, 0x0, 0, 3⟩
def CAL_CMD_STAT.BUSY : Fld := ⟨0x32, 0x0, 0x44, 0x0, 31, 1⟩
def CAL_CMD_STAT.KIND : Fld := ⟨0x32, 0x0, 0x44, 0x0, 24, 4⟩
def CAL_CMD_STAT.LE : Fld := ⟨0x32, 0x0, 0x44, 0x0, 20, 3⟩
def CAL_CMD_STAT.PHASE : Fld := ⟨0x32, 0x0, 0x44, 0x0, 16, 3⟩
def CAL_CMD_STAT.DETAIL : Fld := ⟨0x32, 0x0, 0x44, 0x0, 8, 8⟩
def CAL_CMD_STAT.RESULT : Fld := ⟨0x32, 0x0, 0x44, 0x0, 0, 8⟩
def CAL_CTRL.ALLOW_SHED : Fld := ⟨0x32, 0x0, 0x48, 0x0, 16, 1⟩
def CAL_CTRL.DRIFT_C : Fld := ⟨0x32, 0x0, 0x48, 0x0, 0, 8⟩
def CAL_TPATH.CAPTURES : Fld := ⟨0x32, 0x0, 0x4C, 0x0, 16, 16⟩
def CAL_REF_PS.PS : Fld := ⟨0x32, 0x0, 0x50, 0x0, 0, 32⟩
def CAL_TPATH_RES.USED : Fld := ⟨0x32, 0x0, 0x54, 0x0, 16, 16⟩
def CAL_TPATH_RES.SPREAD_PS : Fld := ⟨0x32, 0x0, 0x54, 0x0, 0, 16⟩
def CAL_STATE.TXB : Fld := ⟨0x32, 0x0, 0x58, 0x0, 24, 8⟩
def CAL_STATE.RXB : Fld := ⟨0x32, 0x0, 0x58, 0x0, 16, 8⟩
def CAL_STATE.DAC : Fld := ⟨0x32, 0x0, 0x58, 0x0, 8, 8⟩
def CAL_STATE.ADC : Fld := ⟨0x32, 0x0, 0x58, 0x0, 0, 8⟩
def CAL_DRIFT.LE : Fld := ⟨0x32, 0x0, 0x5C, 0x0, 0, 8⟩

/-! Registers of R427 -/

def ECC_SUM.LASTING : Fld := ⟨0x60, 0x0, 0x40, 0x0, 16, 16⟩
def ECC_SUM.UNCORR : Fld := ⟨0x60, 0x0, 0x40, 0x0, 0, 16⟩
def ECC_WINDOW.WINDOW_S : Fld := ⟨0x60, 0x0, 0x44, 0x0, 0, 12⟩
def ECC_LOG.REGION : Fld := ⟨0x60, 0x0, 0x48, 0x0, 28, 4⟩
def ECC_LOG.KIND : Fld := ⟨0x60, 0x0, 0x48, 0x0, 20, 4⟩
def ECC_LOG.LANE : Fld := ⟨0x60, 0x0, 0x48, 0x0, 16, 3⟩
def ECC_LOG.UNC : Fld := ⟨0x60, 0x0, 0x48, 0x0, 0, 1⟩
def ECC_LOG_ADDR.OFFSET : Fld := ⟨0x60, 0x0, 0x4C, 0x0, 0, 25⟩
def ECC_DP_DISC.CELLS : Fld := ⟨0x60, 0x0, 0x50, 0x0, 0, 32⟩
def ECC_INJ.GO : Fld := ⟨0x60, 0x0, 0x54, 0x0, 31, 1⟩
def ECC_INJ.BITS : Fld := ⟨0x60, 0x0, 0x54, 0x0, 24, 2⟩
def ECC_INJ.REGION : Fld := ⟨0x60, 0x0, 0x54, 0x0, 16, 4⟩
def ECC_INJ_ADDR.OFFSET : Fld := ⟨0x60, 0x0, 0x58, 0x0, 0, 25⟩
def ECC_LAP_TIME.LAP_US : Fld := ⟨0x60, 0x0, 0x80, 0x4, 0, 32⟩

/-! Registers of R429 -/

def SCB_CTRL.LAP_LIMIT_S : Fld := ⟨0x61, 0x0, 0x40, 0x0, 16, 16⟩
def SCB_CTRL.EN : Fld := ⟨0x61, 0x0, 0x40, 0x0, 0, 10⟩
def SCB_STAT.REGION : Fld := ⟨0x61, 0x0, 0x44, 0x0, 28, 4⟩
def SCB_STAT.OFFSET : Fld := ⟨0x61, 0x0, 0x44, 0x0, 0, 25⟩

/-! Registers of R454 -/

def GLOBAL_FENCE.GNUM : Fld := ⟨0x0, 0x0, 0x80, 0x0, 16, 16⟩
def GLOBAL_FENCE.TO_EDGE_NS : Fld := ⟨0x0, 0x0, 0x80, 0x0, 0, 16⟩
def CHIP_STICKY.EVQ_INTEGRITY : Fld := ⟨0x0, 0x0, 0x84, 0x0, 0, 4⟩

/-! Registers of R472 -/

def CXL_LINK_STAT.UP : Fld := ⟨0x10, 0x0, 0x40, 0x0, 17, 1⟩
def CXL_LINK_STAT.CXL : Fld := ⟨0x10, 0x0, 0x40, 0x0, 16, 1⟩
def CXL_LINK_STAT.HDM_ACTIVE : Fld := ⟨0x10, 0x0, 0x40, 0x0, 15, 1⟩
def CXL_LINK_STAT.WIDTH : Fld := ⟨0x10, 0x0, 0x40, 0x0, 8, 4⟩
def CXL_LINK_STAT.RATE : Fld := ⟨0x10, 0x0, 0x40, 0x0, 0, 3⟩
def CXL_LINK_CNT.RETRAIN : Fld := ⟨0x10, 0x0, 0x44, 0x0, 16, 16⟩
def CXL_LINK_CNT.DOWN : Fld := ⟨0x10, 0x0, 0x44, 0x0, 0, 16⟩
def CXL_POISON_CNT.LINES : Fld := ⟨0x10, 0x0, 0x48, 0x0, 0, 32⟩
def CXL_BAD_ACCESS.COUNT : Fld := ⟨0x10, 0x0, 0x4C, 0x0, 0, 32⟩

/-! Registers of R473 -/

def CXL_SNAP_CTRL.PERIOD_GAL : Fld := ⟨0x12, 0x0, 0x40, 0x0, 12, 20⟩
def CXL_SNAP_CTRL.NOW : Fld := ⟨0x12, 0x0, 0x40, 0x0, 1, 1⟩
def CXL_SNAP_CTRL.EN : Fld := ⟨0x12, 0x0, 0x40, 0x0, 0, 1⟩
def CXL_SNAP_HOLD.HOLD : Fld := ⟨0x12, 0x0, 0x44, 0x0, 0, 4⟩
def CXL_SNAP_STAT.SKIPPED : Fld := ⟨0x12, 0x0, 0x48, 0x0, 16, 16⟩
def CXL_SNAP_STAT.LAST : Fld := ⟨0x12, 0x0, 0x48, 0x0, 0, 2⟩
def CXL_CAP_CTRL.GO : Fld := ⟨0x12, 0x0, 0x4C, 0x0, 31, 1⟩
def CXL_CAP_CTRL.SRC : Fld := ⟨0x12, 0x0, 0x4C, 0x0, 24, 4⟩
def CXL_CAP_CTRL.LE : Fld := ⟨0x12, 0x0, 0x4C, 0x0, 16, 3⟩
def CXL_CAP_CTRL.DSC : Fld := ⟨0x12, 0x0, 0x4C, 0x0, 8, 4⟩
def CXL_CAP_CTRL.DONE : Fld := ⟨0x12, 0x0, 0x4C, 0x0, 1, 1⟩
def CXL_CAP_CTRL.RUN : Fld := ⟨0x12, 0x0, 0x4C, 0x0, 0, 1⟩
def CXL_CAP_LEN.LEN_KIB : Fld := ⟨0x12, 0x0, 0x50, 0x0, 0, 14⟩

/-! Registers of R474 -/

def EVQ_CTRL.HOLDOFF_US : Fld := ⟨0x20, 0x1, 0x40, 0x0, 16, 16⟩
def EVQ_CTRL.EN : Fld := ⟨0x20, 0x1, 0x40, 0x0, 0, 1⟩
def EVQ_WM.LEVEL : Fld := ⟨0x20, 0x1, 0x44, 0x0, 0, 10⟩
def EVQ_WP.WP : Fld := ⟨0x20, 0x1, 0x48, 0x0, 0, 10⟩
def EVQ_RP.RP : Fld := ⟨0x20, 0x1, 0x4C, 0x0, 0, 10⟩
def EVQ_DEPTH.DEPTH : Fld := ⟨0x20, 0x1, 0x50, 0x0, 0, 11⟩
def EVQ_SEQ.EPOCH : Fld := ⟨0x20, 0x1, 0x54, 0x0, 16, 8⟩
def EVQ_SEQ.SEQ : Fld := ⟨0x20, 0x1, 0x54, 0x0, 0, 16⟩
def EVQ_DROP.COUNT : Fld := ⟨0x20, 0x1, 0x58, 0x0, 0, 32⟩
def EVQ_POP.ENTRY : Fld := ⟨0x20, 0x1, 0x60, 0x4, 0, 32⟩

/-! Registers of R476 -/

def DMA_CTRL.RESET : Fld := ⟨0x11, 0x0, 0x40, 0x10, 1, 1⟩
def DMA_CTRL.EN : Fld := ⟨0x11, 0x0, 0x40, 0x10, 0, 1⟩
def DMA_RING.HEAD : Fld := ⟨0x11, 0x0, 0x44, 0x10, 16, 6⟩
def DMA_RING.TAIL : Fld := ⟨0x11, 0x0, 0x44, 0x10, 0, 6⟩
def DMA_STAT.HALT : Fld := ⟨0x11, 0x0, 0x48, 0x10, 31, 1⟩
def DMA_STAT.RUN : Fld := ⟨0x11, 0x0, 0x48, 0x10, 30, 1⟩
def DMA_STAT.CAUSE : Fld := ⟨0x11, 0x0, 0x48, 0x10, 16, 8⟩
def DMA_STAT.CODE : Fld := ⟨0x11, 0x0, 0x48, 0x10, 8, 8⟩
def DMA_STAT.INDEX : Fld := ⟨0x11, 0x0, 0x48, 0x10, 0, 6⟩
def DMA_DONE.COUNT : Fld := ⟨0x11, 0x0, 0x4C, 0x10, 0, 32⟩

/-! Registers of R506 -/

def CHIP_SEAL.SEALED : Fld := ⟨0x0, 0x0, 0x4C, 0x0, 31, 1⟩
def CHIP_SEAL.FAULT : Fld := ⟨0x0, 0x0, 0x4C, 0x0, 30, 1⟩
def CHIP_SEAL.ATTEMPTS : Fld := ⟨0x0, 0x0, 0x4C, 0x0, 24, 2⟩
def CHIP_SEAL.CRC_B : Fld := ⟨0x0, 0x0, 0x4C, 0x0, 17, 1⟩
def CHIP_SEAL.CRC_A : Fld := ⟨0x0, 0x0, 0x4C, 0x0, 16, 1⟩
def CHIP_SEAL.MISMATCH : Fld := ⟨0x0, 0x0, 0x4C, 0x0, 0, 11⟩
def CHIP_RST_CAUSE.RAILS : Fld := ⟨0x0, 0x0, 0x50, 0x0, 8, 7⟩
def CHIP_RST_CAUSE.LAST : Fld := ⟨0x0, 0x0, 0x50, 0x0, 0, 3⟩
def CHIP_RST_CNT.CHIP : Fld := ⟨0x0, 0x0, 0x54, 0x0, 16, 16⟩
def CHIP_RST_CNT.CXL : Fld := ⟨0x0, 0x0, 0x54, 0x0, 0, 16⟩
def CHIP_RST_CMD.OP : Fld := ⟨0x0, 0x0, 0x58, 0x0, 24, 8⟩
def CHIP_RETAIN.RECORD : Fld := ⟨0x0, 0x0, 0x5C, 0x0, 8, 4⟩
def CHIP_RETAIN.VALID : Fld := ⟨0x0, 0x0, 0x5C, 0x0, 0, 1⟩

/-! Registers of R507 -/

def RST_SUPPLY_STAT.WARN : Fld := ⟨0x1, 0x0, 0x40, 0x0, 16, 7⟩
def RST_SUPPLY_STAT.GOOD : Fld := ⟨0x1, 0x0, 0x40, 0x0, 0, 7⟩
def RST_FREEZE.ACTIVE : Fld := ⟨0x1, 0x0, 0x44, 0x0, 31, 1⟩
def RST_FREEZE.LEFT_US : Fld := ⟨0x1, 0x0, 0x44, 0x0, 0, 11⟩
def RST_DIP_CNT.MIN_MV : Fld := ⟨0x1, 0x0, 0x48, 0x4, 16, 16⟩
def RST_DIP_CNT.DIPS : Fld := ⟨0x1, 0x0, 0x48, 0x4, 0, 16⟩
def RST_TEMP.MAX : Fld := ⟨0x1, 0x0, 0x64, 0x0, 16, 16⟩
def RST_TEMP.NOW : Fld := ⟨0x1, 0x0, 0x64, 0x0, 0, 16⟩
def RST_TEMP_WARN.HOT_C : Fld := ⟨0x1, 0x0, 0x68, 0x0, 0, 8⟩

/-! Registers of R510 -/

def CHIP_AVS_CTRL.RAIL : Fld := ⟨0x3, 0x0, 0x4C, 0x0, 0, 4⟩
def CHIP_AVS_STAT.READ_MV : Fld := ⟨0x3, 0x0, 0x50, 0x0, 16, 16⟩
def CHIP_AVS_STAT.FAULT : Fld := ⟨0x3, 0x0, 0x50, 0x0, 1, 1⟩
def CHIP_AVS_STAT.APPLIED : Fld := ⟨0x3, 0x0, 0x50, 0x0, 0, 1⟩
def CHIP_AVS_ERR.ERRORS : Fld := ⟨0x3, 0x0, 0x54, 0x0, 0, 16⟩

/-! Registers of R475 -/

def EVQ_MSIX_EN.EN : Fld := ⟨0x24, 0x0, 0x40, 0x0, 0, 24⟩

end Reg

/-- The register fields of page 0x000, chip identification, seal, reset and fence registers. -/
def rowsChip0 : List FieldRow := [
  ⟨0x40, 0x0, 1, 0, 16, .RO, false, 12800, 0, 65535⟩,  -- CHIP_PART.PART_NUM
  ⟨0x44, 0x0, 1, 4, 4, .RO, false, 11, 0, 15⟩,  -- CHIP_REV.MAJOR
  ⟨0x44, 0x0, 1, 0, 4, .RO, false, 0, 0, 15⟩,  -- CHIP_REV.MINOR
  ⟨0x48, 0x0, 1, 0, 1, .RO, false, 0, 0, 1⟩,  -- CHIP_FEATURE.CIPHER
  ⟨0x80, 0x0, 1, 16, 16, .RO, false, 0, 0, 65535⟩,  -- GLOBAL_FENCE.GNUM
  ⟨0x80, 0x0, 1, 0, 16, .RO, false, 0, 0, 65535⟩,  -- GLOBAL_FENCE.TO_EDGE_NS
  ⟨0x84, 0x0, 1, 0, 4, .W1C, false, 0, 0, 15⟩,  -- CHIP_STICKY.EVQ_INTEGRITY
  ⟨0x4C, 0x0, 1, 31, 1, .RO, false, 0, 0, 1⟩,  -- CHIP_SEAL.SEALED
  ⟨0x4C, 0x0, 1, 30, 1, .RO, false, 0, 0, 1⟩,  -- CHIP_SEAL.FAULT
  ⟨0x4C, 0x0, 1, 24, 2, .RO, false, 0, 0, 3⟩,  -- CHIP_SEAL.ATTEMPTS
  ⟨0x4C, 0x0, 1, 17, 1, .RO, false, 0, 0, 1⟩,  -- CHIP_SEAL.CRC_B
  ⟨0x4C, 0x0, 1, 16, 1, .RO, false, 0, 0, 1⟩,  -- CHIP_SEAL.CRC_A
  ⟨0x4C, 0x0, 1, 0, 11, .RO, false, 2047, 0, 2047⟩,  -- CHIP_SEAL.MISMATCH
  ⟨0x50, 0x0, 1, 8, 7, .RO, false, 0, 0, 127⟩,  -- CHIP_RST_CAUSE.RAILS
  ⟨0x50, 0x0, 1, 0, 3, .RO, false, 1, 0, 7⟩,  -- CHIP_RST_CAUSE.LAST
  ⟨0x54, 0x0, 1, 16, 16, .RO, false, 0, 0, 65535⟩,  -- CHIP_RST_CNT.CHIP
  ⟨0x54, 0x0, 1, 0, 16, .RW, true, 0, 0, 65535⟩,  -- CHIP_RST_CNT.CXL
  ⟨0x58, 0x0, 1, 24, 8, .WO, false, 0, 0, 255⟩,  -- CHIP_RST_CMD.OP
  ⟨0x5C, 0x0, 1, 8, 4, .RO, false, 0, 0, 15⟩,  -- CHIP_RETAIN.RECORD
  ⟨0x5C, 0x0, 1, 0, 1, .RO, false, 0, 0, 1⟩   -- CHIP_RETAIN.VALID
  ]

/-- The register fields of page 0x001, supply and temperature. -/
def rowsRst : List FieldRow := [
  ⟨0x40, 0x0, 1, 16, 7, .RO, false, 0, 0, 127⟩,  -- RST_SUPPLY_STAT.WARN
  ⟨0x40, 0x0, 1, 0, 7, .RO, false, 127, 0, 127⟩,  -- RST_SUPPLY_STAT.GOOD
  ⟨0x44, 0x0, 1, 31, 1, .RO, false, 0, 0, 1⟩,  -- RST_FREEZE.ACTIVE
  ⟨0x44, 0x0, 1, 0, 11, .RO, false, 0, 0, 2047⟩,  -- RST_FREEZE.LEFT_US
  ⟨0x48, 0x4, 7, 16, 16, .RO, false, 0, 0, 65535⟩,  -- RST_DIP_CNT.MIN_MV
  ⟨0x48, 0x4, 7, 0, 16, .RW, true, 0, 0, 65535⟩,  -- RST_DIP_CNT.DIPS
  ⟨0x64, 0x0, 1, 16, 16, .RL, false, 32768, 0, 65535⟩,  -- RST_TEMP.MAX
  ⟨0x64, 0x0, 1, 0, 16, .RL, false, 32768, 0, 65535⟩,  -- RST_TEMP.NOW
  ⟨0x68, 0x0, 1, 0, 8, .RW, false, 115, 60, 130⟩   -- RST_TEMP_WARN.HOT_C
  ]

/-- The register fields of page 0x002, fuse map and pin tables. -/
def rowsFuse : List FieldRow := [
 
  ]

/-- The register fields of page 0x003, VCORE arbiter and AVSBus. -/
def rowsVcore : List FieldRow := [
  ⟨0x40, 0x0, 1, 16, 10, .RO, false, 0, 0, 1023⟩,  -- CHIP_VCORE_FLOOR.FUSE_MV
  ⟨0x40, 0x0, 1, 0, 10, .RW, false, 0, 0, 1023⟩,  -- CHIP_VCORE_FLOOR.FLOOR_MV
  ⟨0x44, 0x0, 1, 16, 4, .RO, false, 15, 0, 15⟩,  -- CHIP_VCORE_NOW.LAST_UP
  ⟨0x44, 0x0, 1, 0, 10, .RO, false, 750, 0, 1023⟩,  -- CHIP_VCORE_NOW.TARGET_MV
  ⟨0x48, 0x0, 1, 8, 5, .RW, false, 5, 1, 20⟩,  -- CHIP_VCORE_STEP.DOWN_MV
  ⟨0x48, 0x0, 1, 0, 5, .RW, false, 5, 1, 20⟩,  -- CHIP_VCORE_STEP.UP_MV
  ⟨0x4C, 0x0, 1, 0, 4, .RW, false, 0, 0, 15⟩,  -- CHIP_AVS_CTRL.RAIL
  ⟨0x50, 0x0, 1, 16, 16, .RO, false, 0, 0, 65535⟩,  -- CHIP_AVS_STAT.READ_MV
  ⟨0x50, 0x0, 1, 1, 1, .RO, false, 0, 0, 1⟩,  -- CHIP_AVS_STAT.FAULT
  ⟨0x50, 0x0, 1, 0, 1, .RO, false, 0, 0, 1⟩,  -- CHIP_AVS_STAT.APPLIED
  ⟨0x54, 0x0, 1, 0, 16, .RW, true, 0, 0, 65535⟩   -- CHIP_AVS_ERR.ERRORS
  ]

/-- The register fields of page 0x004, start-rate limiter. -/
def rowsStart : List FieldRow := [
  ⟨0x40, 0x0, 1, 16, 16, .RW, false, 500, 500, 5000⟩,  -- CHIP_START_CTRL.BANK_GAP_US
  ⟨0x40, 0x0, 1, 0, 3, .RW, false, 2, 1, 4⟩,  -- CHIP_START_CTRL.MAX_RAMPS
  ⟨0x44, 0x0, 1, 8, 1, .RO, false, 0, 0, 1⟩,  -- CHIP_START_STAT.FROZEN
  ⟨0x44, 0x0, 1, 4, 4, .RO, false, 0, 0, 15⟩,  -- CHIP_START_STAT.DEPTH
  ⟨0x44, 0x0, 1, 0, 3, .RO, false, 0, 0, 7⟩,  -- CHIP_START_STAT.RAMPING
  ⟨0x48, 0x4, 8, 16, 16, .RO, false, 0, 0, 65535⟩,  -- CHIP_START_Q.WAIT_MS
  ⟨0x48, 0x4, 8, 8, 1, .RO, false, 0, 0, 1⟩,  -- CHIP_START_Q.VALID
  ⟨0x48, 0x4, 8, 4, 4, .RO, false, 0, 0, 15⟩,  -- CHIP_START_Q.KIND
  ⟨0x48, 0x4, 8, 0, 4, .RO, false, 0, 0, 15⟩   -- CHIP_START_Q.LE
  ]

/-- The register fields of page 0x010, CXL link. -/
def rowsLink : List FieldRow := [
  ⟨0x40, 0x0, 1, 17, 1, .RO, false, 0, 0, 1⟩,  -- CXL_LINK_STAT.UP
  ⟨0x40, 0x0, 1, 16, 1, .RO, false, 0, 0, 1⟩,  -- CXL_LINK_STAT.CXL
  ⟨0x40, 0x0, 1, 15, 1, .RO, false, 0, 0, 1⟩,  -- CXL_LINK_STAT.HDM_ACTIVE
  ⟨0x40, 0x0, 1, 8, 4, .RO, false, 0, 0, 15⟩,  -- CXL_LINK_STAT.WIDTH
  ⟨0x40, 0x0, 1, 0, 3, .RO, false, 0, 0, 7⟩,  -- CXL_LINK_STAT.RATE
  ⟨0x44, 0x0, 1, 16, 16, .RW, true, 0, 0, 65535⟩,  -- CXL_LINK_CNT.RETRAIN
  ⟨0x44, 0x0, 1, 0, 16, .RW, true, 0, 0, 65535⟩,  -- CXL_LINK_CNT.DOWN
  ⟨0x48, 0x0, 1, 0, 32, .RW, true, 0, 0, 4294967295⟩,  -- CXL_POISON_CNT.LINES
  ⟨0x4C, 0x0, 1, 0, 32, .RW, true, 0, 0, 4294967295⟩   -- CXL_BAD_ACCESS.COUNT
  ]

/-- The register fields of page 0x011. -/
def rowsDma : List FieldRow := [
  ⟨0x40, 0x10, 16, 1, 1, .WO, false, 0, 0, 1⟩,  -- DMA_CTRL.RESET
  ⟨0x40, 0x10, 16, 0, 1, .RW, false, 0, 0, 1⟩,  -- DMA_CTRL.EN
  ⟨0x44, 0x10, 16, 16, 6, .RO, false, 0, 0, 63⟩,  -- DMA_RING.HEAD
  ⟨0x44, 0x10, 16, 0, 6, .RW, false, 0, 0, 63⟩,  -- DMA_RING.TAIL
  ⟨0x48, 0x10, 16, 31, 1, .RO, false, 0, 0, 1⟩,  -- DMA_STAT.HALT
  ⟨0x48, 0x10, 16, 30, 1, .RO, false, 0, 0, 1⟩,  -- DMA_STAT.RUN
  ⟨0x48, 0x10, 16, 16, 8, .RO, false, 0, 0, 255⟩,  -- DMA_STAT.CAUSE
  ⟨0x48, 0x10, 16, 8, 8, .RO, false, 0, 0, 255⟩,  -- DMA_STAT.CODE
  ⟨0x48, 0x10, 16, 0, 6, .RO, false, 0, 0, 63⟩,  -- DMA_STAT.INDEX
  ⟨0x4C, 0x10, 16, 0, 32, .RW, true, 0, 0, 4294967295⟩   -- DMA_DONE.COUNT
  ]

/-- The register fields of page 0x012. -/
def rowsHdm : List FieldRow := [
  ⟨0x40, 0x0, 1, 12, 20, .RW, false, 48828, 16, 1000000⟩,  -- CXL_SNAP_CTRL.PERIOD_GAL
  ⟨0x40, 0x0, 1, 1, 1, .WO, false, 0, 0, 1⟩,  -- CXL_SNAP_CTRL.NOW
  ⟨0x40, 0x0, 1, 0, 1, .RW, false, 1, 0, 1⟩,  -- CXL_SNAP_CTRL.EN
  ⟨0x44, 0x0, 1, 0, 4, .RW, false, 0, 0, 15⟩,  -- CXL_SNAP_HOLD.HOLD
  ⟨0x48, 0x0, 1, 16, 16, .RW, true, 0, 0, 65535⟩,  -- CXL_SNAP_STAT.SKIPPED
  ⟨0x48, 0x0, 1, 0, 2, .RO, false, 0, 0, 3⟩,  -- CXL_SNAP_STAT.LAST
  ⟨0x4C, 0x0, 1, 31, 1, .WO, false, 0, 0, 1⟩,  -- CXL_CAP_CTRL.GO
  ⟨0x4C, 0x0, 1, 24, 4, .RW, false, 0, 0, 15⟩,  -- CXL_CAP_CTRL.SRC
  ⟨0x4C, 0x0, 1, 16, 3, .RW, false, 0, 0, 7⟩,  -- CXL_CAP_CTRL.LE
  ⟨0x4C, 0x0, 1, 8, 4, .RW, false, 0, 0, 15⟩,  -- CXL_CAP_CTRL.DSC
  ⟨0x4C, 0x0, 1, 1, 1, .RO, false, 0, 0, 1⟩,  -- CXL_CAP_CTRL.DONE
  ⟨0x4C, 0x0, 1, 0, 1, .RO, false, 0, 0, 1⟩,  -- CXL_CAP_CTRL.RUN
  ⟨0x50, 0x0, 1, 0, 14, .RW, false, 64, 1, 15359⟩   -- CXL_CAP_LEN.LEN_KIB
  ]

/-- The register fields of pages 0x020 to 0x023, event queues. -/
def rowsEvq : List FieldRow := [
  ⟨0x40, 0x0, 1, 16, 16, .RW, false, 10, 0, 65535⟩,  -- EVQ_CTRL.HOLDOFF_US
  ⟨0x40, 0x0, 1, 0, 1, .RW, false, 1, 0, 1⟩,  -- EVQ_CTRL.EN
  ⟨0x44, 0x0, 1, 0, 10, .RW, false, 768, 1, 1022⟩,  -- EVQ_WM.LEVEL
  ⟨0x48, 0x0, 1, 0, 10, .RO, false, 0, 0, 1023⟩,  -- EVQ_WP.WP
  ⟨0x4C, 0x0, 1, 0, 10, .RW, false, 0, 0, 1023⟩,  -- EVQ_RP.RP
  ⟨0x50, 0x0, 1, 0, 11, .RO, false, 0, 0, 2047⟩,  -- EVQ_DEPTH.DEPTH
  ⟨0x54, 0x0, 1, 16, 8, .RO, false, 0, 0, 255⟩,  -- EVQ_SEQ.EPOCH
  ⟨0x54, 0x0, 1, 0, 16, .RO, false, 0, 0, 65535⟩,  -- EVQ_SEQ.SEQ
  ⟨0x58, 0x0, 1, 0, 32, .RW, true, 0, 0, 4294967295⟩,  -- EVQ_DROP.COUNT
  ⟨0x60, 0x4, 4, 0, 32, .RL, false, 0, 0, 4294967295⟩   -- EVQ_POP.ENTRY
  ]

/-- The register fields of page 0x024, event queue common page. -/
def rowsEvqC : List FieldRow := [
  ⟨0x40, 0x0, 1, 0, 24, .RW, false, 12582911, 0, 16777215⟩   -- EVQ_MSIX_EN.EN
  ]

/-- The register fields of page 0x030. -/
def rowsMon : List FieldRow := [
  ⟨0x40, 0x0, 1, 12, 20, .RW, false, 1000, 10, 1000000⟩,  -- MON_SEQ_CTRL.PERIOD_US
  ⟨0x40, 0x0, 1, 11, 1, .WO, false, 0, 0, 1⟩,  -- MON_SEQ_CTRL.GO
  ⟨0x40, 0x0, 1, 8, 3, .RW, false, 0, 0, 7⟩,  -- MON_SEQ_CTRL.TRIG
  ⟨0x40, 0x0, 1, 0, 5, .RW, false, 0, 0, 31⟩,  -- MON_SEQ_CTRL.LAST
  ⟨0x44, 0x0, 1, 8, 5, .RO, false, 0, 0, 31⟩,  -- MON_STAT.ENTRY
  ⟨0x44, 0x0, 1, 3, 1, .RO, false, 0, 0, 1⟩,  -- MON_STAT.CAL
  ⟨0x44, 0x0, 1, 2, 1, .RO, false, 0, 0, 1⟩,  -- MON_STAT.INJ_PEND
  ⟨0x44, 0x0, 1, 1, 1, .RO, false, 0, 0, 1⟩,  -- MON_STAT.RUN
  ⟨0x44, 0x0, 1, 0, 1, .RO, false, 0, 0, 1⟩,  -- MON_STAT.CAL_VALID
  ⟨0x48, 0x0, 1, 31, 1, .RO, false, 0, 0, 1⟩,  -- MON_DATA.VALID
  ⟨0x48, 0x0, 1, 30, 1, .RO, false, 0, 0, 1⟩,  -- MON_DATA.OVR
  ⟨0x48, 0x0, 1, 29, 1, .RO, false, 0, 0, 1⟩,  -- MON_DATA.INJ
  ⟨0x48, 0x0, 1, 28, 1, .RO, false, 0, 0, 1⟩,  -- MON_DATA.TEST
  ⟨0x48, 0x0, 1, 16, 6, .RO, false, 0, 0, 63⟩,  -- MON_DATA.SRC
  ⟨0x48, 0x0, 1, 0, 16, .RO, false, 0, 0, 65535⟩,  -- MON_DATA.CODE
  ⟨0x4C, 0x0, 1, 0, 16, .RW, true, 0, 0, 65535⟩,  -- MON_DATA_OVR.COUNT
  ⟨0x50, 0x0, 1, 0, 16, .RW, true, 0, 0, 65535⟩,  -- MON_TRIG_OVR.COUNT
  ⟨0x54, 0x0, 1, 31, 1, .WO, false, 0, 0, 1⟩,  -- MON_INJ.GO
  ⟨0x54, 0x0, 1, 16, 1, .RO, false, 0, 0, 1⟩,  -- MON_INJ.PEND
  ⟨0x54, 0x0, 1, 8, 2, .RW, false, 0, 0, 3⟩,  -- MON_INJ.GAIN
  ⟨0x54, 0x0, 1, 0, 6, .RW, false, 0, 0, 47⟩,  -- MON_INJ.INPUT
  ⟨0x58, 0x0, 1, 31, 1, .RW, false, 0, 0, 1⟩,  -- MON_TDAC.EN
  ⟨0x58, 0x0, 1, 16, 6, .RW, false, 0, 0, 63⟩,  -- MON_TDAC.INPUT
  ⟨0x58, 0x0, 1, 0, 12, .RW, false, 0, 0, 4095⟩   -- MON_TDAC.VALUE
  ]

/-- The register fields of page 0x031, detectors. -/
def rowsDet : List FieldRow := [
 
  ]

/-- The register fields of page 0x032. -/
def rowsCal : List FieldRow := [
  ⟨0x40, 0x0, 1, 24, 8, .WO, false, 0, 0, 255⟩,  -- CAL_CMD.OP
  ⟨0x40, 0x0, 1, 8, 4, .WO, false, 0, 0, 15⟩,  -- CAL_CMD.KIND
  ⟨0x40, 0x0, 1, 0, 3, .WO, false, 0, 0, 7⟩,  -- CAL_CMD.LE
  ⟨0x44, 0x0, 1, 31, 1, .RO, false, 0, 0, 1⟩,  -- CAL_CMD_STAT.BUSY
  ⟨0x44, 0x0, 1, 24, 4, .RO, false, 0, 0, 15⟩,  -- CAL_CMD_STAT.KIND
  ⟨0x44, 0x0, 1, 20, 3, .RO, false, 0, 0, 7⟩,  -- CAL_CMD_STAT.LE
  ⟨0x44, 0x0, 1, 16, 3, .RO, false, 0, 0, 7⟩,  -- CAL_CMD_STAT.PHASE
  ⟨0x44, 0x0, 1, 8, 8, .RO, false, 0, 0, 255⟩,  -- CAL_CMD_STAT.DETAIL
  ⟨0x44, 0x0, 1, 0, 8, .RO, false, 0, 0, 255⟩,  -- CAL_CMD_STAT.RESULT
  ⟨0x48, 0x0, 1, 16, 1, .RW, false, 0, 0, 1⟩,  -- CAL_CTRL.ALLOW_SHED
  ⟨0x48, 0x0, 1, 0, 8, .RW, false, 20, 5, 100⟩,  -- CAL_CTRL.DRIFT_C
  ⟨0x4C, 0x0, 1, 16, 16, .RW, false, 1024, 16, 65535⟩,  -- CAL_TPATH.CAPTURES
  ⟨0x50, 0x0, 1, 0, 32, .RW, false, 0, 0, 4294967295⟩,  -- CAL_REF_PS.PS
  ⟨0x54, 0x0, 1, 16, 16, .RO, false, 0, 0, 65535⟩,  -- CAL_TPATH_RES.USED
  ⟨0x54, 0x0, 1, 0, 16, .RO, false, 0, 0, 65535⟩,  -- CAL_TPATH_RES.SPREAD_PS
  ⟨0x58, 0x0, 1, 24, 8, .RO, false, 0, 0, 255⟩,  -- CAL_STATE.TXB
  ⟨0x58, 0x0, 1, 16, 8, .RO, false, 0, 0, 255⟩,  -- CAL_STATE.RXB
  ⟨0x58, 0x0, 1, 8, 8, .RO, false, 0, 0, 255⟩,  -- CAL_STATE.DAC
  ⟨0x58, 0x0, 1, 0, 8, .RO, false, 0, 0, 255⟩,  -- CAL_STATE.ADC
  ⟨0x5C, 0x0, 1, 0, 8, .RO, false, 0, 0, 255⟩   -- CAL_DRIFT.LE
  ]

/-- The register fields of page 0x040, control. -/
def rowsTymC : List FieldRow := [
  ⟨0x40, 0x0, 1, 0, 2, .RW, false, 0, 0, 3⟩,  -- TYM_CTRL.SRC
  ⟨0x44, 0x0, 1, 24, 8, .RO, false, 0, 0, 255⟩,  -- TYM_STAT.STEP_EPOCH
  ⟨0x44, 0x0, 1, 16, 8, .RO, false, 0, 0, 255⟩,  -- TYM_STAT.PEER_EPOCH
  ⟨0x44, 0x0, 1, 10, 2, .RO, false, 0, 0, 3⟩,  -- TYM_STAT.PEER_SRC
  ⟨0x44, 0x0, 1, 8, 2, .RO, false, 0, 0, 3⟩,  -- TYM_STAT.PEER_STATE
  ⟨0x44, 0x0, 1, 7, 1, .RO, false, 0, 0, 1⟩,  -- TYM_STAT.STEP_PEND
  ⟨0x44, 0x0, 1, 6, 1, .RO, false, 0, 0, 1⟩,  -- TYM_STAT.ROLE_CONFLICT
  ⟨0x44, 0x0, 1, 5, 1, .RO, false, 0, 0, 1⟩,  -- TYM_STAT.SRC_VALID
  ⟨0x44, 0x0, 1, 0, 2, .RO, false, 0, 0, 3⟩,  -- TYM_STAT.STATE
  ⟨0x48, 0x0, 1, 0, 32, .RW, false, 0, 0, 4294967295⟩,  -- TYM_INCR_LO.INCR_LO
  ⟨0x4C, 0x0, 1, 0, 6, .RW, false, 32, 0, 63⟩,  -- TYM_INCR_HI.INCR_HI
  ⟨0x50, 0x0, 1, 0, 32, .RO, false, 0, 0, 4294967295⟩,  -- TYM_FREQ.PPB
  ⟨0x54, 0x0, 1, 16, 16, .RW, false, 1000, 100, 65535⟩,  -- TYM_SERVO.STEP_NS
  ⟨0x54, 0x0, 1, 8, 8, .RW, false, 5, 1, 100⟩,  -- TYM_SERVO.BW
  ⟨0x54, 0x0, 1, 0, 8, .RW, false, 10, 1, 200⟩,  -- TYM_SERVO.SLEW_PPM
  ⟨0x58, 0x0, 1, 0, 16, .RW, false, 1000, 100, 65535⟩,  -- TYM_LOCK.LOCK_PS
  ⟨0x5C, 0x0, 1, 16, 16, .RW, false, 1440, 1, 65535⟩,  -- TYM_HOLD.LIMIT_MIN
  ⟨0x5C, 0x0, 1, 0, 12, .RW, false, 300, 10, 3600⟩,  -- TYM_HOLD.AVG_S
  ⟨0x60, 0x0, 1, 0, 32, .RL, false, 0, 0, 4294967295⟩,  -- TYM_OFS.PS
  ⟨0x64, 0x0, 1, 0, 32, .RO, false, 0, 0, 4294967295⟩   -- TYM_HOLD_STAT.HOLD_S
  ]

/-- The register fields of page 0x041, time. -/
def rowsTymT : List FieldRow := [
  ⟨0x40, 0x0, 1, 0, 32, .RL, false, 0, 0, 4294967295⟩,  -- TYM_NOW_SEC_LO.SEC_LO
  ⟨0x44, 0x0, 1, 0, 16, .RL, false, 0, 0, 65535⟩,  -- TYM_NOW_SEC_HI.SEC_HI
  ⟨0x48, 0x0, 1, 0, 30, .RL, false, 0, 0, 1073741823⟩,  -- TYM_NOW_NS.NS
  ⟨0x4C, 0x0, 1, 0, 16, .RL, false, 0, 0, 65535⟩,  -- TYM_NOW_FRAC.FRAC
  ⟨0x50, 0x0, 1, 0, 32, .RW, false, 0, 0, 4294967295⟩,  -- TYM_ADJ_SEC_LO.SEC_LO
  ⟨0x54, 0x0, 1, 31, 1, .RW, false, 0, 0, 1⟩,  -- TYM_ADJ_SEC_HI.SIGN
  ⟨0x54, 0x0, 1, 0, 16, .RW, false, 0, 0, 65535⟩,  -- TYM_ADJ_SEC_HI.SEC_HI
  ⟨0x58, 0x0, 1, 0, 30, .RW, false, 0, 0, 999999999⟩,  -- TYM_ADJ_NS.NS
  ⟨0x5C, 0x0, 1, 8, 1, .RO, false, 0, 0, 1⟩,  -- TYM_ADJ_CMD.PEND
  ⟨0x5C, 0x0, 1, 0, 2, .WO, false, 0, 0, 3⟩,  -- TYM_ADJ_CMD.CMD
  ⟨0x60, 0x0, 1, 0, 32, .RO, false, 0, 0, 4294967295⟩,  -- TYM_STEP_GNUM.GNUM
  ⟨0x64, 0x0, 1, 8, 3, .RW, false, 0, 0, 7⟩,  -- TYM_EXT_CTRL.BAUD
  ⟨0x64, 0x0, 1, 4, 1, .RW, false, 0, 0, 1⟩,  -- TYM_EXT_CTRL.REFERS
  ⟨0x64, 0x0, 1, 2, 1, .RW, false, 0, 0, 1⟩,  -- TYM_EXT_CTRL.F10_EN
  ⟨0x64, 0x0, 1, 1, 1, .RW, false, 1, 0, 1⟩,  -- TYM_EXT_CTRL.TOD_EN
  ⟨0x64, 0x0, 1, 0, 1, .RW, false, 0, 0, 1⟩,  -- TYM_EXT_CTRL.PPS_POL
  ⟨0x68, 0x0, 1, 0, 32, .RW, false, 0, 0, 10000000⟩,  -- TYM_PPS_IN_DLY.PS
  ⟨0x6C, 0x0, 1, 0, 32, .RL, false, 0, 0, 4294967295⟩,  -- TYM_PPS_IN_CAP_SEC_LO.SEC_LO
  ⟨0x70, 0x0, 1, 0, 16, .RL, false, 0, 0, 65535⟩,  -- TYM_PPS_IN_CAP_SEC_HI.SEC_HI
  ⟨0x74, 0x0, 1, 0, 30, .RL, false, 0, 0, 1073741823⟩,  -- TYM_PPS_IN_CAP_NS.NS
  ⟨0x78, 0x0, 1, 0, 16, .RL, false, 0, 0, 65535⟩,  -- TYM_PPS_IN_CAP_FRAC.FRAC
  ⟨0x7C, 0x0, 1, 16, 16, .RW, true, 0, 0, 65535⟩,  -- TYM_PPS_IN_STAT.FAULTS
  ⟨0x7C, 0x0, 1, 8, 8, .RW, true, 0, 0, 255⟩,  -- TYM_PPS_IN_STAT.TOD_ERR
  ⟨0x7C, 0x0, 1, 2, 1, .RO, false, 0, 0, 1⟩,  -- TYM_PPS_IN_STAT.TOD_OK
  ⟨0x7C, 0x0, 1, 1, 1, .RO, false, 0, 0, 1⟩,  -- TYM_PPS_IN_STAT.F10_OK
  ⟨0x7C, 0x0, 1, 0, 1, .RO, false, 0, 0, 1⟩,  -- TYM_PPS_IN_STAT.PPS_OK
  ⟨0x80, 0x0, 1, 0, 32, .RL, false, 0, 0, 4294967295⟩,  -- TYM_TCAL_CAP_SEC_LO.SEC_LO
  ⟨0x84, 0x0, 1, 0, 16, .RL, false, 0, 0, 65535⟩,  -- TYM_TCAL_CAP_SEC_HI.SEC_HI
  ⟨0x88, 0x0, 1, 0, 30, .RL, false, 0, 0, 1073741823⟩,  -- TYM_TCAL_CAP_NS.NS
  ⟨0x8C, 0x0, 1, 0, 16, .RL, false, 0, 0, 65535⟩,  -- TYM_TCAL_CAP_FRAC.FRAC
  ⟨0x90, 0x0, 1, 16, 16, .RW, true, 0, 0, 65535⟩,  -- TYM_TCAL_CNT.LOST
  ⟨0x90, 0x0, 1, 0, 16, .RW, true, 0, 0, 65535⟩,  -- TYM_TCAL_CNT.EDGES
  ⟨0x94, 0x0, 1, 8, 1, .RW, false, 1, 0, 1⟩,  -- TYM_OUT_CTRL.SQUELCH
  ⟨0x94, 0x0, 1, 3, 1, .RW, false, 0, 0, 1⟩,  -- TYM_OUT_CTRL.TOD
  ⟨0x94, 0x0, 1, 2, 1, .RW, false, 0, 0, 1⟩,  -- TYM_OUT_CTRL.F10
  ⟨0x94, 0x0, 1, 1, 1, .RW, false, 0, 0, 1⟩,  -- TYM_OUT_CTRL.PPS1
  ⟨0x94, 0x0, 1, 0, 1, .RW, false, 0, 0, 1⟩,  -- TYM_OUT_CTRL.PPS0
  ⟨0x98, 0x0, 1, 0, 32, .RW, false, 0, 0, 4294967295⟩,  -- TYM_PPS_OUT0_OFS.OFS_PS
  ⟨0x9C, 0x0, 1, 0, 19, .RW, false, 100000, 1, 500000⟩,  -- TYM_PPS_OUT0_W.WIDTH_US
  ⟨0xA0, 0x0, 1, 0, 32, .RW, false, 0, 0, 4294967295⟩,  -- TYM_PPS_OUT1_OFS.OFS_PS
  ⟨0xA4, 0x0, 1, 0, 19, .RW, false, 100000, 1, 500000⟩,  -- TYM_PPS_OUT1_W.WIDTH_US
  ⟨0xA8, 0x0, 1, 17, 1, .RW, false, 0, 0, 1⟩,  -- TYM_UTC.LEAP59
  ⟨0xA8, 0x0, 1, 16, 1, .RW, false, 0, 0, 1⟩,  -- TYM_UTC.LEAP61
  ⟨0xA8, 0x0, 1, 0, 16, .RW, false, 0, 0, 65535⟩   -- TYM_UTC.UTC_OFS
  ]

/-- The register fields of page 0x042, span. -/
def rowsTymS : List FieldRow := [
  ⟨0x40, 0x0, 1, 16, 16, .RW, false, 1000, 100, 60000⟩,  -- TYM_SPAN_CTRL.LOSS_MS
  ⟨0x40, 0x0, 1, 0, 16, .RW, false, 500, 50, 10000⟩,  -- TYM_SPAN_CTRL.REJECT_PS
  ⟨0x44, 0x0, 1, 24, 8, .RO, false, 0, 0, 255⟩,  -- TYM_SPAN_STAT.CONTRIB
  ⟨0x44, 0x0, 1, 16, 8, .RO, false, 0, 0, 255⟩,  -- TYM_SPAN_STAT.REJECTED
  ⟨0x44, 0x0, 1, 2, 1, .RO, false, 0, 0, 1⟩,  -- TYM_SPAN_STAT.ASYM_STALE
  ⟨0x44, 0x0, 1, 1, 1, .RO, false, 0, 0, 1⟩,  -- TYM_SPAN_STAT.FIT_VALID
  ⟨0x44, 0x0, 1, 0, 1, .RO, false, 0, 0, 1⟩,  -- TYM_SPAN_STAT.VALID
  ⟨0x48, 0x0, 1, 0, 32, .RL, false, 0, 0, 4294967295⟩,  -- TYM_SPAN_OFS_LO.THETA
  ⟨0x4C, 0x0, 1, 0, 32, .RL, false, 2147483648, 0, 4294967295⟩,  -- TYM_SPAN_OFS_HI.THETA
  ⟨0x50, 0x0, 1, 0, 32, .RL, false, 0, 0, 4294967295⟩,  -- TYM_SPAN_RATE.PPB
  ⟨0x54, 0x0, 1, 0, 32, .RL, false, 0, 0, 4294967295⟩,  -- TYM_SPAN_MPD_LO.MPD
  ⟨0x58, 0x0, 1, 0, 32, .RL, false, 0, 0, 4294967295⟩,  -- TYM_SPAN_MPD_HI.MPD
  ⟨0x5C, 0x0, 1, 0, 32, .RW, false, 0, 0, 4294967295⟩,  -- TYM_ASYM_USER.PS
  ⟨0x60, 0x0, 1, 16, 12, .RW, false, 600, 10, 3600⟩,  -- TYM_ASYM_CTRL.AVG_S
  ⟨0x60, 0x0, 1, 0, 2, .RW, false, 1, 1, 2⟩,  -- TYM_ASYM_CTRL.ORDER
  ⟨0x64, 0x0, 1, 0, 32, .RO, false, 0, 0, 4294967295⟩,  -- TYM_ASYM_PEER.PS
  ⟨0x68, 0x0, 1, 0, 32, .RO, false, 0, 0, 4294967295⟩,  -- TYM_FIT_C0.C0
  ⟨0x6C, 0x0, 1, 0, 32, .RO, false, 0, 0, 4294967295⟩,  -- TYM_FIT_C1.C1
  ⟨0x70, 0x0, 1, 0, 32, .RO, false, 0, 0, 4294967295⟩   -- TYM_FIT_C2.C2
  ]

/-- The register fields of page 0x043, transparent clock. -/
def rowsTymX : List FieldRow := [
  ⟨0x40, 0x0, 1, 0, 1, .RW, false, 1, 0, 1⟩,  -- TYM_TC_CTRL.EN
  ⟨0x44, 0x0, 1, 0, 32, .RL, false, 0, 0, 4294967295⟩,  -- TYM_TC_CORR_LO.CORR
  ⟨0x48, 0x0, 1, 0, 32, .RL, false, 0, 0, 4294967295⟩,  -- TYM_TC_CORR_HI.CORR
  ⟨0x4C, 0x0, 1, 16, 16, .RW, true, 0, 0, 65535⟩,  -- TYM_TC_DISC.NO_OFFSET
  ⟨0x4C, 0x0, 1, 8, 8, .RW, true, 0, 0, 255⟩,  -- TYM_TC_DISC.STEP
  ⟨0x4C, 0x0, 1, 0, 8, .RW, true, 0, 0, 255⟩,  -- TYM_TC_DISC.RANGE
  ⟨0x50, 0x0, 1, 0, 32, .RW, true, 0, 0, 4294967295⟩,  -- TYM_TC_UNPARSED.FRAMES
  ⟨0x54, 0x0, 1, 0, 32, .RL, false, 0, 0, 4294967295⟩   -- TYM_TC_LAST.RES
  ]

/-- The register fields of page 0x050. -/
def rowsCar : List FieldRow := [
  ⟨0x40, 0x0, 1, 24, 8, .WO, false, 0, 0, 255⟩,  -- CAR_CMD.OP
  ⟨0x40, 0x0, 1, 0, 12, .WO, false, 0, 0, 4095⟩,  -- CAR_CMD.ARG
  ⟨0x44, 0x0, 1, 31, 1, .RO, false, 0, 0, 1⟩,  -- CAR_CMD_STAT.BUSY
  ⟨0x44, 0x0, 1, 24, 4, .RO, false, 0, 0, 15⟩,  -- CAR_CMD_STAT.OP
  ⟨0x44, 0x0, 1, 16, 8, .RO, false, 0, 0, 255⟩,  -- CAR_CMD_STAT.DETAIL
  ⟨0x44, 0x0, 1, 0, 8, .RO, false, 0, 0, 255⟩,  -- CAR_CMD_STAT.RESULT
  ⟨0x48, 0x0, 1, 0, 32, .RL, false, 0, 0, 4294967295⟩,  -- CAR_NONCE_LO.NONCE
  ⟨0x4C, 0x0, 1, 0, 32, .RL, false, 0, 0, 4294967295⟩,  -- CAR_NONCE_HI.NONCE
  ⟨0x50, 0x0, 1, 16, 1, .RO, false, 0, 0, 1⟩,  -- CAR_ALARM.LOCK
  ⟨0x50, 0x0, 1, 0, 7, .RO, false, 0, 0, 127⟩,  -- CAR_ALARM.CAUSE
  ⟨0x54, 0x0, 1, 0, 16, .RW, true, 0, 0, 65535⟩,  -- CAR_ALARM_CNT.ZEROISE
  ⟨0x58, 0x0, 1, 0, 6, .RW, false, 40, 24, 63⟩,  -- CAR_CEIL.CEIL_EXP
  ⟨0x5C, 0x0, 1, 16, 13, .RO, false, 0, 0, 8191⟩,  -- CAR_SLOT_CNT.ACTIVE
  ⟨0x5C, 0x0, 1, 0, 13, .RO, false, 0, 0, 8191⟩,  -- CAR_SLOT_CNT.READY
  ⟨0x60, 0x0, 1, 2, 1, .RO, false, 0, 0, 1⟩,  -- CAR_PEER.PEER_PAIRED
  ⟨0x60, 0x0, 1, 1, 1, .RO, false, 0, 0, 1⟩,  -- CAR_PEER.PEER_CIPHER
  ⟨0x60, 0x0, 1, 0, 1, .RO, false, 0, 0, 1⟩   -- CAR_PEER.PAIRED
  ]

/-- The register fields of page 0x051. -/
def rowsCyp : List FieldRow := [
  ⟨0x40, 0x0, 1, 1, 1, .RO, false, 0, 0, 1⟩,  -- CYP_STAT.PEER_ALARM
  ⟨0x40, 0x0, 1, 0, 1, .RO, false, 0, 0, 1⟩,  -- CYP_STAT.CIPHER
  ⟨0x44, 0x0, 1, 0, 16, .RW, true, 0, 0, 65535⟩,  -- CYP_CKPT_CNT.RESYNC
  ⟨0x48, 0x4, 32, 0, 32, .RO, false, 0, 0, 4294967295⟩   -- CYP_EXH_SUM.FLOWS
  ]

/-- The register fields of page 0x052. -/
def rowsTrust : List FieldRow := [
  ⟨0x40, 0x0, 1, 1, 1, .RO, false, 0, 0, 1⟩,  -- CAR_ID_STAT.FAULT
  ⟨0x40, 0x0, 1, 0, 1, .RO, false, 0, 0, 1⟩,  -- CAR_ID_STAT.READY
  ⟨0x44, 0x0, 1, 24, 8, .WO, false, 0, 0, 255⟩,  -- CAR_TRUST_CMD.OP
  ⟨0x48, 0x0, 1, 31, 1, .RO, false, 0, 0, 1⟩,  -- CAR_TRUST_STAT.BUSY
  ⟨0x48, 0x0, 1, 16, 8, .RO, false, 0, 0, 255⟩,  -- CAR_TRUST_STAT.DETAIL
  ⟨0x48, 0x0, 1, 11, 1, .RO, false, 0, 0, 1⟩,  -- CAR_TRUST_STAT.CONFIRMED
  ⟨0x48, 0x0, 1, 10, 1, .RO, false, 0, 0, 1⟩,  -- CAR_TRUST_STAT.PAIRED
  ⟨0x48, 0x0, 1, 9, 1, .RO, false, 0, 0, 1⟩,  -- CAR_TRUST_STAT.ANCHOR_FUSED
  ⟨0x48, 0x0, 1, 8, 1, .RO, false, 0, 0, 1⟩,  -- CAR_TRUST_STAT.ANCHOR_SET
  ⟨0x48, 0x0, 1, 0, 8, .RO, false, 0, 0, 255⟩   -- CAR_TRUST_STAT.RESULT
  ]

/-- The register fields of page 0x053. -/
def rowsMcu : List FieldRow := [
  ⟨0x40, 0x0, 1, 16, 4, .RO, false, 0, 0, 15⟩,  -- MCU_LIFECYCLE.REVOKED
  ⟨0x40, 0x0, 1, 8, 7, .RO, false, 0, 0, 127⟩,  -- MCU_LIFECYCLE.MIN_SVN
  ⟨0x40, 0x0, 1, 0, 2, .RO, false, 0, 0, 3⟩,  -- MCU_LIFECYCLE.STATE
  ⟨0x44, 0x0, 1, 28, 4, .RO, false, 0, 0, 15⟩,  -- MCU_BOOT_STAT.FAIL_HOST
  ⟨0x44, 0x0, 1, 24, 4, .RO, false, 0, 0, 15⟩,  -- MCU_BOOT_STAT.FAIL_B
  ⟨0x44, 0x0, 1, 20, 4, .RO, false, 0, 0, 15⟩,  -- MCU_BOOT_STAT.FAIL_A
  ⟨0x44, 0x0, 1, 4, 2, .RO, false, 0, 0, 3⟩,  -- MCU_BOOT_STAT.SOURCE
  ⟨0x44, 0x0, 1, 0, 2, .RO, false, 0, 0, 3⟩,  -- MCU_BOOT_STAT.STATE
  ⟨0x48, 0x0, 1, 0, 32, .RO, false, 0, 0, 4294967295⟩,  -- MCU_FW_SVN.SVN
  ⟨0x4C, 0x0, 1, 0, 32, .RO, false, 0, 0, 4294967295⟩,  -- MCU_FW_VERSION.VERSION
  ⟨0x50, 0x0, 1, 24, 8, .WO, false, 0, 0, 255⟩,  -- MCU_BOOT_CMD.OP
  ⟨0x50, 0x0, 1, 0, 13, .WO, false, 0, 0, 8191⟩,  -- MCU_BOOT_CMD.LEN_KIB
  ⟨0x54, 0x0, 1, 0, 16, .RO, false, 0, 0, 65535⟩   -- MCU_BOOT_TIME.MS
  ]

/-- The register fields of page 0x060. -/
def rowsEcc : List FieldRow := [
  ⟨0x40, 0x0, 1, 16, 16, .W1C, false, 0, 0, 65535⟩,  -- ECC_SUM.LASTING
  ⟨0x40, 0x0, 1, 0, 16, .W1C, false, 0, 0, 65535⟩,  -- ECC_SUM.UNCORR
  ⟨0x44, 0x0, 1, 0, 12, .RW, false, 10, 1, 3600⟩,  -- ECC_WINDOW.WINDOW_S
  ⟨0x48, 0x0, 1, 28, 4, .RL, false, 0, 0, 15⟩,  -- ECC_LOG.REGION
  ⟨0x48, 0x0, 1, 20, 4, .RL, false, 0, 0, 15⟩,  -- ECC_LOG.KIND
  ⟨0x48, 0x0, 1, 16, 3, .RL, false, 0, 0, 7⟩,  -- ECC_LOG.LANE
  ⟨0x48, 0x0, 1, 0, 1, .RL, false, 0, 0, 1⟩,  -- ECC_LOG.UNC
  ⟨0x4C, 0x0, 1, 0, 25, .RL, false, 0, 0, 33554431⟩,  -- ECC_LOG_ADDR.OFFSET
  ⟨0x50, 0x0, 1, 0, 32, .RW, true, 0, 0, 4294967295⟩,  -- ECC_DP_DISC.CELLS
  ⟨0x54, 0x0, 1, 31, 1, .WO, false, 0, 0, 1⟩,  -- ECC_INJ.GO
  ⟨0x54, 0x0, 1, 24, 2, .RW, false, 1, 0, 3⟩,  -- ECC_INJ.BITS
  ⟨0x54, 0x0, 1, 16, 4, .RW, false, 0, 0, 15⟩,  -- ECC_INJ.REGION
  ⟨0x58, 0x0, 1, 0, 25, .RW, false, 0, 0, 33554431⟩,  -- ECC_INJ_ADDR.OFFSET
  ⟨0x80, 0x4, 16, 0, 32, .RO, false, 0, 0, 4294967295⟩   -- ECC_LAP_TIME.LAP_US
  ]

/-- The register fields of page 0x061. -/
def rowsScb : List FieldRow := [
  ⟨0x40, 0x0, 1, 16, 16, .RW, false, 60, 1, 65535⟩,  -- SCB_CTRL.LAP_LIMIT_S
  ⟨0x40, 0x0, 1, 0, 10, .RW, false, 1023, 0, 1023⟩,  -- SCB_CTRL.EN
  ⟨0x44, 0x0, 1, 28, 4, .RO, false, 0, 0, 15⟩,  -- SCB_STAT.REGION
  ⟨0x44, 0x0, 1, 0, 25, .RO, false, 0, 0, 33554431⟩   -- SCB_STAT.OFFSET
  ]

/-- The register fields of lane group page 0x080 + 8g. -/
def rowsHlnG : List FieldRow := [
  ⟨0x40, 0x0, 1, 24, 8, .RW, false, 255, 0, 255⟩,  -- HLN_GRP_CTRL.LANE_EN
  ⟨0x40, 0x0, 1, 4, 1, .WO, false, 0, 0, 1⟩,  -- HLN_GRP_CTRL.REJOIN
  ⟨0x40, 0x0, 1, 3, 1, .RW, false, 1, 0, 1⟩,  -- HLN_GRP_CTRL.AUTO_REJOIN
  ⟨0x40, 0x0, 1, 2, 1, .RW, false, 1, 0, 1⟩,  -- HLN_GRP_CTRL.MIN7
  ⟨0x40, 0x0, 1, 1, 1, .WO, false, 0, 0, 1⟩,  -- HLN_GRP_CTRL.RETRAIN
  ⟨0x40, 0x0, 1, 0, 1, .RW, false, 0, 0, 1⟩,  -- HLN_GRP_CTRL.EN
  ⟨0x44, 0x0, 1, 24, 8, .RO, false, 0, 0, 255⟩,  -- HLN_GRP_STAT.LANES
  ⟨0x44, 0x0, 1, 16, 8, .RO, false, 0, 0, 255⟩,  -- HLN_GRP_STAT.HEALTH
  ⟨0x44, 0x0, 1, 8, 8, .RO, false, 0, 0, 255⟩,  -- HLN_GRP_STAT.PEER_HEALTH
  ⟨0x44, 0x0, 1, 4, 2, .RO, false, 0, 0, 3⟩,  -- HLN_GRP_STAT.SW
  ⟨0x44, 0x0, 1, 0, 3, .RO, false, 0, 0, 7⟩,  -- HLN_GRP_STAT.GSTATE
  ⟨0x48, 0x0, 1, 0, 32, .RO, false, 0, 0, 4294967295⟩,  -- HLN_GRP_BNUM.BNUM
  ⟨0x4C, 0x0, 1, 16, 7, .RO, false, 0, 0, 127⟩,  -- HLN_GRP_CAP.CAP
  ⟨0x4C, 0x0, 1, 8, 7, .RO, false, 0, 0, 127⟩,  -- HLN_GRP_CAP.USED
  ⟨0x4C, 0x0, 1, 0, 7, .RO, false, 0, 0, 127⟩,  -- HLN_GRP_CAP.SHED
  ⟨0x50, 0x0, 1, 16, 16, .RW, true, 0, 0, 65535⟩,  -- HLN_GRP_CNT.RESTRIPE
  ⟨0x50, 0x0, 1, 0, 16, .RW, true, 0, 0, 65535⟩,  -- HLN_GRP_CNT.DOWN
  ⟨0x54, 0x0, 1, 16, 16, .RW, true, 0, 0, 65535⟩,  -- HLN_CELL_DISC.HCRC
  ⟨0x54, 0x0, 1, 0, 16, .RW, true, 0, 0, 65535⟩,  -- HLN_CELL_DISC.POLICED
  ⟨0x58, 0x0, 1, 0, 32, .RL, false, 0, 0, 4294967295⟩,  -- HLN_RS_CW_LO.CW
  ⟨0x5C, 0x0, 1, 0, 32, .RL, false, 0, 0, 4294967295⟩,  -- HLN_RS_CW_HI.CW
  ⟨0x60, 0x0, 1, 0, 32, .RL, false, 0, 0, 4294967295⟩,  -- HLN_RS_SYM_LO.SYM
  ⟨0x64, 0x0, 1, 0, 32, .RL, false, 0, 0, 4294967295⟩,  -- HLN_RS_SYM_HI.SYM
  ⟨0x68, 0x0, 1, 0, 32, .RL, false, 0, 0, 4294967295⟩,  -- HLN_RS_UNC.UNC
  ⟨0x6C, 0x0, 1, 16, 16, .RW, false, 1750, 1000, 3000⟩,  -- HLN_GRP_TRAIN.SNR_MIN
  ⟨0x6C, 0x0, 1, 0, 8, .RW, false, 128, 0, 255⟩,  -- HLN_GRP_TRAIN.PRE_TAP
  ⟨0x70, 0x0, 1, 16, 16, .RL, false, 0, 0, 65535⟩,  -- HLN_GRP_EB.RX_FILL
  ⟨0x70, 0x0, 1, 0, 16, .RL, false, 0, 0, 65535⟩   -- HLN_GRP_EB.TX_FILL
  ]

/-- The register fields of lane page 0x081 + 8g. -/
def rowsHlnL : List FieldRow := [
  ⟨0x40, 0x20, 8, 16, 1, .RO, false, 0, 0, 1⟩,  -- HLN_LANE_CTRL.PRBS_LOCK
  ⟨0x40, 0x20, 8, 8, 2, .RW, false, 0, 0, 3⟩,  -- HLN_LANE_CTRL.PRECODE
  ⟨0x40, 0x20, 8, 0, 3, .RW, false, 0, 0, 7⟩,  -- HLN_LANE_CTRL.TEST
  ⟨0x44, 0x20, 8, 16, 16, .RO, false, 0, 0, 65535⟩,  -- HLN_LANE_STAT.SNR
  ⟨0x44, 0x20, 8, 15, 1, .RO, false, 0, 0, 1⟩,  -- HLN_LANE_STAT.HEALTH
  ⟨0x44, 0x20, 8, 14, 1, .RO, false, 0, 0, 1⟩,  -- HLN_LANE_STAT.SIG
  ⟨0x44, 0x20, 8, 13, 1, .RO, false, 0, 0, 1⟩,  -- HLN_LANE_STAT.INV
  ⟨0x44, 0x20, 8, 12, 1, .RO, false, 0, 0, 1⟩,  -- HLN_LANE_STAT.PRE_TX
  ⟨0x44, 0x20, 8, 11, 1, .RO, false, 0, 0, 1⟩,  -- HLN_LANE_STAT.PRE_RX
  ⟨0x44, 0x20, 8, 8, 3, .RO, false, 0, 0, 7⟩,  -- HLN_LANE_STAT.RX_PHYS
  ⟨0x44, 0x20, 8, 7, 1, .RO, false, 0, 0, 1⟩,  -- HLN_LANE_STAT.BOUND
  ⟨0x44, 0x20, 8, 0, 4, .RO, false, 6, 0, 15⟩,  -- HLN_LANE_STAT.STATE
  ⟨0x48, 0x20, 8, 16, 16, .RW, true, 0, 0, 65535⟩,  -- HLN_LANE_TRY.LOSSES
  ⟨0x48, 0x20, 8, 0, 16, .RW, true, 0, 0, 65535⟩,  -- HLN_LANE_TRY.ATTEMPTS
  ⟨0x4C, 0x20, 8, 16, 3, .RO, false, 0, 0, 7⟩,  -- HLN_LANE_BACKOFF.LAST_FAIL
  ⟨0x4C, 0x20, 8, 0, 13, .RO, false, 0, 0, 8191⟩,  -- HLN_LANE_BACKOFF.BACKOFF_MS
  ⟨0x50, 0x20, 8, 0, 32, .RW, true, 0, 0, 4294967295⟩,  -- HLN_LANE_SYMERR.SYM
  ⟨0x54, 0x20, 8, 0, 32, .RL, false, 0, 0, 4294967295⟩,  -- HLN_LANE_PRBS_ERR.ERR
  ⟨0x58, 0x20, 8, 0, 32, .RL, false, 0, 0, 4294967295⟩,  -- HLN_LANE_PRBS_CNT.CNT
  ⟨0x5C, 0x20, 8, 16, 16, .RO, false, 0, 0, 65535⟩,  -- HLN_LANE_DLY.RX_PS
  ⟨0x5C, 0x20, 8, 0, 16, .RO, false, 0, 0, 65535⟩   -- HLN_LANE_DLY.TX_PS
  ]

/-- The register fields of electrical page 0x082 + 8g. -/
def rowsHlnE : List FieldRow := [
  ⟨0x40, 0x4, 8, 24, 4, .RW, false, 0, 0, 6⟩,  -- HLN_TXFIR.PRE2
  ⟨0x40, 0x4, 8, 16, 6, .RW, false, 6, 0, 24⟩,  -- HLN_TXFIR.PRE1
  ⟨0x40, 0x4, 8, 8, 6, .RW, false, 0, 0, 16⟩,  -- HLN_TXFIR.POST1
  ⟨0x40, 0x4, 8, 0, 4, .RW, false, 10, 0, 15⟩,  -- HLN_TXFIR.AMP
  ⟨0x60, 0x4, 8, 16, 8, .RL, false, 0, 0, 255⟩,  -- HLN_RXEQ.CTLE
  ⟨0x60, 0x4, 8, 0, 8, .RL, false, 0, 0, 255⟩   -- HLN_RXEQ.DFE1
  ]

/-- The register fields of line engine page 0x1E. -/
def rowsPace : List FieldRow := [
  ⟨0x40, 0x0, 1, 0, 1, .RW, false, 1, 0, 1⟩,  -- LE_PG_CTRL.VREQ_EN
  ⟨0x44, 0x0, 1, 16, 16, .RW, false, 30, 0, 1000⟩,  -- LE_PG_THRESH.EVT_MARGIN
  ⟨0x44, 0x0, 1, 0, 16, .RW, false, 80, 0, 1000⟩,  -- LE_PG_THRESH.VREQ_MARGIN
  ⟨0x48, 0x0, 1, 0, 16, .RW, false, 200, 0, 1000⟩,  -- LE_PG_HIGH.HIGH_MARGIN
  ⟨0x4C, 0x0, 1, 16, 16, .RL, false, 32767, 0, 65535⟩,  -- LE_PG_MARGIN.MIN
  ⟨0x4C, 0x0, 1, 0, 16, .RL, false, 32767, 0, 65535⟩,  -- LE_PG_MARGIN.NOW
  ⟨0x50, 0x0, 1, 1, 2, .RO, false, 3, 0, 3⟩,  -- LE_PG_STATE.REQ
  ⟨0x50, 0x0, 1, 0, 1, .RO, false, 0, 0, 1⟩,  -- LE_PG_STATE.LOW
  ⟨0x54, 0x0, 1, 16, 16, .RL, false, 0, 0, 65535⟩,  -- LE_EB_FILL.RX_FILL
  ⟨0x54, 0x0, 1, 0, 16, .RL, false, 0, 0, 65535⟩,  -- LE_EB_FILL.TX_FILL
  ⟨0x58, 0x0, 1, 0, 16, .RW, false, 500, 100, 10000⟩,  -- LE_EB_CTRL.TX_TARGET
  ⟨0x5C, 0x0, 1, 16, 16, .RW, true, 0, 0, 65535⟩,  -- LE_EB_ERR.TX_UNDERRUN
  ⟨0x5C, 0x0, 1, 0, 16, .RW, true, 0, 0, 65535⟩   -- LE_EB_ERR.RX_OVERFLOW
  ]

/-- The register fields of line engine page 0x01. -/
def rowsTx : List FieldRow := [
  ⟨0x40, 0x0, 1, 8, 1, .RW, false, 0, 0, 1⟩,  -- LE_TX_CTRL.KILL
  ⟨0x40, 0x0, 1, 0, 3, .WO, false, 0, 0, 7⟩,  -- LE_TX_CTRL.REQ
  ⟨0x44, 0x0, 1, 16, 16, .RO, false, 0, 0, 65535⟩,  -- LE_TX_STAT.POWER
  ⟨0x44, 0x0, 1, 13, 1, .RO, false, 0, 0, 1⟩,  -- LE_TX_STAT.DEPART_WAIT
  ⟨0x44, 0x0, 1, 12, 1, .RO, false, 0, 0, 1⟩,  -- LE_TX_STAT.FROZEN
  ⟨0x44, 0x0, 1, 11, 1, .RO, false, 0, 0, 1⟩,  -- LE_TX_STAT.TXEN_PIN
  ⟨0x44, 0x0, 1, 10, 1, .RO, false, 1, 0, 1⟩,  -- LE_TX_STAT.SQUELCH
  ⟨0x44, 0x0, 1, 4, 4, .RO, false, 0, 0, 15⟩,  -- LE_TX_STAT.QPOS
  ⟨0x44, 0x0, 1, 0, 4, .RO, false, 0, 0, 15⟩,  -- LE_TX_STAT.STATE
  ⟨0x48, 0x0, 1, 8, 5, .RW, false, 8, 2, 20⟩,  -- LE_TX_CFG.ROLLOFF
  ⟨0x48, 0x0, 1, 0, 3, .RW, false, 7, 0, 7⟩,  -- LE_TX_CFG.SYM_RATE
  ⟨0x4C, 0x0, 1, 8, 4, .RO, false, 0, 0, 15⟩,  -- LE_TX_BL_CTRL.RESULT
  ⟨0x4C, 0x0, 1, 4, 1, .RW, false, 1, 0, 1⟩,  -- LE_TX_BL_CTRL.NEGOTIATE
  ⟨0x4C, 0x0, 1, 1, 1, .WC, false, 0, 0, 1⟩,  -- LE_TX_BL_CTRL.SWITCH
  ⟨0x4C, 0x0, 1, 0, 1, .RO, false, 0, 0, 1⟩,  -- LE_TX_BL_CTRL.ACTIVE
  ⟨0x50, 0x0, 1, 0, 24, .RO, false, 0, 0, 16777215⟩,  -- LE_TX_REQ_BITS.REQ_BITS
  ⟨0x54, 0x0, 1, 0, 24, .RO, false, 1984000, 0, 16777215⟩,  -- LE_TX_CAP.CAP
  ⟨0x58, 0x0, 1, 0, 24, .RO, false, 1984000, 0, 16777215⟩,  -- LE_TX_CAP_SHADOW.CAP
  ⟨0x5C, 0x0, 1, 0, 4, .RW, false, 6, 0, 12⟩,  -- LE_TX_PILOT.BOOST
  ⟨0x60, 0x0, 1, 0, 6, .RW, false, 40, 20, 60⟩,  -- LE_TX_CHIME.LEVEL
  ⟨0x64, 0x0, 1, 16, 16, .RO, false, 0, 0, 65535⟩,  -- LE_TX_MASK_CTRL.NORM
  ⟨0x64, 0x0, 1, 8, 8, .RO, false, 0, 0, 255⟩,  -- LE_TX_MASK_CTRL.SLEW_LEFT
  ⟨0x64, 0x0, 1, 2, 1, .RO, false, 0, 0, 1⟩,  -- LE_TX_MASK_CTRL.SLEWING
  ⟨0x64, 0x0, 1, 1, 1, .WC, false, 0, 0, 1⟩,  -- LE_TX_MASK_CTRL.COMMIT
  ⟨0x64, 0x0, 1, 0, 1, .RO, false, 0, 0, 1⟩,  -- LE_TX_MASK_CTRL.ACTIVE
  ⟨0x68, 0x0, 1, 0, 8, .RW, false, 0, 0, 255⟩,  -- LE_TX_XY.Y_GAIN
  ⟨0x6C, 0x0, 1, 0, 16, .RW, false, 2000, 100, 20000⟩,  -- LE_TX_RAMP.RAMP_US
  ⟨0x70, 0x0, 1, 16, 16, .RW, false, 100, 0, 50000⟩,  -- LE_TX_TXEN.LAG_US
  ⟨0x70, 0x0, 1, 0, 16, .RW, false, 1000, 0, 50000⟩,  -- LE_TX_TXEN.LEAD_US
  ⟨0x74, 0x0, 1, 0, 2, .RW, false, 0, 0, 3⟩   -- LE_TX_PRBS.MODE
  ]

/-- The register fields of line engine page 0x02. -/
def rowsDac : List FieldRow := [
  ⟨0x40, 0x0, 1, 16, 16, .RW, false, 4096, 0, 65535⟩,  -- LE_DAC_CTRL.CLIP_THRESH
  ⟨0x40, 0x0, 1, 0, 8, .RW, false, 120, 60, 160⟩,  -- LE_DAC_CTRL.BACKOFF
  ⟨0x44, 0x0, 1, 2, 1, .RO, false, 1, 0, 1⟩,  -- LE_DAC_STAT.SQUELCH
  ⟨0x44, 0x0, 1, 0, 2, .RO, false, 0, 0, 3⟩,  -- LE_DAC_STAT.BANK
  ⟨0x48, 0x0, 1, 16, 16, .RL, false, 0, 0, 65535⟩,  -- LE_DAC_CLIP_X.XQ
  ⟨0x48, 0x0, 1, 0, 16, .RL, false, 0, 0, 65535⟩,  -- LE_DAC_CLIP_X.XI
  ⟨0x4C, 0x0, 1, 16, 16, .RL, false, 0, 0, 65535⟩,  -- LE_DAC_CLIP_Y.YQ
  ⟨0x4C, 0x0, 1, 0, 16, .RL, false, 0, 0, 65535⟩,  -- LE_DAC_CLIP_Y.YI
  ⟨0x50, 0x0, 1, 24, 8, .RL, false, 0, 0, 255⟩,  -- LE_DAC_RMS.YQ
  ⟨0x50, 0x0, 1, 16, 8, .RL, false, 0, 0, 255⟩,  -- LE_DAC_RMS.YI
  ⟨0x50, 0x0, 1, 8, 8, .RL, false, 0, 0, 255⟩,  -- LE_DAC_RMS.XQ
  ⟨0x50, 0x0, 1, 0, 8, .RL, false, 0, 0, 255⟩   -- LE_DAC_RMS.XI
  ]

/-- The register fields of line engine page 0x03. -/
def rowsRx : List FieldRow := [
  ⟨0x40, 0x0, 1, 1, 1, .WO, false, 0, 0, 1⟩,  -- LE_RX_CTRL.REACQ
  ⟨0x40, 0x0, 1, 0, 1, .RW, false, 0, 0, 1⟩,  -- LE_RX_CTRL.EN
  ⟨0x44, 0x0, 1, 8, 5, .RW, false, 8, 2, 20⟩,  -- LE_RX_CFG.ROLLOFF
  ⟨0x44, 0x0, 1, 4, 1, .RW, false, 0, 0, 1⟩,  -- LE_RX_CFG.FE_FILT
  ⟨0x44, 0x0, 1, 0, 3, .RW, false, 7, 0, 7⟩,  -- LE_RX_CFG.SYM_RATE
  ⟨0x48, 0x0, 1, 0, 32, .RW, false, 0, 0, 4294967295⟩,  -- LE_RX_FREQ.FREQ_MHZ
  ⟨0x4C, 0x0, 1, 12, 4, .RO, false, 0, 0, 15⟩,  -- LE_RX_STAT.LOL_CAUSE
  ⟨0x4C, 0x0, 1, 11, 1, .RO, false, 0, 0, 1⟩,  -- LE_RX_STAT.SEEDED
  ⟨0x4C, 0x0, 1, 10, 1, .RO, false, 0, 0, 1⟩,  -- LE_RX_STAT.CHIME
  ⟨0x4C, 0x0, 1, 9, 1, .RO, false, 0, 0, 1⟩,  -- LE_RX_STAT.LOL
  ⟨0x4C, 0x0, 1, 8, 1, .RO, false, 0, 0, 1⟩,  -- LE_RX_STAT.LOS
  ⟨0x4C, 0x0, 1, 4, 4, .RO, false, 0, 0, 15⟩,  -- LE_RX_STAT.CAND
  ⟨0x4C, 0x0, 1, 0, 4, .RO, false, 0, 0, 15⟩,  -- LE_RX_STAT.STATE
  ⟨0x50, 0x0, 1, 16, 16, .RW, true, 0, 0, 65535⟩,  -- LE_RX_ACQ_CNT.FAILS
  ⟨0x50, 0x0, 1, 0, 16, .RW, true, 0, 0, 65535⟩,  -- LE_RX_ACQ_CNT.LOCKS
  ⟨0x54, 0x0, 1, 0, 24, .RO, false, 0, 0, 16777215⟩,  -- LE_RX_ACQ_TIME.ACQ_US
  ⟨0x58, 0x0, 1, 16, 16, .RW, false, 20, 0, 100⟩,  -- LE_RX_LOS.HYST
  ⟨0x58, 0x0, 1, 0, 16, .RW, false, 400, 100, 600⟩,  -- LE_RX_LOS.THRESH
  ⟨0x5C, 0x0, 1, 8, 4, .RO, false, 0, 0, 15⟩,  -- LE_RX_BL_CTRL.RESULT
  ⟨0x5C, 0x0, 1, 1, 1, .WC, false, 0, 0, 1⟩,  -- LE_RX_BL_CTRL.SWITCH
  ⟨0x5C, 0x0, 1, 0, 1, .RO, false, 0, 0, 1⟩,  -- LE_RX_BL_CTRL.ACTIVE
  ⟨0x60, 0x0, 1, 8, 1, .RO, false, 0, 0, 1⟩,  -- LE_RX_PRBS.LOCK
  ⟨0x60, 0x0, 1, 0, 2, .RW, false, 0, 0, 3⟩,  -- LE_RX_PRBS.MODE
  ⟨0x64, 0x0, 1, 0, 32, .RL, false, 0, 0, 4294967295⟩,  -- LE_RX_PRBS_ERR.ERR
  ⟨0x68, 0x0, 1, 0, 32, .RL, false, 0, 0, 4294967295⟩,  -- LE_RX_PRBS_CNT.CNT
  ⟨0x70, 0x0, 1, 0, 32, .RL, false, 0, 0, 4294967295⟩,  -- LE_RX_MARK_IDX_LO.IDX_LO
  ⟨0x74, 0x0, 1, 0, 32, .RL, false, 0, 0, 4294967295⟩,  -- LE_RX_MARK_IDX_HI.IDX_HI
  ⟨0x78, 0x0, 1, 16, 16, .RL, false, 0, 0, 65535⟩,  -- LE_RX_MARK_FRAC.GALLEY
  ⟨0x78, 0x0, 1, 0, 16, .RL, false, 0, 0, 65535⟩,  -- LE_RX_MARK_FRAC.FRAC
  ⟨0x7C, 0x0, 1, 16, 16, .RL, false, 0, 0, 65535⟩,  -- LE_RX_MARK_FLAGS.CENTROID
  ⟨0x7C, 0x0, 1, 3, 1, .RL, false, 0, 0, 1⟩,  -- LE_RX_MARK_FLAGS.LOCKED
  ⟨0x7C, 0x0, 1, 2, 1, .RL, false, 0, 0, 1⟩,  -- LE_RX_MARK_FLAGS.GAP
  ⟨0x7C, 0x0, 1, 1, 1, .RL, false, 0, 0, 1⟩,  -- LE_RX_MARK_FLAGS.CDE_STEP
  ⟨0x7C, 0x0, 1, 0, 1, .RL, false, 0, 0, 1⟩   -- LE_RX_MARK_FLAGS.VALID
  ]

/-- The register fields of line engine page 0x04. -/
def rowsAdc : List FieldRow := [
  ⟨0x40, 0x0, 1, 16, 16, .RW, false, 4096, 0, 65535⟩,  -- LE_ADC_CTRL.CLIP_THRESH
  ⟨0x44, 0x0, 1, 2, 1, .RO, false, 0, 0, 1⟩,  -- LE_ADC_STAT.CAL_VALID
  ⟨0x44, 0x0, 1, 0, 2, .RO, false, 0, 0, 3⟩,  -- LE_ADC_STAT.BANK
  ⟨0x48, 0x0, 1, 24, 8, .RL, false, 0, 0, 255⟩,  -- LE_ADC_RMS.YQ
  ⟨0x48, 0x0, 1, 16, 8, .RL, false, 0, 0, 255⟩,  -- LE_ADC_RMS.YI
  ⟨0x48, 0x0, 1, 8, 8, .RL, false, 0, 0, 255⟩,  -- LE_ADC_RMS.XQ
  ⟨0x48, 0x0, 1, 0, 8, .RL, false, 0, 0, 255⟩,  -- LE_ADC_RMS.XI
  ⟨0x4C, 0x0, 1, 16, 16, .RL, false, 0, 0, 65535⟩,  -- LE_ADC_CLIP_X.XQ
  ⟨0x4C, 0x0, 1, 0, 16, .RL, false, 0, 0, 65535⟩,  -- LE_ADC_CLIP_X.XI
  ⟨0x50, 0x0, 1, 16, 16, .RL, false, 0, 0, 65535⟩,  -- LE_ADC_CLIP_Y.YQ
  ⟨0x50, 0x0, 1, 0, 16, .RL, false, 0, 0, 65535⟩,  -- LE_ADC_CLIP_Y.YI
  ⟨0x54, 0x0, 1, 24, 8, .RL, false, 0, 0, 255⟩,  -- LE_ADC_SPUR.YQ
  ⟨0x54, 0x0, 1, 16, 8, .RL, false, 0, 0, 255⟩,  -- LE_ADC_SPUR.YI
  ⟨0x54, 0x0, 1, 8, 8, .RL, false, 0, 0, 255⟩,  -- LE_ADC_SPUR.XQ
  ⟨0x54, 0x0, 1, 0, 8, .RL, false, 0, 0, 255⟩,  -- LE_ADC_SPUR.XI
  ⟨0x58, 0x0, 1, 0, 32, .RL, false, 0, 0, 4294967295⟩,  -- LE_ADC_IDX_LO.IDX_LO
  ⟨0x5C, 0x0, 1, 0, 32, .RL, false, 0, 0, 4294967295⟩,  -- LE_ADC_IDX_HI.IDX_HI
  ⟨0x60, 0x0, 1, 0, 8, .RW, false, 80, 40, 120⟩   -- LE_ADC_SPUR_THRESH.THRESH
  ]

/-- The register fields of line engine page 0x05. -/
def rowsCde : List FieldRow := [
  ⟨0x40, 0x0, 1, 8, 8, .RW, false, 10, 1, 200⟩,  -- LE_CDE_CTRL.HYST
  ⟨0x40, 0x0, 1, 1, 1, .RW, false, 1, 0, 1⟩,  -- LE_CDE_CTRL.SEED_EN
  ⟨0x40, 0x0, 1, 0, 1, .RW, false, 0, 0, 1⟩,  -- LE_CDE_CTRL.MODE
  ⟨0x44, 0x0, 1, 0, 32, .RW, false, 0, 0, 4294967295⟩,  -- LE_CDE_SET.D_SET
  ⟨0x48, 0x0, 1, 0, 32, .RL, false, 2147483648, 0, 4294967295⟩,  -- LE_CDE_EST.D_EST
  ⟨0x4C, 0x0, 1, 0, 16, .RO, false, 64, 0, 65535⟩,  -- LE_CDE_PREDELAY.N
  ⟨0x50, 0x0, 1, 0, 32, .RO, false, 2147483648, 0, 4294967295⟩,  -- LE_CDE_SEED.SEED
  ⟨0x54, 0x0, 1, 0, 16, .RW, false, 2000, 100, 20000⟩   -- LE_CDE_SEARCH.WINDOW
  ]

/-- The register fields of line engine page 0x06. -/
def rowsMeq : List FieldRow := [
  ⟨0x40, 0x0, 1, 0, 3, .RW, false, 3, 0, 6⟩,  -- LE_MEQ_CTRL.STEP
  ⟨0x44, 0x0, 1, 0, 16, .RL, false, 0, 0, 65535⟩,  -- LE_MEQ_CENTROID.C
  ⟨0x48, 0x0, 1, 16, 16, .RL, false, 0, 0, 65535⟩,  -- LE_MEQ_PMD.PDL
  ⟨0x48, 0x0, 1, 0, 16, .RL, false, 0, 0, 65535⟩,  -- LE_MEQ_PMD.DGD
  ⟨0x4C, 0x0, 1, 0, 16, .RL, false, 0, 0, 65535⟩,  -- LE_CPR_FOFS.FOFS
  ⟨0x50, 0x0, 1, 0, 32, .RW, true, 0, 0, 4294967295⟩,  -- LE_CPR_SLIPS.SLIPS
  ⟨0x54, 0x0, 1, 0, 16, .RL, false, 0, 0, 65535⟩,  -- LE_TRL_PHASE.PHASE
  ⟨0x58, 0x0, 1, 0, 32, .RL, false, 0, 0, 4294967295⟩   -- LE_TRL_FOFS.PPB
  ]

/-- The register fields of line engine page 0x07. -/
def rowsFec : List FieldRow := [
  ⟨0x40, 0x0, 1, 16, 2, .RW, false, 3, 0, 3⟩,  -- LE_FEC_CFG.RATE
  ⟨0x40, 0x0, 1, 8, 2, .RW, false, 2, 0, 3⟩,  -- LE_FEC_CFG.CODE
  ⟨0x44, 0x0, 1, 16, 1, .WO, false, 0, 0, 1⟩,  -- LE_FEC_ITER.COMMIT
  ⟨0x44, 0x0, 1, 0, 5, .WC, false, 16, 1, 16⟩,  -- LE_FEC_ITER.ITER_MAX
  ⟨0x48, 0x0, 1, 16, 5, .RO, false, 0, 0, 31⟩,  -- LE_FEC_STAT.ITER_PEAK
  ⟨0x48, 0x0, 1, 8, 5, .RO, false, 16, 0, 31⟩,  -- LE_FEC_STAT.ITER_NOW
  ⟨0x48, 0x0, 1, 3, 1, .RO, false, 0, 0, 1⟩,  -- LE_FEC_STAT.MISMATCH
  ⟨0x48, 0x0, 1, 2, 1, .RO, false, 0, 0, 1⟩,  -- LE_FEC_STAT.DEG
  ⟨0x48, 0x0, 1, 1, 1, .RO, false, 0, 0, 1⟩,  -- LE_FEC_STAT.FECX
  ⟨0x48, 0x0, 1, 0, 1, .RO, false, 0, 0, 1⟩,  -- LE_FEC_STAT.RUN
  ⟨0x4C, 0x0, 1, 0, 16, .RW, false, 1, 1, 65535⟩,  -- LE_FEC_FECX.UNC_THRESH
  ⟨0x50, 0x0, 1, 16, 16, .RW, false, 50, 0, 500⟩,  -- LE_FEC_DEG.HYST
  ⟨0x50, 0x0, 1, 0, 16, .RW, false, 100, 0, 1000⟩,  -- LE_FEC_DEG.MARGIN
  ⟨0x54, 0x0, 1, 0, 16, .RO, false, 701, 0, 65535⟩,  -- LE_FEC_QTHR.QTHR
  ⟨0x58, 0x0, 1, 16, 16, .RL, false, 32768, 0, 65535⟩,  -- LE_FEC_Q.MARGIN
  ⟨0x58, 0x0, 1, 0, 16, .RL, false, 32768, 0, 65535⟩,  -- LE_FEC_Q.Q
  ⟨0x60, 0x0, 1, 0, 32, .RL, false, 0, 0, 4294967295⟩,  -- LE_FEC_BITS_LO.BITS
  ⟨0x64, 0x0, 1, 0, 32, .RL, false, 0, 0, 4294967295⟩,  -- LE_FEC_BITS_HI.BITS
  ⟨0x68, 0x0, 1, 0, 32, .RL, false, 0, 0, 4294967295⟩,  -- LE_FEC_CORR_LO.CORR
  ⟨0x6C, 0x0, 1, 0, 32, .RL, false, 0, 0, 4294967295⟩,  -- LE_FEC_CORR_HI.CORR
  ⟨0x70, 0x0, 1, 0, 32, .RL, false, 0, 0, 4294967295⟩,  -- LE_FEC_INNER_LO.INNER
  ⟨0x74, 0x0, 1, 0, 32, .RL, false, 0, 0, 4294967295⟩,  -- LE_FEC_INNER_HI.INNER
  ⟨0x78, 0x0, 1, 0, 32, .RL, false, 0, 0, 4294967295⟩,  -- LE_FEC_CW_LO.CW
  ⟨0x7C, 0x0, 1, 0, 32, .RL, false, 0, 0, 4294967295⟩,  -- LE_FEC_CW_HI.CW
  ⟨0x80, 0x0, 1, 0, 32, .RL, false, 0, 0, 4294967295⟩,  -- LE_FEC_UNC_LO.UNC
  ⟨0x84, 0x0, 1, 0, 32, .RL, false, 0, 0, 4294967295⟩,  -- LE_FEC_UNC_HI.UNC
  ⟨0x88, 0x0, 1, 0, 32, .RL, false, 0, 0, 4294967295⟩,  -- LE_FEC_UGAL.UGAL
  ⟨0x8C, 0x0, 1, 0, 1, .WO, false, 0, 0, 1⟩   -- LE_FEC_CLEAR.CLR
  ]

/-- The register fields of line engine page 0x08. -/
def rowsChime : List FieldRow := [
  ⟨0x40, 0x0, 1, 16, 16, .RW, false, 30, 10, 3600⟩,  -- LE_CHM_CTRL.ABSENT_S
  ⟨0x40, 0x0, 1, 8, 1, .RW, false, 1, 0, 1⟩,  -- LE_CHM_CTRL.AUTO_ON
  ⟨0x40, 0x0, 1, 0, 1, .RW, false, 1, 0, 1⟩,  -- LE_CHM_CTRL.ABSENT_EN
  ⟨0x44, 0x0, 1, 16, 16, .RO, false, 0, 0, 65535⟩,  -- LE_CHM_STAT.PEER_RESET_ID
  ⟨0x44, 0x0, 1, 2, 1, .RO, false, 0, 0, 1⟩,  -- LE_CHM_STAT.BEACON_ABS
  ⟨0x44, 0x0, 1, 1, 1, .RO, false, 0, 0, 1⟩,  -- LE_CHM_STAT.ABSENT
  ⟨0x44, 0x0, 1, 0, 1, .RO, false, 0, 0, 1⟩,  -- LE_CHM_STAT.LOCK
  ⟨0x48, 0x0, 1, 0, 32, .RO, false, 0, 0, 4294967295⟩,  -- LE_CHM_SILENT.SILENT_MS
  ⟨0x4C, 0x0, 1, 16, 8, .RO, false, 0, 0, 255⟩,  -- LE_CHM_SEQ_TX.EPOCH
  ⟨0x4C, 0x0, 1, 0, 16, .RO, false, 0, 0, 65535⟩,  -- LE_CHM_SEQ_TX.SEQ
  ⟨0x50, 0x0, 1, 16, 8, .RO, false, 0, 0, 255⟩,  -- LE_CHM_SEQ_RX.EPOCH
  ⟨0x50, 0x0, 1, 0, 16, .RO, false, 0, 0, 65535⟩,  -- LE_CHM_SEQ_RX.SEQ
  ⟨0x54, 0x0, 1, 0, 32, .RW, true, 0, 0, 4294967295⟩,  -- LE_CHM_TXCNT.SENT
  ⟨0x58, 0x0, 1, 0, 32, .RW, true, 0, 0, 4294967295⟩,  -- LE_CHM_RXCNT.VALID
  ⟨0x5C, 0x0, 1, 16, 16, .RW, true, 0, 0, 65535⟩,  -- LE_CHM_ERR.HDR_ERR
  ⟨0x5C, 0x0, 1, 0, 16, .RW, true, 0, 0, 65535⟩,  -- LE_CHM_ERR.PAY_ERR
  ⟨0x60, 0x0, 1, 16, 16, .RW, true, 0, 0, 65535⟩,  -- LE_CHM_LOSS.LOST
  ⟨0x60, 0x0, 1, 0, 16, .RW, true, 0, 0, 65535⟩,  -- LE_CHM_LOSS.ABANDONED
  ⟨0x64, 0x0, 1, 16, 16, .RW, true, 0, 0, 65535⟩,  -- LE_CHM_DISC.STALE
  ⟨0x64, 0x0, 1, 8, 8, .RW, true, 0, 0, 255⟩,  -- LE_CHM_DISC.MISWIRED
  ⟨0x64, 0x0, 1, 0, 8, .RW, true, 0, 0, 255⟩,  -- LE_CHM_DISC.FOREIGN
  ⟨0x68, 0x0, 1, 0, 16, .RL, false, 0, 0, 65535⟩   -- LE_CHM_METRIC.PRE_DB
  ]

/-- The register fields of framer carrier page 0x200 + n. -/
def rowsFrm : List FieldRow := [
  ⟨0x40, 0x0, 1, 24, 4, .RO, false, 0, 0, 15⟩,  -- FRM_ALIGN_STAT.FNUM
  ⟨0x40, 0x0, 1, 16, 8, .RO, false, 0, 0, 255⟩,  -- FRM_ALIGN_STAT.CAND
  ⟨0x40, 0x0, 1, 2, 1, .RO, false, 0, 0, 1⟩,  -- FRM_ALIGN_STAT.GA
  ⟨0x40, 0x0, 1, 1, 1, .RO, false, 0, 0, 1⟩,  -- FRM_ALIGN_STAT.FA
  ⟨0x40, 0x0, 1, 0, 1, .RO, false, 0, 0, 1⟩,  -- FRM_ALIGN_STAT.HUNT
  ⟨0x44, 0x0, 1, 0, 32, .RO, false, 0, 0, 4294967295⟩,  -- FRM_GNUM_RX.GNUM
  ⟨0x48, 0x0, 1, 0, 32, .RO, false, 0, 0, 4294967295⟩,  -- FRM_GNUM_TX.GNUM
  ⟨0x4C, 0x0, 1, 24, 6, .RO, false, 0, 0, 63⟩,  -- FRM_DEF_STAT.RAW
  ⟨0x4C, 0x0, 1, 16, 6, .RO, false, 0, 0, 63⟩,  -- FRM_DEF_STAT.DECL
  ⟨0x4C, 0x0, 1, 0, 6, .RO, false, 0, 0, 63⟩,  -- FRM_DEF_STAT.REPT
  ⟨0x50, 0x0, 1, 12, 3, .RO, false, 0, 0, 7⟩,  -- FRM_BDI_CTRL.CAUSE
  ⟨0x50, 0x0, 1, 8, 1, .RO, false, 0, 0, 1⟩,  -- FRM_BDI_CTRL.TX
  ⟨0x50, 0x0, 1, 1, 1, .RW, false, 0, 0, 1⟩,  -- FRM_BDI_CTRL.FORCE
  ⟨0x50, 0x0, 1, 0, 1, .RW, false, 0, 0, 1⟩,  -- FRM_BDI_CTRL.INHIBIT
  ⟨0x54, 0x0, 1, 16, 16, .RW, true, 0, 0, 65535⟩,  -- FRM_HUNT_CNT.FALSE
  ⟨0x54, 0x0, 1, 0, 16, .RW, true, 0, 0, 65535⟩,  -- FRM_HUNT_CNT.DROPPED
  ⟨0x58, 0x0, 1, 31, 1, .RL, false, 0, 0, 1⟩,  -- FRM_FAS_PAY.VALID
  ⟨0x58, 0x0, 1, 0, 18, .RL, false, 0, 0, 262143⟩,  -- FRM_FAS_PAY.OFFSET
  ⟨0x5C, 0x0, 1, 0, 32, .RW, true, 0, 0, 4294967295⟩,  -- FRM_OH_CRC.ERR
  ⟨0x60, 0x0, 1, 16, 16, .RW, true, 0, 0, 65535⟩,  -- FRM_OH_GAL.INCONS
  ⟨0x60, 0x0, 1, 0, 16, .RW, true, 0, 0, 65535⟩,  -- FRM_OH_GAL.LOST
  ⟨0x64, 0x0, 1, 16, 16, .RW, true, 0, 0, 65535⟩,  -- FRM_ALIGN_CNT.LOF
  ⟨0x64, 0x0, 1, 0, 16, .RW, true, 0, 0, 65535⟩,  -- FRM_ALIGN_CNT.LOM
  ⟨0x68, 0x0, 1, 16, 16, .RO, false, 0, 0, 65535⟩,  -- FRM_PM_NOW.EG
  ⟨0x68, 0x0, 1, 12, 4, .RO, false, 0, 0, 15⟩,  -- FRM_PM_NOW.RUN
  ⟨0x68, 0x0, 1, 3, 1, .RO, false, 0, 0, 1⟩,  -- FRM_PM_NOW.UNAVAIL
  ⟨0x68, 0x0, 1, 2, 1, .RO, false, 0, 0, 1⟩,  -- FRM_PM_NOW.DEF
  ⟨0x68, 0x0, 1, 1, 1, .RO, false, 0, 0, 1⟩   -- FRM_PM_NOW.INH
  ]

/-- The register fields of framer common page 0x208. -/
def rowsFrmc : List FieldRow := [
  ⟨0x40, 0x0, 1, 8, 1, .WO, false, 0, 0, 1⟩,  -- FRM_PM_CTRL.CLR
  ⟨0x40, 0x0, 1, 0, 1, .RW, false, 1, 0, 1⟩,  -- FRM_PM_CTRL.EN
  ⟨0x44, 0x0, 1, 16, 16, .RO, false, 0, 0, 65535⟩,  -- FRM_PM_STAT.CLOSED
  ⟨0x44, 0x0, 1, 1, 1, .RO, false, 0, 0, 1⟩,  -- FRM_PM_STAT.INVALID
  ⟨0x44, 0x0, 1, 0, 1, .RO, false, 0, 0, 1⟩,  -- FRM_PM_STAT.CLR_PEND
  ⟨0x48, 0x4, 32, 0, 32, .RO, false, 0, 0, 4294967295⟩   -- FRM_FDEF_SUM.FLOWS
  ]

/-- The register fields of page 0x210, bundle. -/
def rowsFmxB : List FieldRow := [
  ⟨0x40, 0x0, 1, 24, 8, .RO, false, 0, 0, 255⟩,  -- FMX_BND_STAT.MEMBERS
  ⟨0x40, 0x0, 1, 16, 8, .RO, false, 0, 0, 255⟩,  -- FMX_BND_STAT.EXCL_TX
  ⟨0x40, 0x0, 1, 8, 8, .RO, false, 0, 0, 255⟩,  -- FMX_BND_STAT.EXCL_RX
  ⟨0x40, 0x0, 1, 0, 8, .RO, false, 0, 0, 255⟩,  -- FMX_BND_STAT.FOREIGN
  ⟨0x44, 0x0, 1, 16, 1, .RW, false, 0, 0, 1⟩,  -- FMX_BND_CTRL.AUTO_RETURN
  ⟨0x44, 0x0, 1, 0, 8, .WO, false, 0, 0, 255⟩,  -- FMX_BND_CTRL.RETURN
  ⟨0x48, 0x0, 1, 24, 8, .RO, false, 0, 0, 255⟩,  -- FMX_BND_SW.TXN_TX
  ⟨0x48, 0x0, 1, 20, 4, .RO, false, 0, 0, 15⟩,  -- FMX_BND_SW.REASON_TX
  ⟨0x48, 0x0, 1, 16, 4, .RO, false, 0, 0, 15⟩,  -- FMX_BND_SW.SW_IN_TX
  ⟨0x48, 0x0, 1, 8, 8, .RO, false, 0, 0, 255⟩,  -- FMX_BND_SW.TXN_RX
  ⟨0x48, 0x0, 1, 4, 4, .RO, false, 0, 0, 15⟩,  -- FMX_BND_SW.REASON_RX
  ⟨0x48, 0x0, 1, 0, 4, .RO, false, 0, 0, 15⟩,  -- FMX_BND_SW.SW_IN_RX
  ⟨0x4C, 0x0, 1, 0, 32, .RO, false, 0, 0, 4294967295⟩,  -- FMX_HOME_ID_TX.ID
  ⟨0x50, 0x0, 1, 0, 32, .RO, false, 0, 0, 4294967295⟩,  -- FMX_HOME_ID_RX.ID
  ⟨0x54, 0x0, 1, 0, 32, .RO, false, 0, 0, 4294967295⟩,  -- FMX_MAP_ID_TX.ID
  ⟨0x58, 0x0, 1, 0, 32, .RO, false, 0, 0, 4294967295⟩,  -- FMX_MAP_ID_RX.ID
  ⟨0x5C, 0x0, 1, 0, 32, .RO, false, 0, 0, 4294967295⟩,  -- FMX_SHADOW_ID.ID
  ⟨0x60, 0x0, 1, 0, 32, .RO, false, 0, 0, 4294967295⟩,  -- FMX_SHADOW_ID_PEER.ID
  ⟨0x64, 0x0, 1, 28, 4, .RO, false, 0, 0, 15⟩,  -- FMX_MAP_CTRL.RESULT
  ⟨0x64, 0x0, 1, 17, 1, .RO, false, 0, 0, 1⟩,  -- FMX_MAP_CTRL.HOME_RX
  ⟨0x64, 0x0, 1, 16, 1, .RO, false, 0, 0, 1⟩,  -- FMX_MAP_CTRL.HOME_TX
  ⟨0x64, 0x0, 1, 8, 1, .RO, false, 0, 0, 1⟩,  -- FMX_MAP_CTRL.PEER_READY
  ⟨0x64, 0x0, 1, 1, 1, .WO, false, 0, 0, 1⟩,  -- FMX_MAP_CTRL.CANCEL
  ⟨0x64, 0x0, 1, 0, 1, .WC, false, 0, 0, 1⟩,  -- FMX_MAP_CTRL.COMMIT
  ⟨0x68, 0x0, 1, 0, 8, .RW, false, 0, 0, 255⟩,  -- FMX_PLACE_TRY.MASK
  ⟨0x6C, 0x0, 1, 31, 1, .RO, false, 0, 0, 1⟩,  -- FMX_PLACE_RES.DONE
  ⟨0x6C, 0x0, 1, 16, 11, .RO, false, 0, 0, 2047⟩,  -- FMX_PLACE_RES.SHED
  ⟨0x6C, 0x0, 1, 0, 11, .RO, false, 0, 0, 2047⟩,  -- FMX_PLACE_RES.MOVED
  ⟨0x70, 0x0, 1, 28, 4, .RL, false, 0, 0, 15⟩,  -- FMX_REMAP_LAST.REASON
  ⟨0x70, 0x0, 1, 16, 11, .RL, false, 0, 0, 2047⟩,  -- FMX_REMAP_LAST.SHED
  ⟨0x70, 0x0, 1, 0, 16, .RL, false, 0, 0, 65535⟩,  -- FMX_REMAP_LAST.LEARN_US
  ⟨0x74, 0x0, 1, 16, 16, .RW, true, 0, 0, 65535⟩,  -- FMX_REMAP_CNT.SWITCHES
  ⟨0x74, 0x0, 1, 0, 16, .RW, true, 0, 0, 65535⟩,  -- FMX_REMAP_CNT.MISMATCH
  ⟨0x78, 0x0, 1, 16, 16, .RW, true, 0, 0, 65535⟩,  -- FMX_BSIG_CNT.DIFF
  ⟨0x78, 0x0, 1, 0, 16, .RW, true, 0, 0, 65535⟩,  -- FMX_BSIG_CNT.LOST
  ⟨0x7C, 0x0, 1, 0, 16, .RW, true, 0, 0, 65535⟩   -- FMX_IN_DROP.WRONG_GROUP
  ]

/-- The register fields of page 0x211, flow. -/
def rowsFmxF : List FieldRow := [
  ⟨0x40, 0x4, 32, 0, 32, .RO, false, 0, 0, 4294967295⟩   -- FMX_SHED_SUM.FLOWS
  ]

/-- The register fields of page 0x212, deskew. -/
def rowsFmxD : List FieldRow := [
  ⟨0x40, 0x0, 1, 0, 16, .RW, false, 2560, 500, 5120⟩,  -- FMX_DSK_CTRL.MAX_NS
  ⟨0x44, 0x4, 8, 31, 1, .RL, false, 0, 0, 1⟩,  -- FMX_DSK_SKEW.VALID
  ⟨0x44, 0x4, 8, 0, 24, .RL, false, 0, 0, 16777215⟩,  -- FMX_DSK_SKEW.SKEW_PS
  ⟨0x64, 0x0, 1, 16, 16, .RL, false, 0, 0, 65535⟩,  -- FMX_DSK_HOLD.PEAK_NS
  ⟨0x64, 0x0, 1, 0, 16, .RL, false, 0, 0, 65535⟩,  -- FMX_DSK_HOLD.NOW_NS
  ⟨0x68, 0x0, 1, 0, 32, .RW, true, 0, 0, 4294967295⟩   -- FMX_DSK_ERR.OVER
  ]

/-- The register fields of the common header and indirect window of every page (R448, R455). -/
def rowsHeader : List FieldRow := [
  ⟨0x0, 0x0, 1, 24, 8, .RO, false, 0, 0, 255⟩,  -- PAGE_ID.TYPE
  ⟨0x0, 0x0, 1, 16, 8, .RO, false, 0, 0, 255⟩,  -- PAGE_ID.SUB
  ⟨0x0, 0x0, 1, 0, 16, .RO, false, 0, 0, 65535⟩,  -- PAGE_ID.INST
  ⟨0x4, 0x0, 1, 8, 8, .RO, false, 1, 0, 255⟩,  -- PAGE_VER.MAJOR
  ⟨0x4, 0x0, 1, 0, 8, .RO, false, 0, 0, 255⟩,  -- PAGE_VER.MINOR
  ⟨0x8, 0x0, 1, 2, 1, .RW, false, 0, 0, 1⟩,  -- CTRL.FREEZE
  ⟨0x8, 0x0, 1, 1, 1, .WO, false, 0, 0, 1⟩,  -- CTRL.BLK_RESET
  ⟨0x8, 0x0, 1, 0, 1, .RW, false, 1, 0, 1⟩,  -- CTRL.ENABLE
  ⟨0xC, 0x0, 1, 2, 1, .RO, false, 0, 0, 1⟩,  -- STATUS.FROZEN
  ⟨0xC, 0x0, 1, 1, 1, .RO, false, 0, 0, 1⟩,  -- STATUS.ERR
  ⟨0xC, 0x0, 1, 0, 1, .RO, false, 0, 0, 1⟩,  -- STATUS.IDLE
  ⟨0x10, 0x0, 1, 0, 8, .RO, false, 0, 0, 255⟩,  -- ERR_CODE.CODE
  ⟨0x14, 0x0, 1, 0, 12, .RO, false, 0, 0, 4095⟩,  -- ERR_OFFSET.OFFSET
  ⟨0x18, 0x0, 1, 0, 16, .RW, true, 0, 0, 65535⟩,  -- ERR_COUNT.COUNT
  ⟨0x1C, 0x0, 1, 0, 16, .RO, false, 0, 0, 65535⟩,  -- FENCE.COUNT
  ⟨0x20, 0x0, 1, 0, 32, .RO, false, 0, 0, 4294967295⟩,  -- EV_RAW.RAW
  ⟨0x24, 0x0, 1, 0, 32, .W1C, false, 0, 0, 4294967295⟩,  -- EV_LATCH.LATCH
  ⟨0x28, 0x0, 1, 0, 32, .RW, false, 0, 0, 4294967295⟩,  -- EV_ENABLE.ENABLE
  ⟨0x2C, 0x0, 1, 0, 32, .WO, false, 0, 0, 4294967295⟩,  -- EV_FORCE.FORCE
  ⟨0x30, 0x0, 1, 0, 16, .RL, false, 0, 0, 65535⟩,  -- EV_PEAK.PEAK
  ⟨0x34, 0x0, 1, 0, 32, .RW, true, 0, 0, 4294967295⟩,  -- EV_COUNT.COUNT
  ⟨0x800, 0x0, 1, 0, 8, .RW, false, 0, 0, 255⟩,  -- TBL_SEL.SEL
  ⟨0x804, 0x0, 1, 0, 16, .RW, false, 0, 0, 65535⟩,  -- TBL_INDEX.INDEX
  ⟨0x808, 0x4, 8, 0, 32, .RW, false, 0, 0, 4294967295⟩,  -- TBL_DATA.DATA
  ⟨0x828, 0x0, 1, 8, 1, .RW, false, 0, 0, 1⟩,  -- TBL_CMD.AUTO_INC
  ⟨0x828, 0x0, 1, 0, 2, .WO, false, 0, 0, 3⟩   -- TBL_CMD.OP
  ]

/-- The register fields of a page kind at offset 0x040 and above, outside the indirect window. -/
def rowsOf (k : PageKind) : List FieldRow :=
  match k with
  | .chip0 => rowsChip0
  | .rst => rowsRst
  | .fuse => rowsFuse
  | .vcore => rowsVcore
  | .start => rowsStart
  | .link => rowsLink
  | .dma => rowsDma
  | .hdm => rowsHdm
  | .evq => rowsEvq
  | .evqC => rowsEvqC
  | .mon => rowsMon
  | .det => rowsDet
  | .cal => rowsCal
  | .tymC => rowsTymC
  | .tymT => rowsTymT
  | .tymS => rowsTymS
  | .tymX => rowsTymX
  | .car => rowsCar
  | .cyp => rowsCyp
  | .trust => rowsTrust
  | .mcu => rowsMcu
  | .ecc => rowsEcc
  | .scb => rowsScb
  | .hlnG => rowsHlnG
  | .hlnL => rowsHlnL
  | .hlnE => rowsHlnE
  | .pace => rowsPace
  | .tx => rowsTx
  | .dac => rowsDac
  | .rx => rowsRx
  | .adc => rowsAdc
  | .cde => rowsCde
  | .meq => rowsMeq
  | .fec => rowsFec
  | .chime => rowsChime
  | .frm => rowsFrm
  | .frmc => rowsFrmc
  | .fmxB => rowsFmxB
  | .fmxF => rowsFmxF
  | .fmxD => rowsFmxD

/-- Does the row cover the register at offset `off`? -/
def FieldRow.covers (r : FieldRow) (off : Nat) : Bool :=
  r.off ≤ off && (if r.step = 0 then off == r.off else (off - r.off) % r.step == 0 && decide ((off - r.off) / r.step < r.num))

/-- The fields of the register at offset `off` of a page kind. -/
def fieldsAt (k : PageKind) (off : Nat) : List FieldRow :=
  (if off < 0x40 ∨ 0x800 ≤ off then rowsHeader else rowsOf k).filter fun r => r.covers off

/-- The value that a register field holds when nothing has been written to it since reset: the Reset column of its
table, by the field's key. (Log 15: DESIGN CHOICE, 16: DEDUCED) -/
def regReset (key : Nat) : Nat :=
  let lo := key % 32
  let off := key / 8 % 0x1000 / 4 * 4
  match decodePage (key / 0x8000) with
  | none => 0
  | some (k, _) =>
    match (fieldsAt k off).find? fun r => r.lo == lo with
    | some r => r.reset
    | none => 0

end Sys2Proof.Machine
end

