-- ==== Sys2Proof/Machine/Store.lean ====
section
/-! DEFINITION. A store: a list of key and value pairs in one canonical form (keys strictly rising, no entry equal
to what an unlisted key reads as), used for the register fields, the tables and the HDM bytes. -/

namespace Sys2Proof.Machine

/-- Key and value pairs, keys rising. -/
abbrev Store (α : Type) := List (Nat × α)

/-- The value at key `k`; an unlisted key reads as `dflt k`. -/
def Store.get {α : Type} (dflt : Nat → α) : Store α → Nat → α
  | [], k => dflt k
  | (a, v) :: rest, k => if a = k then v else Store.get dflt rest k

/-- The entry for `k` put at its place in the order, in place of the one that stands there. -/
def Store.put {α : Type} : Store α → Nat → α → Store α
  | [], k, v => [(k, v)]
  | (a, x) :: rest, k, v =>
    if k < a then (k, v) :: (a, x) :: rest
    else if a = k then (k, v) :: rest
    else (a, x) :: Store.put rest k v

/-- Every entry but those for `k`. -/
def Store.drop {α : Type} : Store α → Nat → Store α
  | [], _ => []
  | (a, x) :: rest, k => if a = k then Store.drop rest k else (a, x) :: Store.drop rest k

/-- A write: a value equal to what an unlisted key reads as removes the entry. -/
def Store.set {α : Type} [DecidableEq α] (dflt : Nat → α) (m : Store α) (k : Nat) (v : α) : Store α :=
  if v = dflt k then m.drop k else m.put k v

/-- Every entry whose key satisfies `p` removed: those keys read as unlisted again. -/
def Store.clear {α : Type} (m : Store α) (p : Nat → Bool) : Store α := m.filter fun e => !p e.1

/-- The canonical form, for keys from `lo` on. -/
def Store.wfFrom {α : Type} [DecidableEq α] (dflt : Nat → α) : Nat → Store α → Bool
  | _, [] => true
  | lo, (a, v) :: rest => decide (lo ≤ a) && !decide (v = dflt a) && Store.wfFrom dflt (a + 1) rest

/-- The canonical form: keys strictly rising, and no entry that an unlisted key would read as anyway. -/
def Store.wf {α : Type} [DecidableEq α] (dflt : Nat → α) (m : Store α) : Bool := Store.wfFrom dflt 0 m

end Sys2Proof.Machine
end

