-- ==== Sys2Proof/Machine/State.lean ====
section
/-! DEFINITION. The machine's state as plain data: the register fields and tables of every page, the typed state that
the chapters give the blocks beside their registers, the HDM bytes, and the queue of waiting commands. -/

namespace Sys2Proof.Machine

/-- Reasons a command stops the machine. -/
inductive Fault where
  /-- Raised by a CXL.mem or BAR access whose address lies outside every range the device claims (R437, R439): no such
  access reaches the device. Safe: the machine stops where the hardware would see nothing. -/
  | noSuchAddress
deriving DecidableEq, Repr

/-- Reasons a command is refused. -/
inductive Refusal where
  /-- Answered only by the dispatcher, for a command that has no meaning yet. Safe: the machine stops. -/
  | notModelled (mnemonic : String)
deriving DecidableEq, Repr


/-! ### Line transmit (R52 to R94) -/

/-- A ramp in progress (R79, R80): the table it follows, what it ramps, the point from which it started, the formes
gone by, its length in formes, and the forme boundary up to which the formes gone by are counted. -/
structure Ramp where
  up : Bool
  data : Bool
  chime : Bool
  start : Nat
  gone : Nat
  total : Nat
  at_ : Nat
deriving DecidableEq, Repr

/-- A line engine's transmit state beside its registers: the state its carrier is heading to (4 ON, 6 BEACON, 0 OFF,
8 HALTED under a calibration hold), the ramp, the chime's own ramp after a BEACON reversal, the request to be carried
out when the present ramp ends, the fractions of the data subcarriers
and of the chime channel, the interior bank, when each bank's soft-start or soft-stop ends, the lead's or lag's end, the
request held for a planned departure, the cancelled or remaining bank grants, the calibration hold, the galley of a
negotiated bank switch, the mask's slew with the boundary of its last step, the effective Y gain, the ramp points held
apart, the register of the PRBS31 source (R90), the staircase block last sent (R140; none yet: all zeros), the power fractions of the
formes last sent, newest first, and the DAC gains in 2^-32 (R73). -/
structure LeTx where
  goal : Nat
  ramp : Option Ramp
  chimeRamp : Option Ramp
  after : Nat
  dataFrac : Nat
  chimeFrac : Nat
  bank3 : Nat
  bankEnd : Store Nat
  txenEnd : Nat
  leadDone : Bool
  lagDone : Bool
  held : Nat
  killBanks : Bool
  calHold : Bool
  switchAt : Option Nat
  maskFrom : Store Int
  maskTo : Store Int
  maskN : Nat
  maskWait : Option Nat
  slewAt : Nat
  yEff : Nat
  rampHeld : Store Nat
  prbs : Nat
  chain : List Nat
  fracs : List Nat
  dacGain : List Nat
deriving DecidableEq, Repr

def LeTx.reset : LeTx :=
  ⟨0, none, none, 0, 0, 0, 0, [], 0, false, false, 0, false, false, none, [], [], 0, none, 0, 0, [], 0x7FFFFFFF, [], [], []⟩

/-- An entry of the start queue (R88): the line engine, the kind of request (1 START, 2 BEACON, 3 STOP), when it
entered, whether it has received a grant and whether `RST:START_HELD` has been raised for it. -/
structure StartEntry where
  le : Nat
  kind : Nat
  since : Nat
  granted : Bool
  heldRaised : Bool
deriving DecidableEq, Repr

/-- The start-rate limiter (R87): the queue, head first, and when the last bank transition began. -/
structure Limiter where
  queue : List StartEntry
  lastBank : Option Nat
deriving DecidableEq, Repr

def Limiter.reset : Limiter := ⟨[], none⟩

/-! ### Line receive (R95 to R129) -/

/-- A PRBS checker (R124, R256): the last bits, those received while it seeks and those expected while it is locked; the run of
correct bits while it seeks; locked; the places of the errored bits of the last 65,536 and the place of the next bit, counted from the
lock; and the bits checked beyond whole units of 2^20. -/
structure Prbs where
  reg : Nat
  run : Nat
  locked : Bool
  errs : List Nat
  pos : Nat
  part : Nat
deriving DecidableEq, Repr

def Prbs.reset : Prbs := ⟨0, 0, false, [], 0, 0⟩

/-- A line engine's receive state beside its registers: when the present state, the present search and the last SIGNAL
were entered; the candidates that remain, best first; the D_set in force in 0.01 ps/nm and whether one exists; the seed of
the present search, and whether an unused one of the partner exists; a D_set that waits for
the next galley boundary; the condition of R98 already reported; the time of the last `LE:ACQ_FAIL`; the estimates
since the entry to LOCKED, newest first; the samples discarded by overflows (first, end; counted since the index started);
whether D_set changed at the start of the galley in progress; when the
sample index counter started, and the index at each of the last 64 galley starts by its moment (R265); the last frequency offset of LOCKED; the SNR of the last galleys, newest
first; the step code in effect; the galley of a negotiated receive bank switch; the calibration's hold; whether the
candidate is the D_set of a reacquisition; the end of the received galley in which lock was last lost; when the last
received galley completed; the intervals that have stood in for galleys since the index started (R518); and the PRBS checker with
the subcarriers that have had 64 consecutive correct bits in FRAME (R124). -/
structure LeRx where
  stateAt : Nat
  searchAt : Nat
  signalAt : Nat
  cands : List Int
  dUse : Int
  hasD : Bool
  seed : Int
  seedNew : Bool
  dNext : Option Int
  uncalSaid : Bool
  failAt : Option Nat
  ests : List Int
  gaps : List (Nat × Nat)
  dStep : Bool
  indexAt : Option Nat
  irefs : List (Nat × Nat)
  fofsLock : Nat
  snr : List (List Nat)
  stepEff : Nat
  switchAt : Option Nat
  held : Bool
  reacq : Bool
  lossEnd : Option Nat
  lastDone : Option Nat
  stood : Nat
  prbs : Prbs
  prbsDscs : Nat
deriving DecidableEq, Repr

def LeRx.reset : LeRx where
  stateAt := 0
  searchAt := 0
  signalAt := 0
  cands := []
  dUse := 0
  hasD := false
  seed := 0
  seedNew := false
  dNext := none
  uncalSaid := false
  failAt := none
  ests := []
  gaps := []
  dStep := false
  indexAt := none
  irefs := []
  fofsLock := 0
  snr := []
  stepEff := 3
  switchAt := none
  held := false
  reacq := false
  lossEnd := none
  lastDone := none
  stood := 0
  prbs := Prbs.reset
  prbsDscs := 0

/-! ### Forward error correction (R130 to R154) -/

/-- A forme in the staircase decoder (R143): its first symbol's sample, counted from the start of the index, and the bank that it was
mapped with; whether the block before its B0 is known; its hard decisions; the positions that the Viterbi decoder corrected; and its
blocks that have left the window, each with whether it is uncorrected. -/
structure StairForme where
  first : Nat
  bank : List Nat
  joined : Bool
  hard : List Bool
  inner : Nat
  done : List (List Nat × Bool)
deriving DecidableEq, Repr

/-- The staircase decoder (R143, R145): the formes since it started, where the next is expected, the block that left last with the
window of up to ten, oldest first, each with whether it follows on the one before it, and the formes not yet delivered. -/
structure StairDec where
  seen : Nat
  next : Option Nat
  left : List Nat
  window : List (List Nat × Bool)
  formes : List StairForme
deriving DecidableEq, Repr

def StairDec.reset : StairDec := ⟨0, none, [], [], []⟩

/-- A decoder's state beside its registers: the bits and corrected positions of the last 4,096 counted galleys, newest
first (R148), a clear and a new ITER_MAX that wait for the next galley boundary (R147, R152), and what the formes of the
galley in progress have counted: bits, corrected positions, inner positions, units decoded and uncorrected, the most
iterations, and the codewords by iterations (index 16 uncorrected); and the staircase decoder. -/
structure LeFec where
  window : List (Nat × Nat)
  clearPend : Bool
  iterPend : Option Nat
  bits : Nat
  corr : Nat
  inner : Nat
  cw : Nat
  unc : Nat
  peak : Nat
  hist : Store Nat
  dec : StairDec
deriving DecidableEq, Repr

def LeFec.reset : LeFec := ⟨[], false, none, 0, 0, 0, 0, 0, 0, [], StairDec.reset⟩

/-! ### Framer (R155 to R191) -/

/-- A candidate slot of the hunt (R166, R167): its offset, how many correct patterns it has seen, and the last of them. -/
structure HuntSlot where
  off : Nat
  count : Nat
  fnum : Nat
  gnum : Nat
deriving DecidableEq, Repr

def HuntSlot.reset : HuntSlot := ⟨0, 0, 0, 0⟩

/-- A defect under integration (R172, R173, R176): its raw condition, whether the raw condition was asserted in the unit
in progress, whether the unit is skipped, the run of units against the present declaration, declared and reported. -/
structure Defect where
  raw : Bool
  seen : Bool
  skip : Bool
  run : Nat
  decl : Bool
  rept : Bool
deriving DecidableEq, Repr

def Defect.reset : Defect := ⟨false, false, false, 0, false, false⟩

/-- A second that waits for its commit (R183): its number, its serial number, the device time in 2^-32 ns at which it may be committed, inhibited, a
defect second, SES, its errored galleys and whether it counts as unavailable. -/
structure PmSecond where
  sec : Nat
  serial : Nat
  due : Nat
  inh : Bool
  ses : Bool
  es : Bool
  err : Nat
  uas : Bool
deriving DecidableEq, Repr

/-- A performance bin (R185, R191). -/
structure PmBin where
  es : Nat
  ses : Nat
  uas : Nat
  bbe : Nat
  is : Nat
  start : Nat
  used : Bool
  invalid : Bool
deriving DecidableEq, Repr

def PmBin.reset : PmBin := ⟨0, 0, 0, 0, 0, 0, false, false⟩

/-- Performance monitoring of a carrier or a flow: the second in progress (errored galleys, galleys, inhibited, defect
second), the seconds that wait, the present run with the serial of its first second, whether time is unavailable now and
as committed, and the bins (0 current quarter, 1 to 32 history, 33 current day, 34 previous day). -/
structure Pm where
  eg : Nat
  gal : Nat
  inh : Bool
  defSec : Bool
  wait : List PmSecond
  run : Nat
  runAt : Nat
  unavail : Bool
  committed : Bool
  bins : Store PmBin
deriving DecidableEq, Repr

/-- At reset no receive side runs and no flow is in service, so the first second is inhibited (R184). (Log 63: DEDUCED) -/
def Pm.reset : Pm := ⟨0, 0, true, false, [], 0, 0, false, false, []⟩

/-- The galley-scoped fields taken from a received galley (R162). -/
structure GalleyCopy where
  gnum : Nat
  bsig : List Nat
  ksig : List Nat
  sortStat : List Nat
deriving DecidableEq, Repr

/-- A carrier's framer beside its registers: the hunt's slots and the forme before; the runs of errored FAS, mismatches
and correct increments; the numbering expected of the next forme (R170) and the number of the next forme in the
alignment held; the copy taken in the galley in progress with whether a differing copy was counted; whether the galley is
errored and the carrier sorts spoilt in it; the copies of the last galleys, newest first (none: LOST); the tags areas handed on (none: not VALID); raw FECX
and received BDI; the exception of the LOL row (R172); the defects, with whether forme and galley alignment gave the grids of their
units (R173); the time of the last `FRM:FAS_IN_PAYLOAD`; and the
performance monitoring. -/
structure Frm where
  slots : Store HuntSlot
  prev : List Nat
  fasRun : Nat
  misRun : Nat
  okRun : Nat
  expect : Option (Nat × Nat)
  fly : Option (Nat × Nat)
  copy : Option GalleyCopy
  differ : Bool
  bad : Bool
  spoilt : List Nat
  copies : List (Nat × Option GalleyCopy)
  tags : List (Nat × Option (List Nat))
  rawFecx : Bool
  rxBdi : Bool
  lolHeld : Bool
  defects : Store Defect
  aligned : Bool × Bool
  payAt : Option Nat
  pm : Pm
deriving DecidableEq, Repr

def Frm.reset : Frm where
  slots := []
  prev := []
  fasRun := 0
  misRun := 0
  okRun := 0
  expect := none
  fly := none
  copy := none
  differ := false
  bad := false
  spoilt := []
  copies := []
  tags := []
  rawFecx := false
  rxBdi := false
  lolHeld := false
  defects := []
  aligned := (false, false)
  payAt := none
  pm := Pm.reset

/-- Performance monitoring as a whole (R183 to R187): the number of the second in progress, the serial of the next second to
end, and the current quarter and day: their numbers, first seconds, and whether a step restarted them. -/
structure PmClock where
  sec : Nat
  serial : Nat
  quarter : Nat
  startQ : Nat
  invQ : Bool
  day : Nat
  startD : Nat
  invD : Bool
deriving DecidableEq, Repr

def PmClock.reset : PmClock := ⟨0, 0, 0, 0, false, 0, 0, false⟩

/-! ### Flows and the bundle (R192 to R225) -/

/-- A map computed by PLACE (R206): the applied map's words by sort, the flows shed, the inputs it was computed from
(members, exclusion mask, home bank) and its identity. -/
structure PlacedMap where
  map : Store Nat
  shed : List Nat
  members : Nat
  excl : Nat
  home : Nat
  ident : Nat
deriving DecidableEq, Repr

def PlacedMap.reset : PlacedMap := ⟨[], [], 0, 0, 0, 0⟩

/-- A change of PLACE's inputs that waits for its computation (R206, R212): the reason and when it arose. -/
structure PlaceJob where
  reason : Nat
  since : Nat
deriving DecidableEq, Repr

/-- A transmit announcement (R212): its reason, the map it announces, when its inputs changed, and its galley A once
that galley's BSIG has frozen. -/
structure Announce where
  reason : Nat
  placed : PlacedMap
  since : Nat
  galleyA : Option Nat
deriving DecidableEq, Repr

/-- A receive switch that is armed (R213): the received galley of the switch, the map and whether its reason is PLANNED. -/
structure RxArm where
  galley : Nat
  placed : PlacedMap
  planned : Bool
deriving DecidableEq, Repr

/-- The last BSIG received (R209). -/
structure PeerBsig where
  members : Nat
  join : Nat
  excl : Nat
  homeId : Nat
  mapId : Nat
deriving DecidableEq, Repr

/-- A planned departure (R217): what asked for it (the held request is in the line engine), and when the transmit map
came to exclude the carrier. -/
structure Depart where
  txAt : Option Nat
  rxDone : Bool
deriving DecidableEq, Repr

/-- FMX beside its registers: the exclusion mask, the maps applied in each direction, the computation and the
announcement in progress, the armed receive switch, the last BSIG received, how long the partner's JOIN bit of each
carrier has been 0, the received HOME_ID last judged, the planned switch (when requested, and whether PLANNED has been
announced or read, and the bank it makes home), the galley whose BSIG was last taken, the TXN of the announcement last
judged, the copy of BSIG taken for that galley with the members whose copies have been compared with it (R210), the announcement
whose switch the frozen BSIG of the next galley states (R212), the galley whose cells are errored for its MAP_ID (R213), the MAX_NS in
force (R203), the offers withdrawn by a departure (R217), the departures, the next LSEQ of each flow to send and the LSEQ expected (0 unset, else value + 1),
the skews of the last galleys of each carrier with the markers of galleys that not every member has completed, the flows in breach of their bound, the flows whose host lanes
deliver nothing (R197), and whether the bundle is down. -/
structure Fmx where
  excl : Nat
  tx : PlacedMap
  rx : PlacedMap
  job : Option PlaceJob
  ann : Option Announce
  bsig : List Nat
  arm : Option RxArm
  peer : Option PeerBsig
  joinZero : Store Nat
  badHome : Option Nat
  plannedAt : Option Nat
  plannedSaid : Bool
  plannedBank : Nat
  bsigAt : Option Nat
  bsigGot : List Nat
  bsigSeen : List Nat
  switching : Option Announce
  annTxn : Option Nat
  badMap : Option Nat
  maxNs : Nat
  withdrawn : Nat
  departs : Store Depart
  departing : Nat
  lseqTx : Store Nat
  lseqRx : Store Nat
  skews : Store (List Int)
  balls : List (Nat × Nat × Option Int)
  breach : List Nat
  down : Bool
deriving DecidableEq, Repr

def Fmx.reset : Fmx where
  excl := 0
  tx := PlacedMap.reset
  rx := PlacedMap.reset
  job := none
  ann := none
  bsig := []
  arm := none
  peer := none
  joinZero := []
  badHome := none
  plannedAt := none
  plannedSaid := false
  plannedBank := 0
  bsigAt := none
  bsigGot := []
  bsigSeen := []
  switching := none
  annTxn := none
  badMap := none
  maxNs := 2560
  withdrawn := 0
  departs := []
  departing := 0
  lseqTx := []
  lseqRx := []
  skews := []
  balls := []
  breach := []
  down := false

/-! ### Cells and host lanes (R197 to R201, R226 to R261) -/

/-- A cell of a flow inside the part: its flags, its sequence number where it still carries one, its 248 payload bytes
and the clocked edge at which it entered the part, in ns since release (R39, R199, R240). -/
structure Cell where
  flow : Nat
  seq : Nat
  ptp : Bool
  late : Bool
  gap : Bool
  errored : Bool
  unver : Bool
  payload : List Nat
  edge : Nat
deriving DecidableEq, Repr

/-- A forme that a carrier's framer has handed on and FMX holds (R202): its numbers, when it arrived, the sample of its first symbol
and the bank that it was mapped with, its payload, and the carrier sorts that FEC has spoilt in it (R139). -/
structure RxForme where
  le : Nat
  gnum : Nat
  fnum : Nat
  at_ : Nat
  first : Nat
  bank : List Nat
  payload : List Nat
  bad : List Nat
deriving DecidableEq, Repr

/-- One polarisation of a data subcarrier in a forme (R58, R61, R62, R66, R67): its symbols on the unnormalised grid, pilots as
their signs, and the power of a step of that grid for data symbols and for pilots, in 2^-256 of a subcarrier's power without
gains. -/
structure TxSub where
  syms : List (Int × Int)
  data : Nat
  pilot : Nat
deriving DecidableEq, Repr

def TxSub.reset : TxSub := ⟨[], 0, 0⟩

/-- The forme last built on a carrier: its numbers, the overhead and the payload of its carrier sorts before scrambling (R156, R159),
the coded bits that the mapper took (R137, R142), its subcarriers, X before Y, and whether the intensity pattern of a time-path
calibration stands in place of its first symbols (R394). -/
structure TxForme where
  gnum : Nat
  fnum : Nat
  overhead : List Nat
  sorts : Store (List Nat)
  coded : List Bool
  subs : List TxSub
  pattern : Bool
deriving DecidableEq, Repr

def TxForme.reset : TxForme := ⟨0, 0, [], [], [], [], false⟩

/-- A beat at which a lane clock was compared with the time base (R267): the clock's symbol count, the moment in ns since release,
and the device time in 2^-32 ns. -/
structure BeatPair where
  count : Nat
  at_ : Nat
  time : Nat
deriving DecidableEq, Repr

/-- What a lane's last block gave of its clock: the symbol count at the block's first symbol, and the pairs of the beats about it. -/
structure LaneTimes where
  first : Nat
  pairs : List BeatPair
deriving DecidableEq, Repr

def LaneTimes.reset : LaneTimes := ⟨0, []⟩

/-- A logical lane beside its registers (R245 to R252): when its state was entered, whether its backoff has ended, the PRE_REQ, READY
and STATE last received for it, whether its own receiver has finished tuning, whether it has failed since the group last left RUN,
whether it reached ALIGN before the group ran or was released to the running group, the block starts in a row without a valid rimshot,
the symbols corrected in each of its last blocks (at most 64, newest first), and the receive clock of its last block. Of the physical
lane of the same number (R256): the test generator's register and last level sent, the checkers of both polarities and the last
level received. -/
structure HlnLane where
  stateAt : Nat
  backoffOver : Bool
  preReq : Bool
  ready : Bool
  peer : Nat
  tuned : Bool
  failed : Bool
  released : Bool
  misses : Nat
  symErrs : List Nat
  clock : LaneTimes
  gen : Nat
  genLast : Nat
  chk : Prbs
  chkInv : Prbs
  chkLast : Nat
deriving DecidableEq, Repr

def HlnLane.reset : HlnLane :=
  ⟨0, true, false, false, 0, false, false, false, 0, [], LaneTimes.reset, 0x7FFFFFFF, 0, Prbs.reset, Prbs.reset, 0⟩

/-- The valid rimshots in a row of a physical receive lane: the logical lane they name, how many there are, and how many of the last
ones carry STATE SYNC or later (R245, R246). -/
structure RimRun where
  lane : Nat
  valid : Nat
  active : Nat
deriving DecidableEq, Repr

def RimRun.reset : RimRun := ⟨0, 0, 0⟩

/-- The edge of a cell that starts a PTP frame, as the host lanes report it to Tympan (R255): received or sent, the flow and SEQ of
the cell, the block, the logical lane and unit position of its first byte, and the time of that unit's first symbol in 2^-16 ns. -/
structure PtpReport where
  sent : Bool
  flow : Nat
  seq : Nat
  bnum : Nat
  lane : Nat
  unit : Nat
  time : Int
deriving DecidableEq, Repr

/-- A set announced to the lane peer (R250): the set, the reason, the earliest start of its first block, and the
SWITCH_IN of the next block (5 before the first). -/
structure HlnAnn where
  set : Nat
  reason : Nat
  from_ : Nat
  left : Nat
deriving DecidableEq, Repr

/-- A lane group beside its registers: its lanes, the runs of rimshots of its physical lanes, the physical lanes with signal, the
HEALTH last taken, whether a header has been read since ALIGN, the run of blocks with LANES equal to S, the set of the lane peer's
blocks with the change it has announced and its last BNUM, the blocks without a valid header since HEALTH changed, the
announcement, whether the lane peer has already switched to the set, the blocks since the own switch block, the SHED changes still
to be said, the block last sent (header, cells, and the levels of each lane), its transmit clock, and the edges reported to
Tympan, newest first. -/
structure Hln where
  lanes : Store HlnLane
  runs : Store RimRun
  sig : Nat
  health : Nat
  peerSeen : Bool
  goodRun : Nat
  rxSet : Nat
  rxNext : Option (Nat × Nat)
  rxBnum : Nat
  noHdr : Option Nat
  ann : Option HlnAnn
  peerSwitched : Bool
  sinceSwitch : Option Nat
  told : List (Nat × Bool × Nat)
  header : List Nat
  cells : List (List Nat)
  levels : List (List Nat)
  txClock : LaneTimes
  reports : List PtpReport
deriving DecidableEq, Repr

def Hln.reset : Hln :=
  ⟨[], [], 0, 0, false, 0, 0, none, 0, none, none, false, none, [], [], [], [], LaneTimes.reset, []⟩

/-- The cell path between host lanes and line: each flow's next SEQ to send, its expected SEQ (0 unset, else value + 1),
its bucket (R243), the flows whose next accepted cell carries GAP, the lane-shed flows (R253), the cells of a paired flow
that wait for a missing SEQ (R244), the flows whose next delivered cell carries GAP, each flow's cells waiting for a forme,
each group's cells waiting for a block, the forme last built on each carrier, the received formes held for deskew, the
galley and forme last released, the carriers without which the last formes 15 were released (galley, carrier), the flows in which the galley in delivery was errored, or overran the deskew, and the flows that
send FAIS, or are cipher-blank, in the transmit galley in progress (R159, R163). -/
structure CellPath where
  seqTx : Store Nat
  seqRx : Store Nat
  bucket : Store Nat
  gapNext : List Nat
  shed : List Nat
  merge : Store (List Cell)
  gapOut : List Nat
  toLine : Store (List Cell)
  toHost : Store (List Cell)
  txFormes : Store TxForme
  rxFormes : List RxForme
  released : Option (Nat × Nat)
  missed : List (Nat × Nat)
  badFlows : List Nat
  overFlows : List Nat
  fais : List Nat
  blank : List Nat
deriving DecidableEq, Repr

def CellPath.reset : CellPath := ⟨[], [], [], [], [], [], [], [], [], [], [], none, [], [], [], [], []⟩

/-! ### Tympan (R262 to R300) -/

/-- A step of device time requested and not yet made (R275): the galley at whose start it is made and Δ in 2^-16 ns. -/
structure StepReq where
  galley : Nat
  delta : Int
deriving DecidableEq, Repr

/-- The partner's step as its notice announced it (R282): the instant in own device time (2^-16 ns), Δ and the epoch. -/
structure PeerStep where
  at_ : Int
  delta : Int
  epoch : Nat
  done : Bool
deriving DecidableEq, Repr

/-- What Tympan holds of a carrier (R279 to R284): its own transmit markers of sample galleys with their validity, the
transmit marker whose galley is still in progress, the receive markers of partner sample galleys with their times where they
are valid, the partner's TX_TIME
values (own time, galley, value), the two series of the interval, the per-second dispersion values of both ends with the
frequencies they belong to, and the dispersion term. Times in 2^-16 ns. -/
structure SpanCar where
  txMarks : List (Nat × Int)
  txOpen : Option (Nat × Int)
  rxMarks : List (Nat × Option Int)
  peerTx : List (Nat × Nat × Int)
  mrx : List (Int × Int)
  mtx : List (Int × Int)
  ownD : List (Option Int)
  peerD : List (Option Int)
  ownF : Nat
  peerF : Nat
  adisp : Option Int
  rejectAt : Option Nat
deriving DecidableEq, Repr

def SpanCar.reset : SpanCar := ⟨[], none, [], [], [], [], [], [], 0, 0, none, none⟩

/-- A dispersion fit (R284): determinant and numerators of the coefficients in (λ − 1,550 nm), λ in 10^-6 nm. -/
structure AsymFit where
  det : Int
  c0 : Int
  c1 : Int
  c2 : Int
deriving DecidableEq, Repr

/-- A time message of TOD_OUT (R274): the seconds and the UTC offset that it carries, and its start in device time (2^-16 ns). -/
structure TodOut where
  sec : Nat
  utc : Nat
  start : Int
deriving DecidableEq, Repr

/-- Tympan beside its registers: the integral term in 2^-64, an INCR that waits for the next galley start, whether the
state has been LOCKED since SRC was last written, the run of offsets within the lock threshold, the entry to and the last
exit from LOCKED, the INCR values applied with the time of each change (newest first), the servo's expectation of
1PPS_IN with its last accepted edge, whether an update has used that edge, its runs of faults and of counted edges, ToD and TIMECAL bookkeeping, the oscillator offset measured on
10MHZ_IN, the step, the partner's step and epoch, the exchange by carrier, the interval's end, the offsets θ_i of the
last intervals, the validity of θ, the fit, the SEQ of the time window (R294), the outputs' last edges, the last
whole second of device time that was acted on, and when HOLDOVER was last entered with whether its limit has been reported. -/
structure Tym where
  integ : Int
  incrNext : Option Nat
  everLocked : Bool
  lockRun : Nat
  lockIn : Nat
  lockOut : Option Nat
  incrLog : List (Nat × Nat)
  ppsExp : Option Int
  ppsCap : Option Int
  ppsNew : Bool
  ppsPrev : Option Int
  ppsFaults : Nat
  ppsRun : Nat
  ppsCount : Nat
  todAt : Nat
  todDiff : Nat
  todSaid : Bool
  tcalAt : Option Int
  f10 : Option Int
  step : Option StepReq
  peer : Option PeerStep
  peerKnown : Bool
  cars : Store SpanCar
  intervalAt : Nat
  thetas : List (Int × Int)
  contribAt : Option Nat
  contribRun : Nat
  fit : Option AsymFit
  mismatch : Bool
  mpd : Int
  seq : Nat
  pps0 : Option Int
  pps1 : Option Int
  tod : Option TodOut
  tcDiscards : Store Nat
  secAt : Nat
  holdAt : Nat
  holdSaid : Bool
deriving DecidableEq, Repr

def Tym.reset : Tym where
  integ := 0
  incrNext := none
  everLocked := false
  lockRun := 0
  lockIn := 0
  lockOut := none
  incrLog := []
  ppsExp := none
  ppsCap := none
  ppsNew := false
  ppsPrev := none
  ppsFaults := 0
  ppsRun := 0
  ppsCount := 0
  todAt := 0
  todDiff := 0
  todSaid := false
  tcalAt := none
  f10 := none
  step := none
  peer := none
  peerKnown := false
  cars := []
  intervalAt := 0
  thetas := []
  contribAt := none
  contribRun := 0
  fit := none
  mismatch := false
  mpd := 0
  seq := 0
  pps0 := none
  pps1 := none
  tod := none
  tcDiscards := []
  secAt := 0
  holdAt := 0
  holdSaid := false

/-! ### Chime channel (R301 to R323) -/

/-- A bit-loading proposal sent (R316): its payload without CANCEL, its SWITCH_GNUM, the first and the last sending, whether
it has been answered, and whether CANCEL is being sent. -/
structure Proposal where
  payload : List Nat
  switchGnum : Nat
  startAt : Nat
  lastAt : Nat
  answered : Bool
  cancel : Bool
deriving DecidableEq, Repr

/-- A line engine's chime channel beside its registers: when the present hello period began, whether a HELLO has been sent
since reset exit, the pending packets by type, when the channel is free of the packet on it, the reception in progress
(metric, latest end), the number expected, the last valid packet, the start of the absence time, when eligibility for
transfers last ended, the RESET_ID last received, the last `LE:CHIME_MISWIRE`, the TXN last used, the proposal, the
partner's proposal that is armed (TXN, SWITCH_GNUM), the place in the generator's period that the idle chips have reached, the bytes
and the chips of the last packet sent, and the identity last received. -/
structure LeChm where
  helloAt : Nat
  helloSent : Bool
  pend : Store (List Nat)
  freeAt : Nat
  heard : Option (Nat × Nat)
  expected : Option Nat
  validAt : Nat
  absFrom : Option Nat
  lackFrom : Nat
  resetSeen : Option Nat
  miswireAt : Option Nat
  txn : Nat
  proposal : Option Proposal
  armed : Option (Nat × Nat)
  idle : Nat
  sent : List Nat
  chips : List Int
  ident : Option (List Nat)
deriving DecidableEq, Repr

def LeChm.reset : LeChm where
  helloAt := 0
  helloSent := false
  pend := []
  freeAt := 0
  heard := none
  expected := none
  validAt := 0
  absFrom := none
  lackFrom := 0
  resetSeen := none
  miswireAt := none
  txn := 0
  proposal := none
  armed := none
  idle := 0
  sent := []
  chips := []
  ident := none

/-- An outgoing transfer (R318): its class, record and XID, the fragment in turn with its sendings, its carrier and the
moment of the last sending, and when the transfer started. -/
structure Xfer where
  cls : Nat
  data : List Nat
  xid : Nat
  frag : Nat
  sends : Nat
  le : Nat
  sentAt : Nat
  startAt : Nat
deriving DecidableEq, Repr

/-- A partial record received (R318): XID, class, number of fragments, the fragments so far, when the last new one came,
the carrier of its last fragment, and whether its owner is checking it. -/
structure Partial where
  xid : Nat
  cls : Nat
  nfrag : Nat
  frags : List (Nat × List Nat)
  at_ : Nat
  le : Nat
  checking : Bool
deriving DecidableEq, Repr

/-- The chime channel of the whole device: outgoing transfers in order, partial records, the verdicts kept (XID, status,
time), the RESET_ID last received from the partner, the last sending of a step notice, and the count of
the draw that gave this device's RESET_ID. -/
structure Chime where
  xfers : List Xfer
  partials : List Partial
  verdicts : List (Nat × Nat × Nat)
  peerReset : Nat
  noticeAt : Nat
  resetDraw : Nat
deriving DecidableEq, Repr

def Chime.reset : Chime := ⟨[], [], [], 0, 0, 0⟩

/-! ### Cipher and key store (R324 to R364) -/

/-- A Carillon slot (R339, R340): its state, its origin (generated or transported), key, salt and check value, and its
switch galley while ARMED. -/
structure KeySlot where
  state : Nat
  generated : Bool
  key : List Nat
  salt : Nat
  kcv : Nat
  switchAt : Nat
deriving DecidableEq, Repr

def KeySlot.reset : KeySlot := ⟨0, false, [], 0, 0, 0⟩

/-- A flow's cipher state (R326 to R338): the transmit counter at the start of the open galley, its sorts there,
exhausted, erased and warned; the tags of the open galley's sort-formes by 16 i + r; the receive counter and members of
the galley in delivery, the bank it uses, its tags, whether any sort-forme was absent, the
flow's sorts in it, and the cells held with their forme and sort; a received ERASE (galley and forme), whether
VALID cells are discarded until a switch, a key mismatch, a KEY condition from key signalling, a counter and bank adopted
from a checkpoint with their galley; the raw KEY condition; the counts; the time of the last `CYP:TAG_FAIL`; and the RDY
last received (bank, KCV, time). -/
structure CypFlow where
  txCtr : Nat
  txSorts : List Nat
  exhausted : Bool
  erased : Bool
  warn : Bool
  txTags : Store (List Nat)
  rxCtr : Nat
  rxN : Nat
  rxBank : Nat
  rxTags : Store (List Nat)
  rxAbsent : Bool
  rxSorts : List Nat
  held : List (Nat × Nat × Cell)
  eraseAt : Option (Nat × Nat)
  stop : Bool
  mismatch : Bool
  keySig : Bool
  adopt : Option (Nat × Nat × Nat)
  keyRaw : Bool
  tagFail : Nat
  discard : Nat
  tagOk : Nat
  failAt : Option Nat
  rdy : Option (Nat × Nat × Nat)
deriving DecidableEq, Repr

def CypFlow.reset : CypFlow where
  txCtr := 0
  txSorts := []
  exhausted := false
  erased := false
  warn := false
  txTags := []
  rxCtr := 0
  rxN := 0
  rxBank := 0
  rxTags := []
  rxAbsent := false
  rxSorts := []
  held := []
  eraseAt := none
  stop := false
  mismatch := false
  keySig := false
  adopt := none
  keyRaw := false
  tagFail := 0
  discard := 0
  tagOk := 0
  failAt := none
  rdy := none

/-- A receive switch announced by the partner (R353): its flow, bank and galley, and whether the slot was found ready. -/
structure RxSwitch where
  flow : Nat
  bank : Nat
  galley : Nat
  ready : Bool
deriving DecidableEq, Repr

/-- A received transport record under its checks (R348): the transfer's XID, the record, and whether its sender is the
paired partner. -/
structure Transport where
  xid : Nat
  record : List Nat
  paired : Bool
deriving DecidableEq, Repr

/-- Carillon and CYP beside their registers: the slots and flows; the command in progress and its slot; the next transport
sequence and the last accepted; the alarm conditions present and since when none is; the announced switch (flow, bank,
KCV, copies left); the erases waiting for a forme boundary; the ERASE fields still to be sent (flow, forme) and whether
ALARM is; the last flow of the checkpoint cycle, the flow with priority and its galleys left; the RDY queue and cycle; the
receive switches; the record under check; the tags of the next forme 0 by carrier × 128 + slot; the galley whose tags the
partner's alarm voids; the galley in delivery; whether a partner's HELLO has been received; the
KSIG last frozen; and the count of the draw that gave the import nonce. -/
structure Car where
  slots : Store KeySlot
  flows : Store CypFlow
  op : Nat
  arg : Nat
  seqTx : Nat
  seqRx : Nat
  present : Nat
  goneAt : Nat
  sw : Option (Nat × Nat × Nat × Nat)
  erasing : List Nat
  eraseSay : List (Nat × Nat)
  alarmSay : Bool
  ckptLast : Nat
  ckptFirst : Option (Nat × Nat)
  rdyNew : List Nat
  rdyLast : Nat
  rxSw : List RxSwitch
  transport : Option Transport
  tagsOut : Store (List Nat)
  voidGalley : Option Nat
  rxGalley : Option Nat
  peerSeen : Bool
  ksig : List Nat
  nonceDraw : Nat
deriving DecidableEq, Repr

def Car.reset : Car where
  slots := []
  flows := []
  op := 0
  arg := 0
  seqTx := 1
  seqRx := 0
  present := 0
  goneAt := 0
  sw := none
  erasing := []
  eraseSay := []
  alarmSay := false
  ckptLast := 1023
  ckptFirst := none
  rdyNew := []
  rdyLast := 4095
  rxSw := []
  transport := none
  tagsOut := []
  voidGalley := none
  rxGalley := none
  peerSeen := false
  ksig := []
  nonceDraw := 1

/-! ### Trust (R365 to R383) and the bundle partner (R21) -/

/-- An image as the flash or the staging area holds it (R367), with whether it answered. -/
structure Image where
  answers : Bool
  bytes : List Nat
deriving DecidableEq, Repr

/-- The response to a DOE request (R440, R441, R378, R379): what the reader of the mailbox gets. -/
inductive DoeReply where
  | discovery (vendor type next : Nat)
  | cdat (header : Bool) (next : Nat) (bytes : List Nat)
  | version
  | capabilities
  | algorithms
  | digests (digest : Option (List Nat))
  | certificate (portion : List Nat) (remain : Nat)
  | challengeAuth (digest : Option (List Nat)) (nonce : Nat) (summary : Option (List Nat)) (signature : Nat)
  | measurements (blocks : List (Nat × Nat × List Nat)) (nonce : Nat) (signature : Option Nat)
  | errorBusy
  | errorUnsupported
  | errorInvalid
deriving DecidableEq, Repr

/-- The trust unit beside its registers: the derived key usable; the anchor's modulus and digest; the pairing record; the
running command; the chain of certificates the device serves; the image chosen by the ROM; the measurements of indices
1 to 4 and 8; when the fuses sealed; the partner's identity chosen without a pairing record (R21), the identities received
in the galley in progress (line engine, HELLO payload), and the RESET_ID values of the partner for which a pairing digest has
been sent; the length of the staged image; the segments of the booted image as loaded, DEST and bytes (R367, R369); and whether
an error in the trust store has made key, anchor and pairing record unusable (R417). -/
structure Trust where
  anchor : Option Nat
  anchorDigest : List Nat
  pairing : List Nat
  cmd : Nat
  chain : List Nat
  romDigest : List Nat
  header : List Nat
  sealAt : Nat
  partner : Option (List Nat)
  firsts : List (Nat × List Nat)
  digestSent : List Nat
  hostLen : Nat
  loaded : List (Nat × List Nat)
  lost : Bool
deriving DecidableEq, Repr

def Trust.reset : Trust := ⟨none, [], [], 0, [], [], [], 0, none, [], [], 0, [], false⟩

/-! ### Calibration and the housekeeping monitor (R384 to R414) -/

/-- The calibration in progress beside its registers (R387): the set words measured or the path delay in ps, when MEASURE
began, T_grid of the last sample galley since (2^-32 ns), and the captures of a time path, newest first: the delays of
TXPATH, or the trigger edges' times of RXPATH, in 2^-16 ns. -/
structure CalRun where
  words : List Nat
  delay : Nat
  since : Nat
  sample : Option Nat
  caps : List Int
deriving DecidableEq, Repr

def CalRun.reset : CalRun := ⟨[], 0, 0, none, []⟩

/-- A line of the monitor's results (R411): code, scaled value, STALE, TEST and out of limits. -/
structure MonLine where
  code : Nat
  scaled : Nat
  stale : Bool
  test : Bool
  out : Bool
deriving DecidableEq, Repr

def MonLine.reset : MonLine := ⟨0, 0, false, false, false⟩

/-- A detector slot (R407, R408): the CIC's integrators and combs and its input samples since an output; the last 31 CIC
outputs; the input samples since a restart; the window's samples, peak and sum of squares, and whether it began unsettled;
and what it reports. -/
structure MonSlot where
  int1 : Nat
  int2 : Nat
  int3 : Nat
  comb1 : Nat
  comb2 : Nat
  comb3 : Nat
  phase : Nat
  hist : List Int
  seen : Nat
  count : Nat
  top : Nat
  squares : Nat
  early : Bool
  peak : Nat
  rms : Nat
  env : Nat
  windows : Nat
  gap : Bool
  stale : Bool
  test : Bool
deriving DecidableEq, Repr

def MonSlot.reset : MonSlot where
  int1 := 0
  int2 := 0
  int3 := 0
  comb1 := 0
  comb2 := 0
  comb3 := 0
  phase := 0
  hist := []
  seen := 0
  count := 0
  top := 0
  squares := 0
  early := true
  peak := 0
  rms := 0
  env := 0
  windows := 0
  gap := false
  stale := false
  test := false

/-- The monitor beside its registers (R401 to R409): the conversion in progress (0 none, 1 of the sequence, 2 injected,
3 calibration) and its end; the conversions made of the present entry with the sums of their codes and scaled values; a
calibration that waits; sequence runs since reset; the results and detector slots; the input that the test DAC is switched
onto, and a change of it that waits; the last trigger of the timer; and the last `MON:DATA_OVR` and `MON:TRIG_OVR`. -/
structure Mon where
  busy : Nat
  endAt : Nat
  done : Nat
  sum : Nat
  sumScaled : Int
  calWait : Bool
  runs : Nat
  lines : Store MonLine
  slots : Store MonSlot
  tdac : Option Nat
  tdacNext : Option (Option Nat)
  trigAt : Nat
  dataSaid : Option Nat
  trigSaid : Option Nat
deriving DecidableEq, Repr

def Mon.reset : Mon where
  busy := 0
  endAt := 0
  done := 0
  sum := 0
  sumScaled := 0
  calWait := false
  runs := 0
  lines := []
  slots := []
  tdac := none
  tdacNext := none
  trigAt := 0
  dataSaid := none
  trigSaid := none


/-! ### Memory protection and scrubbing (R415 to R430) -/

/-- What is wrong with a byte (R415): the data bits flipped by injection, and the further bits found struck. -/
structure BadByte where
  mask : Nat
  struck : Nat
deriving DecidableEq, Repr

def BadByte.none : BadByte := ⟨0, 0⟩

/-- An entry of a recurrence tracker (R423): its word, count, opening, LASTING and PRIORITY marks, and whether a write-back
has followed the last counted correction. -/
structure Tracked where
  word : Nat
  count : Nat
  openAt : Nat
  lasting : Bool
  priority : Bool
  armed : Bool
deriving DecidableEq, Repr

/-- A spare row (R425, R430): the row it serves, FAILED and COPYING. -/
structure Spare where
  row : Nat
  failed : Bool
  copying : Bool
deriving DecidableEq, Repr

/-- Memory protection beside its registers: damaged bytes by region × 2^25 + offset; counts by region × 4 (CORR, UNCORR, WB,
TRK_OVF); the trackers by region × 16 + entry; the spares by region × 8 + spare; the scrubber's region, each region's next
offset, the start of its lap and whether the lap has been reported late; the last `ECC:TRK_FULL`; and the management cores
that do not run (1 trapped, 2 held until reset). -/
structure Ecc where
  bad : Store BadByte
  counts : Store Nat
  track : Store (Option Tracked)
  spares : Store (Option Spare)
  region : Nat
  next : Store Nat
  lapAt : Store (Option Nat)
  lateSaid : List Nat
  fullSaid : Option Nat
  cores : Store Nat
deriving DecidableEq, Repr

def Ecc.reset : Ecc := ⟨[], [], [], [], 0, [], [], [], none, []⟩


/-! ### Event queues (R459 to R467) -/

/-- The four little-endian words of a queue slot, an entry or a slug (R459). -/
structure Quad where
  w0 : Nat
  w1 : Nat
  w2 : Nat
  w3 : Nat
deriving DecidableEq, Repr

def Quad.zero : Quad := ⟨0, 0, 0, 0⟩

/-- An event queue: its slots (mirrored in HDM, R465), its two positions, its depth, the next number to assign, the
slug present in each bank, the depth peak since the last read, and the vector's holdoff (R467). -/
structure Queue where
  slots : Store Quad
  wp : Nat
  rp : Nat
  depth : Nat
  seq : Nat
  epoch : Nat
  slug0 : Bool
  slug1 : Bool
  peak : Nat
  popped : Quad
  holdUntil : Nat
  holdPend : Bool
deriving DecidableEq, Repr

def Queue.reset : Queue := ⟨[], 0, 0, 0, 0, 0, false, false, 0, Quad.zero, 0, false⟩

/-! ### Retained store (R488, R489) -/

/-- The last copy that the device took of its state (R488). -/
structure RetCopy where
  sec : Nat
  ns : Nat
  gnum : Nat
  vcore : Nat
  hot : Nat
  dips : List Nat
  svn : Nat
  sticky : Nat
deriving DecidableEq, Repr

def RetCopy.reset : RetCopy := ⟨0, 0, 0, 0, 0x8000, [0, 0, 0, 0, 0, 0, 0], 0, 0⟩

/-- A reset record (R489): its cause, the rails of a SUPPLY reset, whether the fuses were sealed, and the copy. -/
structure RetRec where
  cause : Nat
  rails : Nat
  sealedAt : Bool
  copy : RetCopy
deriving DecidableEq, Repr

/-- The retained store: the check's verdict at the last release, the next record, the chip resets since the last POR,
the records in ring order, each queue's next tail index and the event tails (`queue * 960 + index`). -/
structure Retained where
  valid : Bool
  next : Nat
  resets : Nat
  recs : Store RetRec
  tailIdx : Store Nat
  tails : Store Quad
  copy : RetCopy
deriving DecidableEq, Repr

/-- The retained store after the release that follows a POR: cleared, with the POR's record completed. (Log 14: DESIGN CHOICE) -/
def Retained.reset : Retained :=
  ⟨false, 1, 0, [(0, ⟨1, 0, false, RetCopy.reset⟩)], [], [], RetCopy.reset⟩

/-! ### Reset, supplies and AVSBus (R477 to R500) -/

/-- Reset and supply state: held in reset, the sources active, the cause recorded with its rails and
whether the fuses were sealed, the time since which every rail
has been good, and that since which VCORE has been (R31), the undervoltage and overvoltage references of VCORE with the end of their window (R494), the AVSBus
retries and whether a target write waits (R497), the hottest temperature since the release, and the HOT condition. -/
structure Power where
  inReset : Bool
  active : List Nat
  cause : Nat
  rails : Nat
  wasSealed : Bool
  goodSince : Option Nat
  vcoreSince : Option Nat
  uvRef : Nat
  ovRef : Nat
  avsWindow : Option Nat
  avsTries : Nat
  avsWrite : Bool
  avsSent : Nat
  hotMax : Nat
  hot : Bool
deriving DecidableEq, Repr

def Power.reset : Power := ⟨false, [], 1, 0, false, some 0, some 0, 750, 750, none, 0, false, 750, 0x8000, false⟩

/-- The VCORE arbiter (R30 to R33): acting, the times of the last steps, the time since which every margin that takes
part has been above its HIGH_MARGIN. -/
structure Arbiter where
  acting : Bool
  lastUp : Option Nat
  lastDown : Option Nat
  highSince : Option Nat
deriving DecidableEq, Repr

def Arbiter.reset : Arbiter := ⟨false, none, none, none⟩

/-! ### The host interface (R431 to R446, R466 to R471) -/

/-- A snapshot slot (R444): its SEQ and header, and its image by byte offset of each word. -/
structure SnapSlot where
  seq : Nat
  gnum : Nat
  sec : Nat
  ns : Nat
  frac : Nat
  forced : Bool
  img : Store Nat
deriving DecidableEq, Repr

def SnapSlot.reset : SnapSlot := ⟨0, 0, 0, 0, 0, false, []⟩

/-- A capture in progress (R446): armed for the next galley start, or running since it. -/
structure Capture where
  armed : Bool
  gnum : Nat
  index : Nat
deriving DecidableEq, Repr

def Capture.reset : Capture := ⟨false, 0, 0⟩

/-- The host side beside its registers: the HDM store written to zero since reset, `Memory_Info_Valid` with `Memory_Active`,
and the decoder committed (R439); the DOE object in progress, DOE Error and the last response (R440); the times of the last
rate-limited events; a snapshot requested with NOW and the slot being written (R443); the last fence (R454); the bytes moved
by each DMA channel's descriptor in progress, and what each channel last wrote to host memory: address and bytes (R470). -/
structure HostSide where
  zeroed : Bool
  active : Bool
  decoder : Bool
  doeBusy : Bool
  doeError : Bool
  doeResp : Option DoeReply
  badAt : Option Nat
  poisonAt : Option Nat
  snapNow : Bool
  snapBusy : Option Nat
  moved : Store Nat
  toHost : Store (Nat × List Nat)
deriving DecidableEq, Repr

def HostSide.reset : HostSide := ⟨false, false, false, false, false, none, none, none, false, none, [], []⟩

/-! ### The line engines -/

/-- The state of one line engine beside its registers. `partner` says that the last HELLO named the bundle partner (R310). -/
structure Le where
  lowSpell : Bool
  ceilSpell : Bool
  helloNow : Bool
  tx : LeTx
  rx : LeRx
  fec : LeFec
  frm : Frm
  partner : Bool
  chm : LeChm
deriving DecidableEq, Repr

def Le.reset : Le := ⟨false, false, false, LeTx.reset, LeRx.reset, LeFec.reset, Frm.reset, false, LeChm.reset⟩

/-! ### The device and the machine -/

/-- Everything of the part but the HDM bytes and the queue of commands: register fields and tables by key, frozen views,
latched RL groups, the words of the last read command, the time since the last release in ns, whether the time base is
locked, device time in 2^-32 ns, the transmit galley counter and the start of the next galley, and the blocks' own
state. `free` counts the values that the spec leaves open and that a command has drawn. -/
structure Dev where
  regs : Store Nat
  tabs : Store Nat
  frozen : Store Nat
  latch : Store Nat
  readData : List Nat
  now : Nat
  locked : Bool
  dt : Nat
  lockAt : Nat
  incr : Nat
  tgrid : Nat
  grid : List (Nat × Nat × Nat)
  gnum : Nat
  nextGalley : Nat
  galleys : Nat
  formes : Nat
  power : Power
  arb : Arbiter
  host : HostSide
  msix : Store Nat
  vec : Store Nat
  queues : Store Queue
  snaps : Store SnapSlot
  cap : Capture
  fuse : List Nat
  pins : Store Nat
  ret : Retained
  lim : Limiter
  les : Store Le
  fmx : Fmx
  grps : Store Hln
  path : CellPath
  tym : Tym
  vault : Car
  trust : Trust
  calRun : CalRun
  mon : Mon
  ecc : Ecc
  chime : Chime
  pmClock : PmClock
  flowPm : Store Pm
  flowDef : Store Defect
  free : Nat
deriving DecidableEq, Repr

def Dev.reset : Dev where
  regs := []
  tabs := []
  frozen := []
  latch := []
  readData := []
  now := 0
  locked := false
  dt := 0
  lockAt := 0
  incr := 0x2000000000
  tgrid := 0
  grid := []
  gnum := 0
  nextGalley := 0
  galleys := 0
  formes := 0
  power := Power.reset
  arb := Arbiter.reset
  host := HostSide.reset
  msix := []
  vec := []
  queues := []
  snaps := []
  cap := Capture.reset
  fuse := []
  pins := []
  ret := Retained.reset
  lim := Limiter.reset
  les := []
  fmx := Fmx.reset
  grps := []
  path := CellPath.reset
  tym := Tym.reset
  vault := Car.reset
  trust := Trust.reset
  calRun := CalRun.reset
  mon := Mon.reset
  ecc := Ecc.reset
  chime := Chime.reset
  pmClock := PmClock.reset
  flowPm := []
  flowDef := []
  free := 2

/-- The machine: the commands that wait, first in, first out; the HDM bytes; and the device. -/
structure State where
  pending : List Instr
  mem : List Host.Cell
  dev : Dev
deriving DecidableEq, Repr

/-- What an HDM byte that nothing has written reads as: the store is written to zero after reset exit (R439). (Log 18: DESIGN CHOICE) -/
def memReset (_ : Nat) : Byte := 0

/-- The canonical form of the HDM bytes. (Log 18: DESIGN CHOICE) -/
abbrev Memory.wf (m : List Host.Cell) : Bool := Store.wf memReset m

/-- The machine right after the release that follows a POR (R477, R480). (Log 14: DESIGN CHOICE) -/
def State.reset : State := ⟨[], [], Dev.reset⟩

end Sys2Proof.Machine
end

