-- ==== Sys2Proof/Machine/TabMap.lean ====
section
/-! DEFINITION. The indirect tables that are held as words (R455): their keys and their reset contents. -/

namespace Sys2Proof.Machine

/-- The key of word `w` of entry `idx` of table `sel` of page `p`. -/
def tabKey (p sel idx w : Nat) : Nat := ((p * 256 + sel) * 65536 + idx) * 8 + w

/-- The reset contents of both ramp tables (R82): point k holds round(65,535 × (1 − cos(π k / 63)) / 2). -/
def raisedCosine : List Nat :=
  [0, 41, 163, 366, 650, 1013, 1456, 1976, 2573, 3245, 3990, 4807, 5694, 6647, 7666, 8747] ++
  [9888, 11086, 12337, 13640, 14990, 16384, 17819, 19291, 20796, 22331, 23893, 25476, 27077, 28693, 30319, 31951] ++
  [33584, 35216, 36842, 38458, 40059, 41642, 43204, 44739, 46244, 47716, 49151, 50545, 51895, 53198, 54449, 55647] ++
  [56788, 57869, 58888, 59841, 60728, 61545, 62290, 62962, 63559, 64079, 64522, 64885, 65169, 65372, 65494, 65535]

/-- One word of the integration table (R191): CLEAR, SET, UNIT, PM, CFAIL, BDI, EVENT. -/
def integrationWord (clear set unit pm cfail bdi event : Nat) : Nat :=
  clear * pow2 20 + set * pow2 8 + unit * pow2 6 + pm * 8 + cfail * 4 + bdi * 2 + event

/-- The defaults of the integration table (R174). -/
def integrationReset : List Nat :=
  [integrationWord 0 0 0 1 1 1 1, integrationWord 0 0 0 1 1 1 1, integrationWord 0 0 0 1 1 1 1,
   integrationWord 0 0 0 1 1 1 1, integrationWord 16 2 1 1 1 1 1, integrationWord 5 5 0 0 1 0 1,
   integrationWord 2 2 1 1 0 0 1, integrationWord 3 3 1 1 0 0 1, integrationWord 16 1 1 1 0 0 1]

/-- What a table word holds when nothing has been written to it since reset. (Log 17: DESIGN CHOICE) -/
def tabWordReset (k : PageKind) (sel idx w : Nat) : Nat :=
  match k, sel, w with
  | .tx, 0x01, 0 => if idx < 16 then 0x4003 else 0
  | .tx, 0x02, 0 => if idx < 16 then 0x4003 else 0
  | .rx, 0x01, 0 => if idx < 16 then 0x4003 else 0
  | .rx, 0x02, 0 => if idx < 16 then 0x4003 else 0
  | .tx, 0x06, 0 => raisedCosine.getD idx 0
  | .tx, 0x07, 0 => raisedCosine.getD idx 0
  | .frmc, 0x01, 0 => integrationReset.getD idx 0
  | .tymS, 0x01, w => if idx < 8 ∧ w < 4 then 0xFFFFFFFF else 0
  | .det, 0x01, 0 => if idx < 16 then 1024 * pow2 16 + 8 * pow2 8 else 0
  | .cal, 0x02, 0 =>
    if 512 ≤ idx then 0
    else if 4 ≤ idx % 64 ∧ idx % 64 ≤ 7 then 0x40000000
    else if 12 ≤ idx % 64 ∧ idx % 64 ≤ 59 ∧ (idx % 64 - 12) % 12 = 5 then 0x40000000
    else 0
  | .cal, 0x03, 0 => if 3 ≤ idx ∧ idx ≤ 5 then 0x80000000 else 0
  | _, _, _ => 0

/-- The reset value of a table word by its key. -/
def tabReset (key : Nat) : Nat :=
  match decodePage (key / 8 / 65536 / 256) with
  | none => 0
  | some (k, _) => tabWordReset k (key / 8 / 65536 % 256) (key / 8 % 65536) (key % 8)

end Sys2Proof.Machine
end

