-- ==== Sys2Proof/Machine/Ops.lean ====
section
/-! DEFINITION. The named operations over registers, tables and the blocks' state that every meaning is made of. -/

namespace Sys2Proof.Machine

/-! ### Register fields -/

/-- The value of field `f` of page instance `i`. -/
def Dev.get (d : Dev) (f : Fld) (i : Nat) : Nat := Store.get regReset d.regs (f.key i 0)

/-- The value of field `f` of page instance `i`, array register `j`. -/
def Dev.getJ (d : Dev) (f : Fld) (i j : Nat) : Nat := Store.get regReset d.regs (f.key i j)

/-- Field `f` of page instance `i` set to the lowest bits of `v`. (Log 5: DESIGN CHOICE) -/
def Dev.set (d : Dev) (f : Fld) (i v : Nat) : Dev :=
  { d with regs := Store.set regReset d.regs (f.key i 0) (trunc f.width v) }

/-- Field `f` of array register `j` of page instance `i` set to the lowest bits of `v`. -/
def Dev.setJ (d : Dev) (f : Fld) (i j v : Nat) : Dev :=
  { d with regs := Store.set regReset d.regs (f.key i j) (trunc f.width v) }

/-- Is the one-bit field 1? -/
def Dev.flag (d : Dev) (f : Fld) (i : Nat) : Bool := d.get f i == 1

/-- A one-bit field set from a Boolean. -/
def Dev.setB (d : Dev) (f : Fld) (i : Nat) (b : Bool) : Dev := d.set f i (b1 b)

/-- A saturating count advanced by `n`. (Log 38: DEDUCED) -/
def Dev.addSat (d : Dev) (f : Fld) (i n : Nat) : Dev := d.set f i (capN (pow2 f.width - 1) (d.get f i + n))

/-- A saturating count of an array register advanced by `n`. -/
def Dev.addSatJ (d : Dev) (f : Fld) (i j n : Nat) : Dev :=
  d.setJ f i j (capN (pow2 f.width - 1) (d.getJ f i j + n))

/-- A saturating count advanced by one. -/
def Dev.bump (d : Dev) (f : Fld) (i : Nat) : Dev := d.addSat f i 1

/-- The signed value of a field. -/
def Dev.getS (d : Dev) (f : Fld) (i : Nat) : Int := sgn f.width (d.get f i)

/-- A field set to the two's complement pattern of an integer. -/
def Dev.setS (d : Dev) (f : Fld) (i : Nat) (v : Int) : Dev := d.set f i (unsgn f.width v)

/-- A 64-bit count held in a LO and HI pair. -/
def Dev.get64 (d : Dev) (lo hi : Fld) (i : Nat) : Nat := d.get lo i + pow2 32 * d.get hi i

/-- A 64-bit value written to a LO and HI pair. -/
def Dev.set64 (d : Dev) (lo hi : Fld) (i v : Nat) : Dev := (d.set lo i v).set hi i (v / pow2 32)

/-! ### Bits of a field that holds one bit per instance -/

/-- Bit `n` of `m` set or cleared. -/
def setBit (m n : Nat) (b : Bool) : Nat :=
  if bitOf m n == b then m else if b then m + pow2 n else m - pow2 n

/-- Bit `n` of field `f`. -/
def Dev.bit (d : Dev) (f : Fld) (i n : Nat) : Bool := bitOf (d.get f i) n

/-- Bit `n` of field `f` set or cleared. -/
def Dev.putBit (d : Dev) (f : Fld) (i n : Nat) (b : Bool) : Dev := d.set f i (setBit (d.get f i) n b)

/-! ### Table words -/

/-- Word `w` of entry `idx` of table `sel` of page `p`. -/
def Dev.tab (d : Dev) (p sel idx w : Nat) : Nat := Store.get tabReset d.tabs (tabKey p sel idx w)

/-- A table word written. -/
def Dev.setTab (d : Dev) (p sel idx w v : Nat) : Dev :=
  { d with tabs := Store.set tabReset d.tabs (tabKey p sel idx w) (trunc 32 v) }

/-! ### The line engines' state -/

/-- The state of line engine `n`. -/
def Dev.le (d : Dev) (n : Nat) : Le := Store.get (fun _ => Le.reset) d.les n

/-- The state of line engine `n` replaced. -/
def Dev.setLe (d : Dev) (n : Nat) (x : Le) : Dev := { d with les := Store.set (fun _ => Le.reset) d.les n x }

/-- The transmit state of line engine `n` replaced. -/
def Dev.modTx (d : Dev) (n : Nat) (f : LeTx → LeTx) : Dev := d.setLe n { d.le n with tx := f (d.le n).tx }

/-- The receive state of line engine `n` replaced. -/
def Dev.modRx (d : Dev) (n : Nat) (f : LeRx → LeRx) : Dev := d.setLe n { d.le n with rx := f (d.le n).rx }

/-- The decoder state of line engine `n` replaced. -/
def Dev.modFec (d : Dev) (n : Nat) (f : LeFec → LeFec) : Dev := d.setLe n { d.le n with fec := f (d.le n).fec }

/-- The framer state of line engine `n` replaced. -/
def Dev.modFrm (d : Dev) (n : Nat) (f : Frm → Frm) : Dev := d.setLe n { d.le n with frm := f (d.le n).frm }

/-- The chime channel of line engine `n` changed. -/
def Dev.modChm (d : Dev) (n : Nat) (f : LeChm → LeChm) : Dev := d.setLe n { d.le n with chm := f (d.le n).chm }

/-- Event queue `q`. -/
def Dev.queue (d : Dev) (q : Nat) : Queue := Store.get (fun _ => Queue.reset) d.queues q

/-- Event queue `q` replaced. -/
def Dev.setQueue (d : Dev) (q : Nat) (x : Queue) : Dev :=
  { d with queues := Store.set (fun _ => Queue.reset) d.queues q x }

/-- Lane group `g`. -/
def Dev.grp (d : Dev) (g : Nat) : Hln := Store.get (fun _ => Hln.reset) d.grps g

/-- Lane group `g` changed. -/
def Dev.modGrp (d : Dev) (g : Nat) (f : Hln → Hln) : Dev :=
  { d with grps := Store.set (fun _ => Hln.reset) d.grps g (f (d.grp g)) }

/-- Logical lane `l` of group `g`. -/
def Dev.lane (d : Dev) (g l : Nat) : HlnLane := Store.get (fun _ => HlnLane.reset) (d.grp g).lanes l

/-- Logical lane `l` of group `g` changed. -/
def Dev.modLane (d : Dev) (g l : Nat) (f : HlnLane → HlnLane) : Dev :=
  d.modGrp g fun x => { x with lanes := Store.set (fun _ => HlnLane.reset) x.lanes l (f (d.lane g l)) }

/-- The cell path changed. -/
def Dev.modPath (d : Dev) (f : CellPath → CellPath) : Dev := { d with path := f d.path }

/-! ### Time (R262 to R265) -/

/-- A microsecond, a millisecond and a second in ns. -/
def us (n : Nat) : Nat := n * 1000
def ms (n : Nat) : Nat := n * 1000000
def sec (n : Nat) : Nat := n * 1000000000

/-- A forme, a galley and a beat in ns. -/
def formeNs : Nat := 1280
def galleyNs : Nat := 20480
def beatNs : Nat := 32

/-- The last galley start at or before moment `t` among those kept: the moment, T_grid and the INCR in force. (Log 4: DESIGN CHOICE) -/
def Dev.gridBefore (d : Dev) (t : Nat) : Option (Nat × Nat × Nat) := d.grid.find? fun e => decide (e.1 ≤ t)

/-- Device time, in 2^-32 ns, at moment `t` (ns since release): counted by beats, with linear interpolation within a beat
(R263); a past moment is placed from the galley start before it (R266). (Log 4: DESIGN CHOICE) -/
def Dev.timeAt (d : Dev) (t : Nat) : Nat :=
  if !d.locked then 0
  else if d.now ≤ t then
    d.dt + ((t - d.lockAt) / beatNs - (d.now - d.lockAt) / beatNs) * d.incr + (t - d.lockAt) % beatNs * d.incr / beatNs
  else
    match d.gridBefore t with
    | some (start, T, incr) => T + (t - start) * incr / beatNs
    | none =>
      d.dt - ((d.now - d.lockAt) / beatNs - (t - d.lockAt) / beatNs) * d.incr + (t - d.lockAt) % beatNs * d.incr / beatNs

/-- Device time now. -/
def Dev.time (d : Dev) : Nat := d.timeAt d.now

/-- The whole seconds that a device time in 2^-32 ns has passed, and the nanoseconds since. -/
def secOf (t : Nat) : Nat := t / pow2 32 / 1000000000
def nsOf (t : Nat) : Nat := t / pow2 32 % 1000000000

/-- Time runs on to moment `t` (ns since release), if that lies ahead. (Log 2: DESIGN CHOICE) -/
def Dev.until (d : Dev) (t : Nat) : Dev :=
  if d.now < t then
    { d with
      now := t
      dt := if d.locked then d.dt + ((t - d.lockAt) / beatNs - (d.now - d.lockAt) / beatNs) * d.incr else d.dt }
  else d

/-- The free value drawn next, and the device after the draw. (Log 7: DESIGN CHOICE) -/
def Dev.fresh (d : Dev) : Nat := Config.freeValue d.free
def Dev.drawn (d : Dev) : Dev := { d with free := d.free + 1 }

/-- Tympan's state changed. -/
def Dev.modTym (d : Dev) (f : Tym → Tym) : Dev := { d with tym := f d.tym }

/-- What Tympan holds of carrier `n`, and a change of it. -/
def Dev.car (d : Dev) (n : Nat) : SpanCar := Store.get (fun _ => SpanCar.reset) d.tym.cars n
def Dev.modCar (d : Dev) (n : Nat) (f : SpanCar → SpanCar) : Dev :=
  d.modTym fun x => { x with cars := Store.set (fun _ => SpanCar.reset) x.cars n (f (d.car n)) }

/-- A device time in 2^-32 ns as a timestamp in 2^-16 ns, halves rounded up (R263). (Log 80: DEDUCED) -/
def stamp (t : Nat) : Int := ((t + pow2 15) / pow2 16 : Nat)

/-- The seconds, nanoseconds and fraction of the timestamp of a device time in 2^-32 ns (R12, R263). -/
def stampSec (t : Nat) : Nat := (stamp t).toNat / pow2 16 / 1000000000
def stampNs (t : Nat) : Nat := (stamp t).toNat / pow2 16 % 1000000000
def stampFrac (t : Nat) : Nat := (stamp t).toNat % pow2 16

/-- The timestamp of now. -/
def Dev.stampNow (d : Dev) : Int := stamp d.time

/-- Picoseconds in 2^-16 ns, and 2^-16 ns in picoseconds, rounded down. (Log 80: DEDUCED) -/
def ofPs (ps : Int) : Int := ps * 8192 / 125
def toPs (t : Int) : Int := t * 125 / 8192

/-- Time runs on by `n` ns. (Log 2: DESIGN CHOICE, 3: DESIGN CHOICE) -/
def Dev.wait (d : Dev) (n : Nat) : Dev := d.until (d.now + n)

/-- Has at least `n` ns passed since the recorded moment, if there is one? -/
def since (last : Option Nat) (now n : Nat) : Bool :=
  match last with
  | none => true
  | some t => decide (t + n ≤ now)

/-! ### Carrier and bundle conditions that many blocks read -/

/-- Is carrier `n` a member of the bundle (R19)? -/
def Dev.member (d : Dev) (n : Nat) : Bool := d.bit Reg.FMX_BND_STAT.MEMBERS 0 n

/-- Is any carrier a member? -/
def Dev.anyMember (d : Dev) : Bool := d.get Reg.FMX_BND_STAT.MEMBERS 0 != 0

/-- The transmit and the receive state of line engine `n` (R75, R115). -/
def Dev.txState (d : Dev) (n : Nat) : Nat := d.get Reg.LE_TX_STAT.STATE n
def Dev.rxState (d : Dev) (n : Nat) : Nat := d.get Reg.LE_RX_STAT.STATE n

/-- May line engine `n` send packets: ON, RAMP_DOWN or BEACON (R301)? -/
def Dev.permits (d : Dev) (n : Nat) : Bool := d.txState n == 4 || d.txState n == 5 || d.txState n == 6

/-- Is carrier `n` eligible for transfers (R318)? -/
def Dev.eligible (d : Dev) (n : Nat) : Bool := d.permits n && d.flag Reg.LE_RX_STAT.CHIME n && (d.le n).partner

/-- A change of carrier `n` after which it may be eligible no longer. -/
def Dev.watchElig (d : Dev) (n : Nat) (f : Dev → Dev) : Dev :=
  let e := f d
  if d.eligible n && !e.eligible n then e.modChm n fun c => { c with lackFrom := e.now } else e

/-- Is the receive state of line engine `n` LOCKED? -/
def Dev.rxLocked (d : Dev) (n : Nat) : Bool := d.rxState n == 9

/-- Is the supply-dip freeze in force (R493)? -/
def Dev.frozenSupply (d : Dev) : Bool := d.flag Reg.RST_FREEZE.ACTIVE 0

/-- APPLIED follows the read-back and the target: 1 while they lie within 10 mV of each other (R496). -/
def Dev.judgeApplied (d : Dev) : Dev :=
  let t := d.get Reg.CHIP_VCORE_NOW.TARGET_MV 0
  let v := d.get Reg.CHIP_AVS_STAT.READ_MV 0
  d.setB Reg.CHIP_AVS_STAT.APPLIED 0 (decide (t ≤ v + 10) && decide (v ≤ t + 10))

/-- Does the device run: neither held in reset, nor in FUSE_FAULT (R481, R484)? (Log 146: DEDUCED) -/
def Dev.runs (d : Dev) : Bool := !d.power.inReset && !d.flag Reg.CHIP_SEAL.FAULT 0

/-- The eight line engines, the sixteen lane groups, the 1,024 flows. -/
def allLe : List Nat := List.range 8
def allGroups : List Nat := List.range 16
def allFlows : List Nat := List.range 1024

/-- A step over every index of a list, in order. -/
def Dev.over (d : Dev) (l : List Nat) (f : Nat → Dev → Dev) : Dev := l.foldl (fun d n => f n d) d

/-! ### Carillon, CYP and trust -/

/-- Carillon changed. -/
def Dev.modVault (d : Dev) (f : Car → Car) : Dev := { d with vault := f d.vault }

/-- Slot `s`, and a change of it. -/
def Dev.slot (d : Dev) (s : Nat) : KeySlot := Store.get (fun _ => KeySlot.reset) d.vault.slots s
def Dev.setSlot (d : Dev) (s : Nat) (x : KeySlot) : Dev :=
  d.modVault fun v => { v with slots := Store.set (fun _ => KeySlot.reset) v.slots s x }

/-- The cipher state of flow `f`, and a change of it. -/
def Dev.cyp (d : Dev) (f : Nat) : CypFlow := Store.get (fun _ => CypFlow.reset) d.vault.flows f
def Dev.modCyp (d : Dev) (f : Nat) (g : CypFlow → CypFlow) : Dev :=
  d.modVault fun v => { v with flows := Store.set (fun _ => CypFlow.reset) v.flows f (g (d.cyp f)) }

/-- The trust unit changed. -/
def Dev.modTrust (d : Dev) (f : Trust → Trust) : Dev := { d with trust := f d.trust }

/-- The bytes of a table entry's eight words, least significant byte first. -/
def Dev.tabBytes (d : Dev) (p sel i n : Nat) : List Nat :=
  ((List.range 8).flatMap fun w => (List.range 4).map fun j => bitsOf (d.tab p sel i w) (8 * j) 8).take n

/-- A fused word (R483). -/
def Dev.fuseWord (d : Dev) (i : Nat) : Nat := d.fuse.getD i 0

/-- Bytes of fused words `i` on, least significant byte first. -/
def Dev.fuseBytes (d : Dev) (i words : Nat) : List Nat :=
  (List.range words).flatMap fun w => (List.range 4).map fun j => bitsOf (d.fuseWord (i + w)) (8 * j) 8

/-- The device's own IDENT (R371). -/
def Dev.ownIdent (d : Dev) : List Nat := d.fuseBytes 40 8

/-- The identity key from the fused device secret (R372). (Log 11: DESIGN CHOICE) -/
def Dev.identityKey (d : Dev) : Nat × Nat := Config.identityKey ((List.range 8).map fun w => d.fuseWord (48 + w))

/-- The owner anchor, where one is installed and the trust store is whole (R376, R417). -/
def Dev.anchorNow (d : Dev) : Option Nat := if d.trust.lost then none else d.trust.anchor

/-- The IDENT that the installed pairing record gives the partner (R376); none where no record is installed, or none that can be
used (R417). -/
def Dev.pairedIdent (d : Dev) : Option (List Nat) :=
  let r := d.trust.pairing
  if r.isEmpty || d.trust.lost then none
  else if (r.drop 12).take 32 = d.ownIdent then some ((r.drop 44).take 32) else some ((r.drop 12).take 32)

/-- The identity of the bundle partner (R21). -/
def Dev.partnerIdent (d : Dev) : Option (List Nat) :=
  match d.pairedIdent with
  | some i => some i
  | none => d.trust.partner

/-! ### Lifting a device operation to the machine -/

/-- A command that acts on the device alone: the HDM bytes and the waiting commands stand. A device held in reset takes
no part (R477). (Log 138: DEDUCED, 139: DESIGN CHOICE, 146: DEDUCED) -/
def State.lift (s : State) (f : Dev → Dev) : State :=
  if s.dev.power.inReset then s else { s with dev := f s.dev }

/-- An operation of the part's own units: they stand still in reset and in FUSE_FAULT (R481, R484). (Log 138: DEDUCED, 146: DEDUCED) -/
def State.liftRun (s : State) (f : Dev → Dev) : State := if s.dev.runs then { s with dev := f s.dev } else s

/-- Nothing is commanded: one 32 ns beat of the time base passes. In reset nothing moves. (Log 3: DESIGN CHOICE) -/
def State.idle (s : State) : State := s.lift fun d => d.wait beatNs

/-- A command that acts in reset as well. -/
def State.liftAny (s : State) (f : Dev → Dev) : State := { s with dev := f s.dev }

end Sys2Proof.Machine
end

