-- ==== Sys2Proof/Machine/Flags.lean ====
section
/-! DEFINITION. Error codes of rejected writes, the order in which they are reported, and the record a rejected write
leaves in the page header (R452). A page of this hardware has no arithmetic flags: its status bits are the header's. -/

namespace Sys2Proof.Machine

/-- The error codes of R452. -/
inductive Err where
  | range | reserved | state | busy | locked | index | inconsistent | notIdle | capacity | auth | exhausted
deriving DecidableEq, Repr

/-- The code's number. -/
def Err.code : Err → Nat
  | .range => 0x01 | .reserved => 0x02 | .state => 0x03 | .busy => 0x04 | .locked => 0x05 | .index => 0x06
  | .inconsistent => 0x07 | .notIdle => 0x08 | .capacity => 0x09 | .auth => 0x0A | .exhausted => 0x0B

/-- The code's place in the order of R452. -/
def Err.rank : Err → Nat
  | .reserved => 0 | .locked => 1 | .index => 2 | .range => 3 | .state => 4 | .notIdle => 5 | .busy => 6
  | .inconsistent => 7 | .capacity => 8 | .auth => 9 | .exhausted => 10

/-- The first error of a list in the order of R452; none where no check fails. (Log 22: DEDUCED) -/
def firstErr : List Err → Option Err
  | [] => none
  | e :: rest =>
    match firstErr rest with
    | none => some e
    | some e' => if e.rank ≤ e'.rank then some e else some e'

/-- A check as a list of errors. -/
def failIf (c : Bool) (e : Err) : List Err := if c then [e] else []

/-- A rejected write: every field of the register stands, and the page header takes the code and the offset and counts
the rejection (R452). `p` is the page number. -/
def Dev.reject (d : Dev) (p off : Nat) (e : Err) : Dev :=
  ((d.set Hdr.ERR_CODE.CODE p e.code).set Hdr.ERR_OFFSET.OFFSET p off).bump Hdr.ERR_COUNT.COUNT p

/-- A write under its checks: rejected with the first error in the order of R452, or carried out. -/
def Dev.checked (d : Dev) (p off : Nat) (errs : List Err) (effect : Dev → Dev) : Dev :=
  match firstErr errs with
  | some e => d.reject p off e
  | none => effect d

end Sys2Proof.Machine
end

