-- ==== Sys2Proof/Machine/Queue.lean ====
section
/-! DEFINITION. Events, event queues and interrupt vectors (R457 to R467, R519). -/

namespace Sys2Proof.Machine

/-- An event: the kind of its page and its bit in the page's event registers (R458). -/
structure Ev where
  kind : PageKind
  bit : Nat
deriving DecidableEq, Repr

/-- The event's source number (R458). -/
def Ev.source (e : Ev) : Nat := (eventsOf e.kind).1 + e.bit

namespace Ev

def paceLow : Ev := ⟨.pace, 0⟩
def paceCeiling : Ev := ⟨.pace, 1⟩
def rxOverflow : Ev := ⟨.pace, 2⟩
def txUnderrun : Ev := ⟨.pace, 3⟩
def txState : Ev := ⟨.tx, 0⟩
def txenFault : Ev := ⟨.tx, 1⟩
def blSwitched : Ev := ⟨.tx, 2⟩
def blRefused : Ev := ⟨.tx, 3⟩
def maskSlewed : Ev := ⟨.tx, 4⟩
def dacClip : Ev := ⟨.dac, 0⟩
def rxLocked : Ev := ⟨.rx, 0⟩
def acqFail : Ev := ⟨.rx, 1⟩
def fofsRange : Ev := ⟨.rx, 2⟩
def rxUncal : Ev := ⟨.rx, 3⟩
def adcClip : Ev := ⟨.adc, 0⟩
def adcSpur : Ev := ⟨.adc, 1⟩
def cdeStep : Ev := ⟨.cde, 0⟩
def fecMismatch : Ev := ⟨.fec, 0⟩
def fecDeg : Ev := ⟨.fec, 1⟩
def frmDefect (k : Nat) : Ev := ⟨.frm, k⟩
def fasInPayload : Ev := ⟨.frm, 6⟩
def unavail : Ev := ⟨.frm, 7⟩
def flowDefect : Ev := ⟨.frmc, 0⟩
def binClosed : Ev := ⟨.frmc, 1⟩
def foreignCarrier : Ev := ⟨.fmxB, 0⟩
def join : Ev := ⟨.fmxB, 1⟩
def remap : Ev := ⟨.fmxB, 2⟩
def shed : Ev := ⟨.fmxB, 3⟩
def boundBreach : Ev := ⟨.fmxB, 4⟩
def mapMismatch : Ev := ⟨.fmxB, 5⟩
def mapSwitched : Ev := ⟨.fmxB, 6⟩
def departForced : Ev := ⟨.fmxB, 7⟩
def bundleDown : Ev := ⟨.fmxB, 8⟩
def startHeld : Ev := ⟨.start, 0⟩
def pwrWarn : Ev := ⟨.rst, 0⟩
def freeze : Ev := ⟨.rst, 1⟩
def hot : Ev := ⟨.rst, 2⟩
def avsFault : Ev := ⟨.vcore, 0⟩
def link : Ev := ⟨.link, 0⟩
def poison : Ev := ⟨.link, 1⟩
def badAccess : Ev := ⟨.link, 2⟩
def snapDone : Ev := ⟨.hdm, 0⟩
def snapSkipped : Ev := ⟨.hdm, 1⟩
def captureDone : Ev := ⟨.hdm, 2⟩
def dmaDone : Ev := ⟨.dma, 0⟩
def dmaHalt : Ev := ⟨.dma, 1⟩
def watermark : Ev := ⟨.evq, 0⟩
def laneTimeout : Ev := ⟨.hlnG, 0⟩
def laneLost : Ev := ⟨.hlnG, 1⟩
def group : Ev := ⟨.hlnG, 2⟩
def restripe : Ev := ⟨.hlnG, 3⟩
def laneShed : Ev := ⟨.hlnG, 4⟩
def wrongGroup : Ev := ⟨.hlnG, 5⟩
def laneDup : Ev := ⟨.hlnG, 6⟩
def hlnRxOverflow : Ev := ⟨.hlnG, 7⟩
def hlnTxUnderrun : Ev := ⟨.hlnG, 8⟩
def peerStuck : Ev := ⟨.hlnG, 9⟩
def tymState : Ev := ⟨.tymC, 0⟩
def tymStep : Ev := ⟨.tymC, 1⟩
def ppsInFault : Ev := ⟨.tymC, 2⟩
def todFault : Ev := ⟨.tymC, 3⟩
def f10Lost : Ev := ⟨.tymC, 4⟩
def holdExpired : Ev := ⟨.tymC, 5⟩
def roleConflict : Ev := ⟨.tymC, 6⟩
def partnerAbsent : Ev := ⟨.tymC, 7⟩
def carReject : Ev := ⟨.tymS, 0⟩
def asymStale : Ev := ⟨.tymS, 1⟩
def asymMismatch : Ev := ⟨.tymS, 2⟩
def spanRestart : Ev := ⟨.tymS, 3⟩
def tcDiscard : Ev := ⟨.tymX, 0⟩
def chimeLock : Ev := ⟨.chime, 0⟩
def chimeMiswire : Ev := ⟨.chime, 1⟩
def chimePeerReset : Ev := ⟨.chime, 2⟩
def carEvent (k : Nat) : Ev := ⟨.car, k⟩
def exhausted : Ev := ⟨.cyp, 0⟩
def ctrWarn : Ev := ⟨.cyp, 1⟩
def tagFail : Ev := ⟨.cyp, 2⟩
def keyMismatch : Ev := ⟨.cyp, 3⟩
def switched : Ev := ⟨.cyp, 4⟩
def policyMismatch : Ev := ⟨.cyp, 5⟩
def ckptResync : Ev := ⟨.cyp, 6⟩
def peerAlarm : Ev := ⟨.cyp, 7⟩
def trustDone : Ev := ⟨.trust, 0⟩
def idFault : Ev := ⟨.trust, 1⟩
def pairMismatch : Ev := ⟨.trust, 2⟩
def mcuBoot : Ev := ⟨.mcu, 0⟩
def monLimit : Ev := ⟨.mon, 0⟩
def monDataOvr : Ev := ⟨.mon, 1⟩
def monTrigOvr : Ev := ⟨.mon, 2⟩
def calDone : Ev := ⟨.cal, 0⟩
def calDrift : Ev := ⟨.cal, 1⟩
def eccUncorr : Ev := ⟨.ecc, 0⟩
def eccLasting : Ev := ⟨.ecc, 1⟩
def eccSpared : Ev := ⟨.ecc, 2⟩
def eccTrkFull : Ev := ⟨.ecc, 3⟩
def fetchTrap : Ev := ⟨.ecc, 4⟩
def lapLate : Ev := ⟨.scb, 0⟩

end Ev

/-! ### Interrupt vectors -/

/-- What a dword of the MSI-X table and of the PBA reads as before it is written: a vector is masked (R466). -/
def msixReset (k : Nat) : Nat := b1 (k % 4 == 3)

/-- The key under which a vector's pending bit stands beside the MSI-X table. -/
def pbaKey (v : Nat) : Nat := (v + 1000) * 4

/-- A vector is signalled: counted when its MSI-X table entry is unmasked, else left pending in the PBA (R466). In
FUSE_FAULT only vector 21 is signalled (R435). -/
def Dev.sendVector (d : Dev) (v : Nat) : Dev :=
  if d.flag Reg.CHIP_SEAL.FAULT 0 && v != 21 then d
  else if d.bit Reg.EVQ_MSIX_EN.EN 0 v then
    if bitOf (Store.get msixReset d.msix (v * 4 + 3)) 0 then
      { d with msix := Store.set msixReset d.msix (pbaKey v) 1 }
    else { d with vec := Store.set (fun _ => 0) d.vec v (Store.get (fun _ => 0) d.vec v + 1) }
  else d

/-- A condition of queue vector `q` arises: it is signalled, or within the holdoff kept for its end (R467). -/
def Dev.queueVector (d : Dev) (q : Nat) : Dev :=
  let x := d.queue q
  if !d.bit Reg.EVQ_MSIX_EN.EN 0 q then d
  else if d.now < x.holdUntil then d.setQueue q { x with holdPend := true }
  else (d.setQueue q { x with holdUntil := d.now + us (d.get Reg.EVQ_CTRL.HOLDOFF_US q) }).sendVector q

/-! ### Queue positions (R460) -/

/-- The slot after slot `k` in ring order: slots 511 and 1,023 hold slugs only. -/
def nextSlot (k : Nat) : Nat := if k = 510 then 512 else if k = 1022 then 0 else if k = 511 then 512 else if k = 1023 then 0 else k + 1

/-- The bank of a slot, and the bank's slug slot. -/
def bankOf (k : Nat) : Nat := if k < 512 then 0 else 1
def slugSlot (b : Nat) : Nat := if b = 0 then 511 else 1023

/-- Does bank `b` hold a slug? -/
def Queue.slug (x : Queue) (b : Nat) : Bool := if b = 0 then x.slug0 else x.slug1

/-- The slug flag of bank `b` set or cleared. -/
def Queue.setSlug (x : Queue) (b : Nat) (v : Bool) : Queue :=
  if b = 0 then { x with slug0 := v } else { x with slug1 := v }

/-- The content of slot `k`. -/
def Queue.slot (x : Queue) (k : Nat) : Quad := Store.get (fun _ => Quad.zero) x.slots k

/-- The content of slot `k` replaced. -/
def Queue.setSlot (x : Queue) (k : Nat) (e : Quad) : Queue :=
  { x with slots := Store.set (fun _ => Quad.zero) x.slots k e }

/-- The next number assigned: SEQ advances modulo 65,536, and EPOCH when SEQ wraps (R459). -/
def Queue.advance (x : Queue) : Queue :=
  if x.seq = 65535 then { x with seq := 0, epoch := (x.epoch + 1) % 256 } else { x with seq := x.seq + 1 }

/-- The read position after slot `k`: a bank's slug slot is visited when it holds a slug (R461). -/
def Queue.readAfter (x : Queue) (k : Nat) : Nat :=
  if k = 510 && x.slug0 then 511 else if k = 1022 && x.slug1 then 1023 else nextSlot k

/-- The four words of a queue entry (R459). -/
def entryQuad (time source instance_ code seq epoch : Nat) (forced : Bool) : Quad :=
  ⟨stampNs time, stampSec time % pow2 32,
   source + trunc 8 instance_ * pow2 8 + trunc 16 code * pow2 16,
   seq + epoch * pow2 16 + (0x80 + b1 forced * 2) * pow2 24⟩

/-- The four words of a slug (R459). -/
def slugQuad (time dropped seq epoch : Nat) : Quad :=
  ⟨stampNs time, stampSec time % pow2 32, dropped, seq + epoch * pow2 16 + 0x81 * pow2 24⟩

/-- An entry stored in the retained store's tail ring of queue `q` (R488). -/
def Retained.addTail (r : Retained) (q : Nat) (e : Quad) : Retained :=
  let i := Store.get (fun _ => 0) r.tailIdx q
  { r with
    tails := Store.set (fun _ => Quad.zero) r.tails (q * 960 + i) e
    tailIdx := Store.set (fun _ => 0) r.tailIdx q (if i = 959 then 0 else i + 1) }

/-- An entry dropped into the fill bank's slug (R463). The first drop into a slug is a condition of the vector (R466). -/
def Dev.dropEntry (d : Dev) (q : Nat) : Dev :=
  let x := d.queue q
  let b := bankOf x.wp
  let k := slugSlot b
  let d := d.bump Reg.EVQ_DROP.COUNT q
  if x.slug b then
    let s := x.slot k
    d.setQueue q ((x.setSlot k { s with w2 := capN 0xFFFFFFFF (s.w2 + 1) }).advance)
  else
    (d.setQueue q (((x.setSlot k (slugQuad d.time 1 x.seq x.epoch)).setSlug b true).advance)).queueVector q

/-- An entry pushed to queue `q`: stored, dropped into the slug, or counted when EN is 0 (R459, R462, R463). The answer
says whether the depth rose to the watermark. (Log 135: DESIGN CHOICE) -/
def Dev.push (d : Dev) (q source instance_ code : Nat) (forced : Bool) : Dev × Bool :=
  let x := d.queue q
  if !d.flag Reg.EVQ_CTRL.EN q then ((d.bump Reg.EVQ_DROP.COUNT q).setQueue q x.advance, false)
  else if x.depth = 1022 then (d.dropEntry q, false)
  else
    let e := entryQuad d.time source instance_ code x.seq x.epoch forced
    let y := { x.setSlot x.wp e with wp := nextSlot x.wp, depth := x.depth + 1, peak := max x.peak (x.depth + 1) }
    let d := { (d.setQueue q y.advance) with ret := d.ret.addTail q e }
    let level := d.get Reg.EVQ_WM.LEVEL q
    let crossed := x.depth < level && level ≤ x.depth + 1
    (onlyIf (x.depth == 0 || crossed) (fun d => d.queueVector q) d, crossed)

/-- The queue that the routing table names for a source (R459, R475). -/
def Dev.routeOf (d : Dev) (source : Nat) : Nat := trunc 2 (d.tab 0x24 0x01 source 0)

/-- Raising an event sets its EV_LATCH bit, counts it and, if it is enabled, pushes an entry (R457). A crossing of the
watermark raises `EVQ:WATERMARK`, whose own entry may cross once more; `fuel` bounds that chain. (Log 135: DESIGN CHOICE) -/
def Dev.raiseWith (fuel : Nat) (d : Dev) (e : Ev) (i instance_ code : Nat) (forced : Bool) : Dev :=
  let p := pageOf e.kind i
  let d := (d.putBit Hdr.EV_LATCH.LATCH p e.bit true).bump Hdr.EV_COUNT.COUNT p
  if d.bit Hdr.EV_ENABLE.ENABLE p e.bit then
    let q := d.routeOf e.source
    let (d, crossed) := d.push q e.source instance_ code forced
    let d := onlyIf (e.kind == .link || e.kind == .hdm) (fun d => d.sendVector 20) d
    match fuel, crossed with
    | fuel + 1, true => d.raiseWith fuel Ev.watermark q q (d.queue q).depth false
    | _, _ => d
  else d

/-- An event raised on instance `i` of its page, with its instance and code (R457, R519). -/
def Dev.raise (d : Dev) (e : Ev) (i instance_ code : Nat) : Dev := d.raiseWith 3 e i instance_ code false

/-- An event raised by EV_FORCE: instance 0xFF, code 0xFFFF and FORCED set (R457). -/
def Dev.raiseForced (d : Dev) (e : Ev) (i : Nat) : Dev := d.raiseWith 3 e i 0xFF 0xFFFF true

/-! ### Taking entries out (R461) -/

/-- A single pop: a slug at its slot, the entry at RP, or zeros from an empty queue. The popped words are latched. -/
def Queue.pop (x : Queue) : Queue :=
  if x.rp = 511 ∨ x.rp = 1023 then
    { (x.setSlug (bankOf x.rp) false) with popped := x.slot x.rp, rp := nextSlot x.rp }
  else if x.depth = 0 then { x with popped := Quad.zero }
  else { x with popped := x.slot x.rp, rp := x.readAfter x.rp, depth := x.depth - 1 }

/-- How many slots of the ring lie from `a` up to `b`, `b` not included. -/
def ringDist (a b : Nat) : Nat :=
  let pos (k : Nat) : Nat := if k < 511 then k else if k = 511 then 511 else if k < 1023 then k - 1 else 1022
  (pos b + 1022 - pos a % 1022) % 1022

/-- A bulk pop to position `v`: everything before it is popped, and any slug passed is discarded (R461). -/
def Queue.popTo (x : Queue) (v : Nat) : Queue :=
  if v = x.rp then x
  else
    let n := ringDist x.rp v
    let crosses (s : Nat) : Bool := ringDist x.rp s < n || x.rp == s
    let x := onlyIf (x.slug0 && (x.rp == 511 || (crosses 510 && x.rp != 512))) (fun x => x.setSlug 0 false) x
    let x := onlyIf (x.slug1 && (x.rp == 1023 || (crosses 1022 && x.rp != 0))) (fun x => x.setSlug 1 false) x
    { x with rp := v, depth := x.depth - n }

/-- May a bulk pop move RP to `v`: on the ring from RP to WP, and not a slug slot (R461)? -/
def Queue.popAllowed (x : Queue) (v : Nat) : Bool :=
  v == x.rp || (v != 511 && v != 1023 && v < 1024 && decide (0 < x.depth ∨ x.rp = 511 ∨ x.rp = 1023) &&
    decide (ringDist x.rp v ≤ x.depth) && (decide (v ≠ x.wp) || decide (x.depth < 1022)))

end Sys2Proof.Machine
end

