-- ==== Sys2Proof/Machine/Flows.lean ====
section
/-! DEFINITION. Flows, sorts and the map: usable sorts, PLACE, map identities, service, latency totals and admission
(R42 to R45, R192 to R208). -/

namespace Sys2Proof.Machine

/-! ### Banks and sorts -/

/-- The flow entry and the sort entry of a bank (0 A, 1 B), as table words (R224). -/
def Dev.flowWord (d : Dev) (bank f : Nat) : Nat := d.tab 0x211 (2 + bank) f 0
def Dev.sortWord (d : Dev) (bank s : Nat) : Nat := d.tab 0x211 (4 + bank) s 0

/-- The local flow table's words (R194). -/
def Dev.localWord (d : Dev) (f w : Nat) : Nat := d.tab 0x211 0x01 f w

/-- The fields of a flow entry (R193) and of a sort entry. -/
def usedBit (w : Nat) : Bool := bitOf w 31
def classOf (w : Nat) : Nat := bitsOf w 28 2
def typeOf (w : Nat) : Nat := bitsOf w 24 2
def nsortOf (w : Nat) : Nat := bitsOf w 0 8
def flowOf (w : Nat) : Nat := bitsOf w 0 10
def memberOf (w : Nat) : Nat := bitsOf w 16 7

/-- A word of an applied map: USED, MEMBER and FLOW (R224). -/
def mapWord (f m : Nat) : Nat := pow2 31 + m * pow2 16 + f

/-- The word of sort `s` in an applied map. -/
def PlacedMap.word (m : PlacedMap) (s : Nat) : Nat := Store.get (fun _ => 0) m.map s

/-- The sorts that a carrier's mode offers (R155). -/
def sortsOfRate (r : Nat) : Nat := 32 * (r + 1)

/-- Is sort `s` usable with these members and exclusions (R192)? -/
def Dev.usable (d : Dev) (members excl s : Nat) : Bool :=
  bitOf members (s / 128) && !bitOf excl (s / 128) &&
    decide (s % 128 < sortsOfRate (d.get Reg.LE_FEC_CFG.RATE (s / 128)))

/-- All sorts, in order. -/
def allSorts : List Nat := List.range 1024

/-- The members of flow `f` in a bank, by rising sort number (R193). -/
def Dev.membersOf (d : Dev) (bank f : Nat) : List Nat :=
  allSorts.filter fun s => usedBit (d.sortWord bank s) && flowOf (d.sortWord bank s) == f

/-- The flows that sort entries of a bank name. -/
def Dev.namedFlows (d : Dev) (bank : Nat) : List Nat :=
  allFlows.filter fun f => usedBit (d.flowWord bank f)

/-! ### PLACE (R206) -/

/-- Insertion into a list that rises. -/
def insertUp (x : Nat) : List Nat → List Nat
  | [] => [x]
  | a :: rest => if x < a then x :: a :: rest else if x = a then a :: rest else a :: insertUp x rest

/-- Several insertions. -/
def insertAll (l into : List Nat) : List Nat := l.foldl (fun acc x => insertUp x acc) into

/-- The flow order by CLASS rising, then flow number rising, by the key `class * 1024 + flow`. -/
def byClass (d : Dev) (bank : Nat) (l : List Nat) : List Nat :=
  (insertAll (l.map fun f => classOf (d.flowWord bank f) * 1024 + f) []).map fun k => k % 1024

/-- The state of the computation: the flows shed, the spare sorts, and the sorts given (flow, member, sort). -/
structure PlaceAcc where
  shed : List Nat
  spare : List Nat
  given : List (Nat × Nat × Nat)

/-- Victims are shed, in order, until `need` spare sorts are there. -/
def shedVictims (usableOf : Nat → List Nat) (need : Nat) : List Nat → List Nat → List Nat → List Nat × List Nat
  | [], shed, spare => (shed, spare)
  | v :: rest, shed, spare =>
    if need ≤ spare.length then (shed, spare)
    else shedVictims usableOf need rest (v :: shed) (insertAll (usableOf v) spare)

/-- One flow of `todo`. -/
def placeFlow (d : Dev) (bank members excl : Nat) (flows : List Nat) (acc : PlaceAcc) (f : Nat) : PlaceAcc :=
  if acc.shed.contains f then acc
  else
    let home := d.membersOf bank f
    let usableOf (v : Nat) : List Nat := (d.membersOf bank v).filter (d.usable members excl)
    let displaced := (List.range home.length).filter fun m => !d.usable members excl (home.getD m 0)
    let need := displaced.length
    let cls (v : Nat) : Nat := classOf (d.flowWord bank v)
    let victims := (byClass d bank (flows.filter fun v => !acc.shed.contains v && decide (cls f < cls v))).reverse
    let held := victims.foldl (fun a v => a + (usableOf v).length) 0
    if acc.spare.length + held < need then
      { acc with shed := f :: acc.shed, spare := insertAll (usableOf f) acc.spare }
    else
      let (shed, spare) := shedVictims usableOf need victims acc.shed acc.spare
      { shed := shed
        spare := spare.drop need
        given := acc.given ++ (displaced.zip (spare.take need)).map fun (m, s) => (f, m, s) }

/-- PLACE(home, members, EXCL): the applied map's words by sort and the flows shed (R206). -/
def Dev.place (d : Dev) (bank members excl : Nat) : Store Nat × List Nat :=
  let flows := d.namedFlows bank
  let spare := allSorts.filter fun s => d.usable members excl s && !usedBit (d.sortWord bank s)
  let todo := byClass d bank (flows.filter fun f => (d.membersOf bank f).any fun s => !d.usable members excl s)
  let acc := todo.foldl (placeFlow d bank members excl flows) ⟨[], spare, []⟩
  let kept := flows.flatMap fun f =>
    if acc.shed.contains f then []
    else
      let home := d.membersOf bank f
      (List.range home.length).filterMap fun m =>
        let s := home.getD m 0
        if d.usable members excl s then some (s, mapWord f m) else none
  let given := acc.given.filterMap fun (f, m, s) => if acc.shed.contains f then none else some (s, mapWord f m)
  ((kept ++ given).foldl (fun st e => Store.set (fun _ => 0) st e.1 e.2) [], acc.shed)

/-! ### Identities (R207) -/

/-- The home identity of a bank. -/
def Dev.homeId (d : Dev) (bank : Nat) : Nat :=
  crc32 ((allFlows.flatMap fun f => bytesLE 4 (d.flowWord bank f)) ++
         (allSorts.flatMap fun s => bytesLE 4 (d.sortWord bank s)))

/-- The map identity of an applied map under a home identity. -/
def mapId (homeIdent : Nat) (map : Store Nat) : Nat :=
  crc32 (bytesLE 4 homeIdent ++ allSorts.flatMap fun s => bytesLE 4 (Store.get (fun _ => 0) map s))

/-- PLACE with its inputs and identity. -/
def Dev.placed (d : Dev) (bank members excl : Nat) : PlacedMap :=
  let (map, shed) := d.place bank members excl
  ⟨map, shed, members, excl, bank, mapId (d.homeId bank) map⟩

/-- The home banks and the shadow bank (R204). -/
def Dev.homeTx (d : Dev) : Nat := d.get Reg.FMX_MAP_CTRL.HOME_TX 0
def Dev.homeRx (d : Dev) : Nat := d.get Reg.FMX_MAP_CTRL.HOME_RX 0
def Dev.shadow (d : Dev) : Nat := 1 - d.homeTx

/-! ### Service (R196) and the flows of an applied map -/

/-- The sorts of flow `f` in an applied map. -/
def PlacedMap.sortsOf (m : PlacedMap) (f : Nat) : List Nat :=
  (m.map.filter fun e => usedBit e.2 && flowOf e.2 == f).map (·.1)

/-- The carriers that carry flow `f` in an applied map. -/
def PlacedMap.carriersOf (m : PlacedMap) (f : Nat) : List Nat :=
  allLe.filter fun n => (m.sortsOf f).any fun s => s / 128 == n

/-- Is EN of flow `f` set in the local flow table? -/
def Dev.flowEn (d : Dev) (f : Nat) : Bool := bitOf (d.localWord f 0) 31

/-- The lane group of flow `f`. -/
def Dev.flowGroup (d : Dev) (f : Nat) : Nat := bitsOf (d.localWord f 0) 16 4

/-- Is flow `f` in service in the transmit, or the receive, direction (R196)? A lane-shed flow is shed (R253). -/
def Dev.txInService (d : Dev) (f : Nat) : Bool :=
  usedBit (d.flowWord d.homeTx f) && d.flowEn f && !d.fmx.tx.shed.contains f && !d.path.shed.contains f &&
    !(d.fmx.tx.sortsOf f).isEmpty
def Dev.rxInService (d : Dev) (f : Nat) : Bool :=
  usedBit (d.flowWord d.homeRx f) && d.flowEn f && !d.fmx.rx.shed.contains f && !d.path.shed.contains f &&
    !(d.fmx.rx.sortsOf f).isEmpty

/-- The NSORT of flow `f` in the transmit home. -/
def Dev.flowNsort (d : Dev) (f : Nat) : Nat := nsortOf (d.flowWord d.homeTx f)

/-! ### Latency totals (R42 to R45) -/

/-- `a / b` rounded up. -/
def ceilDiv (a b : Nat) : Nat := (a + b - 1) / b

/-- The transmit total of carrier `n` in ns (R42). -/
def Dev.txTotal (d : Dev) (n : Nat) : Nat := 3200 + (d.get Reg.LE_EB_CTRL.TX_TARGET n + 100)

/-- The CDE bound in ns at a set dispersion in 0.01 ps/nm: (300 + 7.5 |D| / 1,000) ns rounded up (R43). -/
def cdeBound (dAbs : Nat) : Nat := 300 + ceilDiv (75 * dAbs) 1000000

/-- The FEC decode bound in ns (R151). -/
def Dev.fecBound (d : Dev) (n : Nat) : Nat :=
  if d.get Reg.LE_FEC_CFG.CODE n = 2 then 3400 else 1000 + 500 * d.get Reg.LE_FEC_STAT.ITER_NOW n

/-- The receive total of carrier `n` in ns with skew `S` in ps (R43). -/
def Dev.rxTotal (d : Dev) (n skewPs : Nat) : Nat :=
  200 + 150 + cdeBound (d.le n).rx.dUse.natAbs + 350 + 450 + d.fecBound n + 500 + 450 +
    (900 + (ceilDiv skewPs 1000 - 500)) + 500

/-- The largest skew less the smallest among measured carriers of a list, in ps (R203). -/
def Dev.skewSpread (d : Dev) (l : List Nat) : Nat :=
  let v := (l.filter fun n => d.getJ Reg.FMX_DSK_SKEW.VALID 0 n == 1).map fun n => d.getJ Reg.FMX_DSK_SKEW.SKEW_PS 0 n
  v.foldl max 0 - v.foldl min (v.headD 0)

/-- The carriers over which a flow's total is taken when it has no sorts: the members, or all eight (R195). -/
def Dev.fallbackCarriers (d : Dev) : List Nat :=
  if d.anyMember then allLe.filter d.member else allLe

/-- Is flow `f` delivered verify-first (R44)? The CYP flow table holds DELIVERY. -/
def Dev.verifyFirst (d : Dev) (f : Nat) : Bool := bitOf (d.tab 0x51 0x01 f 0) 29

/-- The transmit total that flow `f` is admitted against (R45, R195). -/
def Dev.txReq (d : Dev) (f : Nat) : Nat :=
  let c := d.fmx.tx.carriersOf f
  ((if c.isEmpty then d.fallbackCarriers else c).map d.txTotal).foldl max 0

/-- The receive total that flow `f` is admitted against (R43 to R45, R195). -/
def Dev.rxReq (d : Dev) (f : Nat) : Nat :=
  let c := d.fmx.rx.carriersOf f
  let used := if c.isEmpty then d.fallbackCarriers else c
  let s := if c.isEmpty && !d.anyMember then 0 else d.skewSpread used
  (used.map fun n => d.rxTotal n s).foldl max 0 + (if d.verifyFirst f then 20480 else 0)

/-- The sorts that flow `f` of `n` sorts on group `lg` counts against group `g` (R194). -/
def sortsAgainst (lg n g : Nat) : Nat :=
  if n ≤ 64 then (if g = lg then n else 0)
  else if g = lg then ceilDiv n 2 else if g = lg + 1 then n - ceilDiv n 2 else 0

/-- Would the enabled flows of bank `bank` exceed 64 sorts on some group, with flow `f` on group `lg` if enabled (R195)? -/
def Dev.groupsOverfull (d : Dev) (bank f lg : Nat) (en : Bool) : Bool :=
  allGroups.any fun g =>
    decide (64 < (allFlows.foldl (fun a v =>
      let on := if v = f then en else d.flowEn v
      let grp := if v = f then lg else d.flowGroup v
      if on then a + sortsAgainst grp (nsortOf (d.flowWord bank v)) g else a) 0))

end Sys2Proof.Machine
end

