-- ==== Sys2Proof/Machine/Bundle.lean ====
section
/-! DEFINITION. The bundle's shared operations: membership, exclusion, announcements, carrier failure, departure and the
admission totals (R19 to R23, R45, R205, R211 to R218). -/

namespace Sys2Proof.Machine

/-- FMX's own state replaced. -/
def Dev.modFmx (d : Dev) (f : Fmx → Fmx) : Dev := { d with fmx := f d.fmx }

/-- The members as a mask. -/
def Dev.members (d : Dev) : Nat := d.get Reg.FMX_BND_STAT.MEMBERS 0

/-- Announcement reasons (R209), and their order where two arise in one galley (R212). -/
def reasonFail : Nat := 1
def reasonLeave : Nat := 2
def reasonReturn : Nat := 3
def reasonPlanned : Nat := 4
def reasonJoin : Nat := 5

def reasonRank (r : Nat) : Nat :=
  if r = reasonFail then 5 else if r = reasonLeave then 4 else if r = reasonReturn then 3
  else if r = reasonJoin then 2 else if r = reasonPlanned then 1 else 0

/-- The higher of two reasons. -/
def reasonMax (a b : Nat) : Nat := if reasonRank a < reasonRank b then b else a

/-- A change of PLACE's inputs in the transmit direction asks for a computation (R206, R212). A reason that is still to
be announced is kept when it ranks higher. -/
def Dev.startJob (d : Dev) (reason : Nat) : Dev :=
  d.modFmx fun x =>
    let r1 := match x.job with | some j => reasonMax j.reason reason | none => reason
    let r2 := match x.ann with
      | some a => if a.galleyA.isNone then reasonMax a.reason r1 else r1
      | none => r1
    let at_ := match x.job with | some j => j.since | none => d.now
    { x with job := some ⟨r2, at_⟩ }

/-- Flow `f` exceeds its declared bound in either direction (R45). -/
def Dev.exceeds (d : Dev) (f : Nat) : Bool :=
  d.flowEn f && (decide (bitsOf (d.localWord f 1) 0 16 < d.txReq f) || decide (bitsOf (d.localWord f 1) 16 16 < d.rxReq f))

/-- The totals are recomputed: `FMX:BOUND_BREACH` is raised for each admitted flow that comes to exceed its bound (R45). -/
def Dev.recheckBounds (d : Dev) : Dev :=
  d.over allFlows fun f d =>
    if d.exceeds f then
      if d.fmx.breach.contains f then d
      else (d.modFmx fun x => { x with breach := f :: x.breach }).raise Ev.boundBreach 0 0 f
    else if d.fmx.breach.contains f then d.modFmx fun x => { x with breach := x.breach.filter (· != f) }
    else d

/-- A carrier's bit of the exclusion mask set or cleared (R205). -/
def Dev.setExcl (d : Dev) (n : Nat) (b : Bool) : Dev := d.modFmx fun x => { x with excl := setBit x.excl n b }

/-- Carrier `n` stops being a member: `FMX:JOIN` code 0 (R211). -/
def Dev.leaveBundle (d : Dev) (n : Nat) : Dev :=
  if d.member n then
    ((d.putBit Reg.FMX_BND_STAT.MEMBERS 0 n false).modFmx fun x =>
      { x with joinZero := Store.set (fun _ => 0) x.joinZero n 0, departing := setBit x.departing n false }).raise
        Ev.join 0 n 0
  else d

/-- Does any member carry a sort in either applied map (R205)? -/
def Dev.anySortPlaced (d : Dev) : Bool :=
  (d.fmx.tx.map ++ d.fmx.rx.map).any fun e => usedBit e.2 && d.member (e.1 / 128)

/-- Carrier `n` becomes a member: `FMX:JOIN` code 1; its EXCL bit clears as R205 says, and while the bundle is down (R220); the
VCORE arbiter acts from the first member on (R33); an announcement with reason JOIN follows. (Log 66: DEDUCED) -/
def Dev.joinBundle (d : Dev) (n : Nat) : Dev :=
  if d.member n then d
  else
    let clear := d.flag Reg.FMX_BND_CTRL.AUTO_RETURN 0 || d.fmx.down || !d.anySortPlaced
    let d := d.putBit Reg.FMX_BND_STAT.MEMBERS 0 n true
    let d := d.setJ Reg.FMX_DSK_SKEW.VALID 0 n 0
    let d := d.modFmx fun x => { x with skews := Store.set (fun _ => []) x.skews n [] }
    let d := { d with arb := { d.arb with acting := true } }
    let d := onlyIf clear (fun d => d.setExcl n false) d
    (d.raise Ev.join 0 n 1).startJob reasonJoin

/-- The failure of member carrier `n` is learnt at this device (R218): its EXCL bit is set, it leaves the members, and an
announcement with reason FAIL begins. When no member is left, `FMX:BUNDLE_DOWN` code 1 (R220). (Log 66: DEDUCED) -/
def Dev.carrierFail (d : Dev) (n : Nat) : Dev :=
  if d.member n then
    let d := ((d.setExcl n true).leaveBundle n).startJob reasonFail
    if d.anyMember then d
    else (d.modFmx fun x => { x with down := true }).raise Ev.bundleDown 0 0 1
  else d

/-- The failure of carrier `n` learnt only from the partner's announcement: the EXCL bit is taken, membership is left to
R211 (R218, R214). -/
def Dev.carrierExcluded (d : Dev) (n reason : Nat) : Dev :=
  if bitOf d.fmx.excl n then d else (d.setExcl n true).startJob reason

/-- Is carrier `n` excluded in both applied maps (R217)? -/
def Dev.excludedBoth (d : Dev) (n : Nat) : Bool := bitOf d.fmx.tx.excl n && bitOf d.fmx.rx.excl n

/-- A planned departure of member carrier `n` begins: EXCL bit set, reason LEAVE (R217). -/
def Dev.beginDeparture (d : Dev) (n : Nat) : Dev :=
  let d := d.modFmx fun x =>
    { x with
      departing := setBit x.departing n true
      departs := Store.set (fun _ => ⟨none, false⟩) x.departs n
        ⟨if bitOf x.tx.excl n then some d.now else none, bitOf x.rx.excl n⟩ }
  if bitOf d.fmx.excl n then d else (d.setExcl n true).startJob reasonLeave

/-- The carrier leaves the bundle at the end of its departure (R217). The members are an input of PLACE, so the change
is announced (R212). (Log 65: DEDUCED) -/
def Dev.endDeparture (d : Dev) (n : Nat) : Dev :=
  ((d.modFmx fun x =>
    { x with departing := setBit x.departing n false, withdrawn := setBit x.withdrawn n true }).leaveBundle n).startJob reasonLeave

/-- Is a planned departure of carrier `n` under way? -/
def Dev.isDeparting (d : Dev) (n : Nat) : Bool := bitOf d.fmx.departing n

/-- Has the departure met both conditions of R217? -/
def Dev.departureMet (d : Dev) (n : Nat) : Bool :=
  let x := Store.get (fun _ => (⟨none, false⟩ : Depart)) d.fmx.departs n
  d.excludedBoth n || (x.txAt.isSome && x.rxDone)

end Sys2Proof.Machine
end

