-- ==== Sys2Proof/Machine/Grid.lean ====
section
/-! DEFINITION. The transmit grid (R22, R262, R265): galley and forme boundaries in time since release. -/

namespace Sys2Proof.Machine

/-- The first galley start of the transmit grid: 16,000 ticks after the time base locks (R265). -/
def Dev.gridStart (d : Dev) : Nat := d.lockAt + galleyNs

/-- The start of grid galley `k`, counted from 0, and of forme `k` of the grid. -/
def Dev.galleyAt (d : Dev) (k : Nat) : Nat := d.gridStart + k * galleyNs
def Dev.formeAt (d : Dev) (k : Nat) : Nat := d.gridStart + k * formeNs

/-- The first galley start of the grid at or after moment `t`. -/
def Dev.galleyFrom (d : Dev) (t : Nat) : Nat :=
  if t ≤ d.gridStart then d.gridStart else d.galleyAt (ceilDiv (t - d.gridStart) galleyNs)

/-- The first forme start of the grid at or after moment `t`. -/
def Dev.formeFrom (d : Dev) (t : Nat) : Nat :=
  if t ≤ d.gridStart then d.gridStart else d.formeAt (ceilDiv (t - d.gridStart) formeNs)

/-- Time runs on to the boundary at which a commit made at moment `t` applies: the first galley start at least 1 µs
after it (R456). -/
def Dev.untilCommit (d : Dev) (t : Nat) : Dev := d.until (d.galleyFrom (t + us 1))

end Sys2Proof.Machine
end

