-- ==== Sys2Proof/Machine/Guard.lean ====
section
/-! DEFINITION. What a pace guard asks of the VCORE arbiter, followed whenever its margin, its settings or its exclusion change
(R29, R30, R34). -/

namespace Sys2Proof.Machine

/-- The arbiter changed. -/
def Dev.modArb (d : Dev) (f : Arbiter → Arbiter) : Dev := { d with arb := f d.arb }

/-- Is the pace guard of line engine `n` excluded from voltage control (R29, R34)? A carrier is under calibration while a
hold of the calibration controller is on it. (Log 167: DEDUCED) -/
def Dev.paceExcluded (d : Dev) (n : Nat) : Bool :=
  !d.flag Reg.LE_PG_CTRL.VREQ_EN n || d.txState n != 4 || (d.le n).tx.calHold || (d.le n).rx.held

/-- The request that the last margin makes of the arbiter: 1 upward, 2 downward-eligible, 3 excluded; none before a galley
has been measured (R30, R34). -/
def Dev.paceClass (d : Dev) (n : Nat) : Nat :=
  let v := d.get Reg.LE_PG_MARGIN.NOW n
  let m := sgn 16 v
  if d.paceExcluded n then 3
  else if v = 0x7FFF then 0
  else if m < (d.get Reg.LE_PG_THRESH.VREQ_MARGIN n : Int) then 1
  else if (d.get Reg.LE_PG_HIGH.HIGH_MARGIN n : Int) < m then 2 else 0

/-- The requests of the pace guards now, and those that ask upward. -/
def Dev.paceReq (d : Dev) (n : Nat) : Nat := d.get Reg.LE_PG_STATE.REQ n
def Dev.askUp (d : Dev) : List Nat := allLe.filter fun n => d.paceReq n == 1

/-- The time since which every margin that takes part has been above its HIGH_MARGIN. (Log 35: DEDUCED) -/
def Dev.paceHigh (d : Dev) : Dev :=
  let part := allLe.filter fun n => d.paceReq n != 3
  let all := !part.isEmpty && part.all fun n => d.paceReq n == 2
  d.modArb fun a => { a with highSince := if all then some (a.highSince.getD d.now) else none }

/-- The request of line engine `n` follows its margin, its settings and its exclusion, and the downward wait follows the
requests. -/
def Dev.paceFollow (d : Dev) (n : Nat) : Dev := (d.set Reg.LE_PG_STATE.REQ n (d.paceClass n)).paceHigh

end Sys2Proof.Machine
end

