-- ==== Sys2Proof/Machine/LineTx.lean ====
section
/-! DEFINITION. Line transmit: bit-loading banks, carrier states and requests, ramps, the start-rate limiter and the mask
(R52 to R94). -/

namespace Sys2Proof.Machine

/-! ### Bit-loading (R54 to R64) -/

/-- The symbol rate in GBd of a code, and the data symbols per forme per DSC (R54). -/
def gbd (code : Nat) : Nat := 60 + 20 * code
def dataSymbols (code : Nat) : Nat := 155 * (gbd code / 2)

/-- The fields of a bit-loading entry (R94). -/
def constOf (w : Nat) : Nat := bitsOf w 0 4
def nbitsOf (w : Nat) : Nat := bitsOf w 8 7
def gainOf (w : Nat) : Int := sgn 8 (bitsOf w 16 8)

/-- The capacity in bits per forme of a subcarrier with this entry (R60). (Log 43: DESIGN CHOICE) -/
def dscCapacity (code w : Nat) : Nat :=
  let s := dataSymbols code
  if constOf w = 0 then 0
  else if constOf w = 6 ∨ constOf w = 7 then s / 155 * (310 * nbitsOf w / 16)
  else 2 * s * nbitsOf w / 16

/-- Is NBITS16 permitted for the constellation (R56)? -/
def nbitsOk (const nbits : Nat) : Bool :=
  match const with
  | 0 => nbits == 0 | 1 => nbits == 32 | 2 => nbits == 48 | 3 => nbits == 64 | 4 => nbits == 80 | 5 => nbits == 96
  | 6 => decide (40 ≤ nbits ∧ nbits ≤ 63) | 7 => decide (56 ≤ nbits ∧ nbits ≤ 95)
  | _ => false

/-- The checks of a bit-loading entry on its own value (R63). -/
def loadingErrs (w : Nat) : List Err :=
  failIf (decide (8 ≤ constOf w)) .reserved ++
  failIf (decide (constOf w < 8) && !nbitsOk (constOf w) (nbitsOf w)) .inconsistent ++
  failIf (decide (gainOf w < -60) || decide (30 < gainOf w)) .range

/-- The sixteen entries of transmit bank `b` (0 A, 1 B) of line engine `n`. -/
def Dev.txBank (d : Dev) (n b : Nat) : List Nat :=
  (List.range 16).map fun i => d.tab (pageOf .tx n) (1 + b) i 0

/-- A bank's capacity at a symbol-rate code (R60). -/
def bankCapacity (code : Nat) (bank : List Nat) : Nat := (bank.map (dscCapacity code)).foldl (· + ·) 0

/-- Does a bank break the rule of the trellis-plus-staircase mode (R59)? -/
def breaksR59 (bank : List Nat) : Bool := bank.any fun w => constOf w == 1 || constOf w == 2

/-- The active transmit bank, its capacity and its faults against the mode. -/
def Dev.txActive (d : Dev) (n : Nat) : Nat := d.get Reg.LE_TX_BL_CTRL.ACTIVE n
def Dev.txCap (d : Dev) (n b : Nat) : Nat := bankCapacity (d.get Reg.LE_TX_CFG.SYM_RATE n) (d.txBank n b)

/-- The coded bits per forme of a mode (R130). -/
def reqBitsOf (rate code : Nat) : Nat :=
  match rate, code with
  | 0, 0 => 663552 | 0, 1 => 688128 | 1, 0 => 1277952 | 1, 1 => 1339392 | 2, 0 => 1892352 | 2, 1 => 1990656
  | _, _ => 2372076

/-- The coded bits per forme that line engine `n`'s mode requires. -/
def Dev.reqBits (d : Dev) (n : Nat) : Nat := reqBitsOf (d.get Reg.LE_FEC_CFG.RATE n) (d.get Reg.LE_FEC_CFG.CODE n)

/-- Is the mode trellis plus staircase? -/
def Dev.trellis (d : Dev) (n : Nat) : Bool := d.get Reg.LE_FEC_CFG.CODE n == 2

/-- Is the bank below the mode's bits, or does it break R59? -/
def Dev.bankShort (d : Dev) (n b : Nat) : Bool := decide (d.txCap n b < d.reqBits n)
def Dev.bankUnfit (d : Dev) (n b : Nat) : Bool := d.trellis n && breaksR59 (d.txBank n b)

/-- The banks that a START checks: the active one, and the shadow while a switch to it is pending (R64, R77). -/
def Dev.startBanks (d : Dev) (n : Nat) : List Nat :=
  d.txActive n :: if d.flag Reg.LE_TX_BL_CTRL.SWITCH n then [1 - d.txActive n] else []

/-! ### State entries (R74, R75) -/

/-- The DACs are squelched in these states (R74). -/
def squelchedIn (st : Nat) : Bool := st == 0 || st == 1 || st == 2 || st == 7 || st == 8

/-- LEn_TXEN driven high or low, and read back. -/
def Dev.setTxen (d : Dev) (n : Nat) (b : Bool) : Dev :=
  { d.setB Reg.LE_TX_STAT.TXEN_PIN n b with pins := Store.set (fun _ => 3) d.pins n (if b then 4 else 3) }

/-- What an entry to transmit state `st` means for the chime: OFF and HALTED discard every pending packet (R311); the absence
timer holds at 0, with ABSENT clear, in the states without a chime, and counts from an entry to ON or BEACON (R319). -/
def Dev.chimeEnters (d : Dev) (n st : Nat) : Dev :=
  let d := onlyIf (st == 0 || st == 8) (fun d => d.modChm n fun c => { c with pend := [] }) d
  if st = 4 || st = 6 then d.modChm n fun c => { c with absFrom := some d.now }
  else if squelchedIn st then (d.setB Reg.LE_CHM_STAT.ABSENT n false).modChm n fun c => { c with absFrom := none }
  else d

/-- The carrier enters transmit state `st`: squelch follows the state; `LE:TX_STATE` is raised on OFF, ON, BEACON and
HALTED; a hello falls due on ON, RAMP_DOWN and BEACON; the pace guard takes part in ON alone (R29, R74, R75, R313). -/
def Dev.enterTx (d : Dev) (n st : Nat) : Dev :=
  let d := d.watchElig n fun d => d.set Reg.LE_TX_STAT.STATE n st
  let d := (d.setB Reg.LE_TX_STAT.SQUELCH n (squelchedIn st)).setB Reg.LE_DAC_STAT.SQUELCH n (squelchedIn st)
  let d := onlyIf (st == 4 || st == 5 || st == 6) (fun d => d.setLe n { d.le n with helloNow := true }) d
  let d := (d.chimeEnters n st).paceFollow n
  onlyIf (st == 0 || st == 4 || st == 6 || st == 8) (fun d => d.raise Ev.txState n n st) d

/-- The power fraction shown (R80). (Log 41: DEDUCED) -/
def Dev.setPower (d : Dev) (n v : Nat) : Dev := d.set Reg.LE_TX_STAT.POWER n v

/-! ### The start queue (R87, R88) -/

/-- The queue entry of line engine `n`. -/
def Dev.entry (d : Dev) (n : Nat) : Option StartEntry := d.lim.queue.find? fun e => e.le == n

/-- The queue replaced. -/
def Dev.modQueue (d : Dev) (f : List StartEntry → List StartEntry) : Dev :=
  { d with lim := { d.lim with queue := f d.lim.queue } }

/-- The entry of line engine `n` leaves the queue. (Log 39: DEDUCED) -/
def Dev.dequeue (d : Dev) (n : Nat) : Dev := d.modQueue fun q => q.filter fun e => e.le != n

/-- A request enters at the tail, or takes the position of the line engine's entry. (Log 170: DEDUCED) -/
def Dev.enqueue (d : Dev) (n kind : Nat) : Dev :=
  match d.entry n with
  | none => d.modQueue fun q => q ++ [⟨n, kind, d.now, false, false⟩]
  | some _ => d.modQueue fun q => q.map fun e => if e.le = n then { e with kind := kind } else e

/-- The entry of line engine `n` has received a grant. -/
def Dev.granted (d : Dev) (n : Nat) : Dev :=
  d.modQueue fun q => q.map fun e => if e.le = n then { e with granted := true } else e

/-- The state of power bank `b` (0 ADC, 1 DAC, 2 interior): 0 off, 1 soft-start, 2 on, 3 going down (R86). -/
def Dev.bankState (d : Dev) (n b : Nat) : Nat :=
  if b = 0 then d.get Reg.LE_ADC_STAT.BANK n else if b = 1 then d.get Reg.LE_DAC_STAT.BANK n else (d.le n).tx.bank3

/-- The state of a power bank set. -/
def Dev.setBank (d : Dev) (n b v : Nat) : Dev :=
  if b = 0 then d.set Reg.LE_ADC_STAT.BANK n v
  else if b = 1 then d.set Reg.LE_DAC_STAT.BANK n v
  else d.modTx n fun t => { t with bank3 := v }

/-- The next bank to come up, and the next to go down in reverse order (R86). -/
def Dev.nextUp (d : Dev) (n : Nat) : Option Nat := [0, 1, 2].find? fun b => d.bankState n b == 0 || d.bankState n b == 3
def Dev.nextDown (d : Dev) (n : Nat) : Option Nat := [2, 1, 0].find? fun b => d.bankState n b == 1 || d.bankState n b == 2

/-- Is every bank up or coming up, or is every bank off? -/
def Dev.banksUp (d : Dev) (n : Nat) : Bool := (d.nextUp n).isNone
def Dev.banksOff (d : Dev) (n : Nat) : Bool := [0, 1, 2].all fun b => d.bankState n b == 0

/-- What an entry next needs (R88). -/
inductive Need where
  | bank | ramp | nothing
deriving DecidableEq, Repr

/-- What the entry of line engine `n` next needs, from the state of its carrier. (Log 39: DEDUCED) -/
def Dev.needOf (d : Dev) (n : Nat) : Need :=
  let t := (d.le n).tx
  match d.txState n with
  | 1 => .bank
  | 8 => if t.killBanks then .bank else .nothing
  | 2 => if t.leadDone then .ramp else .nothing
  | 4 => .ramp
  | 6 => .ramp
  | 7 => if t.lagDone then .bank else .nothing
  | _ => .nothing

/-- The line engines that ramp now. (Log 42: DEDUCED) -/
def Dev.ramping (d : Dev) : Nat := (allLe.filter fun n => d.txState n == 3 || d.txState n == 5).length

/-- A line engine's place in the start queue, from 1; 0 when it is not queued. -/
def Dev.qpos (d : Dev) (n : Nat) : Nat :=
  match (List.range d.lim.queue.length).find? fun i => (d.lim.queue.map (·.le)).getD i 8 == n with
  | some i => i + 1
  | none => 0

/-! ### Ramps (R79, R80) -/

/-- The length of a ramp in formes. -/
def Dev.rampFormes (d : Dev) (n : Nat) : Nat := ceilDiv (us (d.get Reg.LE_TX_RAMP.RAMP_US n)) formeNs

/-- A point of the ramp-up or ramp-down table of line engine `n`. -/
def Dev.rampPoint (d : Dev) (n : Nat) (up : Bool) (k : Nat) : Nat :=
  bitsOf (d.tab (pageOf .tx n) (if up then 6 else 7) k 0) 0 16

/-- The position on the table, in units of 1/total of a point. -/
def Ramp.pos (r : Ramp) : Nat :=
  if r.up then min (63 * r.total) (r.start * r.total + 63 * r.gone) else r.start * r.total - 63 * r.gone

/-- The formes that remain. -/
def Ramp.left (r : Ramp) : Nat :=
  (if r.up then ceilDiv ((63 - r.start) * r.total) 63 else ceilDiv (r.start * r.total) 63) - r.gone

/-- The power fraction at a ramp's position, by linear interpolation between points. (Log 168: DESIGN CHOICE) -/
def Dev.rampValue (d : Dev) (n : Nat) (r : Ramp) : Nat :=
  let k := r.pos / r.total
  let a := d.rampPoint n r.up k
  let b := d.rampPoint n r.up (min 63 (k + 1))
  a + (b - a) * (r.pos % r.total) / r.total

/-- The first point of the other table whose value lies at or beyond a fraction in the new direction (R79). -/
def Dev.reversePoint (d : Dev) (n : Nat) (up : Bool) (frac : Nat) : Nat :=
  if up then ((List.range 64).find? fun k => decide (frac ≤ d.rampPoint n true k)).getD 63
  else ((List.range 64).reverse.find? fun k => decide (d.rampPoint n false k ≤ frac)).getD 0

/-- The direction in which the ramp must run for the carrier's goal. -/
def rampUpFor (goal : Nat) (r : Ramp) : Bool := goal == 4 || (goal == 6 && !r.data)

/-- A ramp that opposes the goal is reversed; a BEACON request during the whole carrier's ramp-up reverses the data
subcarriers alone while the chime goes on up (R79). (Log 39: DEDUCED) -/
def Dev.reverseRamp (d : Dev) (n : Nat) : Dev :=
  let t := (d.le n).tx
  match t.ramp with
  | none => d
  | some r =>
    let up := rampUpFor t.goal r
    if up = r.up then d
    else
      let frac := d.rampValue n r
      let r' : Ramp := { r with up := up, start := d.reversePoint n up frac, gone := 0 }
      if r.data && r.chime && t.goal == 6 then
        (d.modTx n fun t => { t with ramp := some { r' with chime := false }, chimeRamp := some { r with data := false } }).enterTx n 5
      else
        (d.modTx n fun t => { t with ramp := some r' }).enterTx n (if up then 3 else 5)

/-- A ramp's fraction shown and kept at a forme boundary. (Log 41: DEDUCED) -/
def Dev.showRamp (d : Dev) (n : Nat) : Dev :=
  let t := (d.le n).tx
  let d := match t.chimeRamp with
    | some r => d.modTx n fun t => { t with chimeFrac := d.rampValue n r }
    | none => d
  match t.ramp with
  | none => d
  | some r =>
    let v := d.rampValue n r
    (d.modTx n fun t =>
      { t with dataFrac := if r.data then v else t.dataFrac, chimeFrac := if r.chime then v else t.chimeFrac }).setPower n v

/-- The last forme boundary of the grid at or before moment `t`. -/
def Dev.formeBefore (d : Dev) (t : Nat) : Nat := d.formeAt ((t - d.gridStart) / formeNs)

/-- A ramp advanced to forme boundary `b`. -/
def Ramp.to (b : Nat) (r : Ramp) : Ramp := { r with gone := r.gone + (b - r.at_) / formeNs, at_ := max r.at_ b }

/-- The ramps of line engine `n` advanced to forme boundary `b`. -/
def Dev.rampMove (d : Dev) (n b : Nat) : Dev :=
  d.modTx n fun t => { t with ramp := t.ramp.map (Ramp.to b), chimeRamp := t.chimeRamp.map (Ramp.to b) }

/-- The boundary up to which the ramp of line engine `n` is counted. -/
def Dev.rampAt (d : Dev) (n : Nat) : Nat := match (d.le n).tx.ramp with | some r => r.at_ | none => 0

/-- The forme boundaries up to `b` pass for the ramps of line engine `n`: a reversal is taken up at the first of them, the
position advances and the fraction is set (R79, R80). During the freeze every ramp holds (R89). -/
def Dev.rampTo (d : Dev) (n b : Nat) : Dev :=
  if d.frozenSupply || decide (b ≤ d.rampAt n) then d
  else (((d.rampMove n (d.rampAt n + formeNs)).reverseRamp n).rampMove n b).showRamp n

/-- The ramps of line engine `n` are brought to the last forme boundary, before something is asked of them. -/
def Dev.rampCatch (d : Dev) (n : Nat) : Dev :=
  if d.txState n = 3 ∨ d.txState n = 5 then d.rampTo n (d.formeBefore d.now) else d

/-- Every ramp is brought to the last forme boundary at the start of the freeze, and counts from there again at its end; a
slew waits for the first galley boundary after it (R89). -/
def Dev.rampsHold (d : Dev) : Dev := d.over allLe fun n d => d.rampCatch n
def Dev.rampsResume (d : Dev) : Dev :=
  let b := d.formeBefore d.now
  let on (r : Ramp) : Ramp := { r with at_ := max r.at_ b }
  d.over allLe fun n d =>
    d.modTx n fun t => { t with ramp := t.ramp.map on, chimeRamp := t.chimeRamp.map on, slewAt := max t.slewAt d.now }

/-! ### Requests (R76 to R79, R85) -/

/-- The state that a request asks for: 1 START ON, 2 BEACON BEACON, 3 STOP OFF. -/
def targetOf (kind : Nat) : Nat := if kind = 1 then 4 else if kind = 2 then 6 else 0

/-- The state the carrier is in or heading to, counting a request that waits (R77). -/
def Dev.heading (d : Dev) (n : Nat) : Nat :=
  let t := (d.le n).tx
  match d.txState n with
  | 0 => 0
  | 8 => 8
  | 4 => match d.entry n with | some e => targetOf e.kind | none => 4
  | 6 => match d.entry n with | some e => targetOf e.kind | none => 6
  | _ => if t.after = 1 then 4 else if t.after = 3 then 0 else t.goal

/-- Does the ramp in progress take in the data subcarriers, or the chime? -/
def LeTx.rampData (t : LeTx) : Bool := match t.ramp with | some r => r.data | none => false
def LeTx.rampChime (t : LeTx) : Bool := match t.ramp with | some r => r.chime | none => false

/-- The errors of a request of REQ code `kind` (R77, R85, R389). KILL is judged as stored before the write. -/
def Dev.reqErrs (d : Dev) (n kind : Nat) : List Err :=
  let t := (d.le n).tx
  let st := d.txState n
  if kind = 0 then []
  else
    failIf (decide (4 ≤ kind)) .reserved ++
    failIf (d.flag Reg.LE_TX_CTRL.KILL n) .state ++
    failIf (t.held == 0 && targetOf kind == d.heading n) .state ++
    failIf (st == 7 && kind != 3) .busy ++
    failIf (st == 5 && t.goal == 0 && t.rampData && kind == 2) .busy ++
    failIf t.calHold .busy ++
    (if kind = 1 then
      failIf ((d.startBanks n).any (d.bankShort n)) .capacity ++
      failIf ((d.startBanks n).any (d.bankUnfit n)) .inconsistent
     else [])

/-- The held request of a planned departure replaced (0 none), with DEPART_WAIT (R78). -/
def Dev.setHeld (d : Dev) (n kind : Nat) : Dev :=
  (d.modTx n fun t => { t with held := kind }).setB Reg.LE_TX_STAT.DEPART_WAIT n (kind != 0)

/-- A request from ON or BEACON takes its place in the start queue, heading to its target. -/
def Dev.queueRequest (d : Dev) (n kind : Nat) : Dev :=
  (d.modTx n fun t => { t with goal := targetOf kind, after := 0 }).enqueue n kind

/-- The departure is over: the carrier leaves the members and the held request proceeds (R78, R217). -/
def Dev.completeDeparture (d : Dev) (n : Nat) : Dev :=
  let kind := (d.le n).tx.held
  let d := (d.endDeparture n).setHeld n 0
  onlyIf (kind != 0 && (d.txState n == 4 || d.txState n == 6)) (fun d => d.queueRequest n kind) d

/-- A member carrier has failed (R218). A departure that was under way is over with it, and its held request proceeds (R217).
(Log 180: DEDUCED) -/
def Dev.memberFail (d : Dev) (n : Nat) : Dev :=
  if !d.member n then d
  else
    let d := d.carrierFail n
    let kind := (d.le n).tx.held
    if kind = 0 then d
    else
      let d := d.setHeld n 0
      onlyIf (d.txState n == 4 || d.txState n == 6) (fun d => d.queueRequest n kind) d

/-- SHUTDOWN without a lag: LEn_TXEN low, and the banks that are up go down under the bank gap; with none up the carrier
is OFF at once (R79). (Log 169: DEDUCED) -/
def Dev.shutdownNow (d : Dev) (n : Nat) : Dev :=
  let d := d.setTxen n false
  let d := d.modTx n fun t => { t with goal := 0, after := 0, ramp := none, chimeRamp := none, lagDone := true, killBanks := false }
  if d.banksOff n then (d.dequeue n).enterTx n 0
  else (d.enterTx n 7).enqueue n 3

/-- ENABLE: LEn_TXEN high, and the lead begins (R75). -/
def Dev.enterEnable (d : Dev) (n : Nat) : Dev :=
  let d := d.setTxen n true
  (d.modTx n fun t => { t with txenEnd := d.now + us (d.get Reg.LE_TX_TXEN.LEAD_US n), leadDone := false }).enterTx n 2

/-- A request that reverses a STOP takes its entry out of the queue (R79, R85, R88). -/
def Dev.withdraw (d : Dev) (n kind : Nat) : Dev := if kind = 3 then d else d.dequeue n

/-- An accepted request takes effect (R76, R78, R79, R85). (Log 39: DEDUCED) -/
def Dev.request (d : Dev) (n kind : Nat) : Dev :=
  let t := (d.le n).tx
  if kind = 0 then d
  else if t.held != 0 then
    if kind = 1 && d.txState n == 4 then (d.setHeld n 0).modFmx fun x => { x with departing := setBit x.departing n false }
    else d.setHeld n kind
  else
    match d.txState n with
    | 0 => ((d.modTx n fun t => { t with goal := targetOf kind, after := 0 }).enterTx n 1).enqueue n kind
    | 1 => if kind = 3 then d.shutdownNow n else (d.modTx n fun t => { t with goal := targetOf kind }).enqueue n kind
    | 2 => if kind = 3 then d.shutdownNow n else (d.modTx n fun t => { t with goal := targetOf kind }).enqueue n kind
    | 8 =>
      if kind = 3 then d.shutdownNow n
      else
        let d := d.modTx n fun t => { t with goal := targetOf kind, after := 0, killBanks := false }
        if d.banksUp n then (d.enterEnable n).enqueue n kind else (d.enterTx n 1).enqueue n kind
    | 3 =>
      let d := d.rampCatch n
      if t.rampData && !t.rampChime && kind = 3 then d.modTx n fun t => { t with goal := 6, after := 3 }
      else if !t.rampData && kind = 1 then d.modTx n fun t => { t with after := 1 }
      else (d.modTx n fun t => { t with goal := targetOf kind, after := 0 }).withdraw n kind
    | 5 =>
      let d := d.rampCatch n
      if t.rampData && !t.rampChime && kind = 3 then d.modTx n fun t => { t with after := 3 }
      else if !t.rampData && kind = 1 then (d.modTx n fun t => { t with goal := 6, after := 1 }).withdraw n kind
      else (d.modTx n fun t => { t with goal := targetOf kind, after := 0 }).withdraw n kind
    | 4 =>
      if kind = 1 then (d.modTx n fun t => { t with goal := 4 }).dequeue n
      else if d.member n then
        let d := (d.setHeld n kind).beginDeparture n
        if d.departureMet n then d.completeDeparture n else d
      else d.queueRequest n kind
    | 6 =>
      if kind = 2 then (d.modTx n fun t => { t with goal := 6 }).dequeue n
      else if kind = 3 && d.member n then
        let d := (d.setHeld n kind).beginDeparture n
        if d.departureMet n then d.completeDeparture n else d
      else d.queueRequest n kind
    | _ => d

/-! ### Kill and TXEN fault (R83, R84) -/

/-- What a kill or a TXEN fault does to the carrier: the DACs squelched, LEn_TXEN low, and each transmit state as the
table of R84 fixes; on a member it is a carrier failure. -/
def Dev.halt (d : Dev) (n : Nat) : Dev :=
  let st := d.txState n
  let d := (d.setTxen n false).setPower n 0
  let d := d.setHeld n 0
  let d := d.modTx n fun t => { t with ramp := none, chimeRamp := none, after := 0, dataFrac := 0, chimeFrac := 0 }
  let d :=
    match st with
    | 0 => d
    | 1 => (d.modTx n fun t => { t with killBanks := true }).enterTx n 8
    | 7 => if (d.le n).tx.goal = 8 then (d.dequeue n).enterTx n 8 else d.modTx n fun t => { t with lagDone := true }
    | 8 => d
    | _ => (d.dequeue n).enterTx n 8
  (d.modFmx fun x => { x with departing := setBit x.departing n false }).carrierFail n

/-- What a TXEN fault does: as a kill, but the carrier enters HALTED from OFF and SHUTDOWN as well (R83). (Log 156: DEDUCED) -/
def Dev.txenHalt (d : Dev) (n : Nat) : Dev :=
  let st := d.txState n
  let d := d.halt n
  if st = 0 ∨ st = 7 then (d.dequeue n).enterTx n 8 else d

/-! ### Ramp slots and the ends of ramps (R75, R76, R85, R88) -/

/-- A ramp slot granted to line engine `n`: what ramps follows from the state and the request (R76, R88). -/
def Dev.startRamp (d : Dev) (n kind : Nat) : Dev :=
  let t := (d.le n).tx
  let st := d.txState n
  let total := d.rampFormes n
  let mk (up data chime : Bool) : Ramp := ⟨up, data, chime, if up then 0 else 63, 0, total, d.now⟩
  let r :=
    if st = 2 then mk true (t.goal == 4) true
    else if st = 6 then (if kind = 1 then mk true true false else mk false false true)
    else if kind = 2 then mk false true false else mk false true true
  let d := d.modTx n fun t => { t with ramp := some r }
  let d := (d.enterTx n (if r.up then 3 else 5)).showRamp n
  if kind = 3 && !t.calHold then d.granted n else d.dequeue n

/-- The end of a ramp: ON, BEACON or SHUTDOWN, and then the request that waited for it (R75, R85). A STOP that reversed a
ramp holds no entry: it takes one at the tail for its bank transitions. -/
def Dev.endRamp (d : Dev) (n : Nat) : Dev :=
  let t := (d.le n).tx
  let d := d.modTx n fun t => { t with ramp := none, chimeRamp := none }
  if t.goal = 4 then
    (d.modTx n fun t => { t with dataFrac := 65535, chimeFrac := 65535 }).enterTx n 4
  else if t.goal = 6 then
    let d := (d.modTx n fun t => { t with dataFrac := 0, chimeFrac := 65535, after := 0 }).enterTx n 6
    if t.after = 1 then d.queueRequest n 1 else if t.after = 3 then d.queueRequest n 3 else d
  else
    let d := d.modTx n fun t =>
      { t with dataFrac := 0, chimeFrac := 0, lagDone := false, txenEnd := d.now + us (d.get Reg.LE_TX_TXEN.LAG_US n) }
    let d := d.enterTx n 7
    if t.goal = 0 && (d.entry n).isNone then d.enqueue n 3 else d

/-! ### The mask (R69 to R71) -/

/-- The gain applied to a bin now, in 0.01 dB, as a multiple of 1/N: the start value and the part of the change made.
(Log 168: DESIGN CHOICE) -/
def LeTx.maskGain (t : LeTx) (slewLeft bin : Nat) : Int :=
  let a := Store.get (fun _ => (0 : Int)) t.maskFrom bin
  let b := Store.get (fun _ => (0 : Int)) t.maskTo bin
  if t.maskN = 0 then b else a + (b - a) * ((t.maskN : Int) - (slewLeft : Int)) / (t.maskN : Int)

/-- The 128 gains of mask bank `b` as a store. -/
def Dev.maskBank (d : Dev) (n b : Nat) : Store Int :=
  (List.range 128).foldl (fun st i =>
    Store.set (fun _ => (0 : Int)) st i (sgn 16 (d.tab (pageOf .tx n) (3 + b) i 0))) []

/-- The shadow mask becomes the target: N is the least number of galleys that keeps every bin's step within 0.5 dB.
(Log 168: DESIGN CHOICE) -/
def Dev.retargetMask (d : Dev) (n : Nat) : Dev :=
  let t := (d.le n).tx
  let left := d.get Reg.LE_TX_MASK_CTRL.SLEW_LEFT n
  let now := (List.range 128).foldl (fun st i => Store.set (fun _ => (0 : Int)) st i (t.maskGain left i)) []
  let bank := 1 - d.get Reg.LE_TX_MASK_CTRL.ACTIVE n
  let to_ := d.maskBank n bank
  let diff (i : Nat) : Nat :=
    (Store.get (fun _ => (0 : Int)) to_ i - Store.get (fun _ => (0 : Int)) now i).natAbs
  let m := ((List.range 128).map diff).foldl max 0
  let N := max 1 (ceilDiv m 50)
  let d := d.modTx n fun t => { t with maskFrom := now, maskTo := to_, maskN := N, maskWait := none, slewAt := d.now }
  let d := ((d.set Reg.LE_TX_MASK_CTRL.ACTIVE n bank).set Reg.LE_TX_MASK_CTRL.COMMIT n 0).set Reg.LE_TX_MASK_CTRL.SLEW_LEFT n N
  d.setB Reg.LE_TX_MASK_CTRL.SLEWING n (decide (1 < N))

/-- One galley boundary of a slew, the first after the last step: every bin moves one N-th of its change;
`LE:MASK_SLEWED` at the target. (Log 45: DESIGN CHOICE) -/
def Dev.slewStep (d : Dev) (n : Nat) : Dev :=
  let left := d.get Reg.LE_TX_MASK_CTRL.SLEW_LEFT n
  if left = 0 || d.frozenSupply then d
  else
    let b := d.galleyFrom ((d.le n).tx.slewAt + 1)
    let d := ((d.until b).set Reg.LE_TX_MASK_CTRL.SLEW_LEFT n (left - 1)).modTx n fun t => { t with slewAt := b }
    if left = 1 then (d.setB Reg.LE_TX_MASK_CTRL.SLEWING n false).raise Ev.maskSlewed n n 0 else d

end Sys2Proof.Machine
end

