-- ==== Sys2Proof/Machine/Defects.lean ====
section
/-! DEFINITION. Defects: raw conditions, integration, reporting and consequent actions (R172 to R178), with what they
write into performance monitoring (R181). -/

namespace Sys2Proof.Machine

/-! ### The integration table (R174, R191) -/

/-- The entry of defect `k`: 0 dLOS to 5 dBDI, 6 dFAIS, 7 dKEY, 8 dDESKEW. -/
def Dev.defWord (d : Dev) (k : Nat) : Nat := d.tab 0x208 0x01 k 0
def Dev.defClear (d : Dev) (k : Nat) : Nat := bitsOf (d.defWord k) 20 12
def Dev.defSet (d : Dev) (k : Nat) : Nat := bitsOf (d.defWord k) 8 12
def Dev.defUnit (d : Dev) (k : Nat) : Nat := bitsOf (d.defWord k) 6 2
def Dev.defPm (d : Dev) (k : Nat) : Bool := bitOf (d.defWord k) 3
def Dev.defCfail (d : Dev) (k : Nat) : Bool := bitOf (d.defWord k) 2
def Dev.defBdi (d : Dev) (k : Nat) : Bool := bitOf (d.defWord k) 1
def Dev.defEvent (d : Dev) (k : Nat) : Bool := bitOf (d.defWord k) 0

/-- The checks of a write to the integration table (R175). -/
def integrationErrs (k w : Nat) : List Err :=
  failIf (decide (8 < k)) .index ++
  failIf (bitsOf w 6 2 == 3 || bitsOf w 4 2 != 0) .reserved ++
  failIf (decide (k ≤ 2) && !bitOf w 2) .inconsistent ++
  failIf (decide (5 ≤ k) && bitOf w 1) .inconsistent ++
  failIf (decide (6 ≤ k) && bitOf w 2) .inconsistent

/-! ### Carrier defects -/

/-- A carrier's defect `k`, and its replacement. -/
def Dev.defect (d : Dev) (n k : Nat) : Defect := Store.get (fun _ => Defect.reset) (d.le n).frm.defects k
def Dev.setDefect (d : Dev) (n k : Nat) (x : Defect) : Dev :=
  d.modFrm n fun f => { f with defects := Store.set (fun _ => Defect.reset) f.defects k x }

/-- Is forme alignment, or galley alignment, held? -/
def Dev.fa (d : Dev) (n : Nat) : Bool := d.flag Reg.FRM_ALIGN_STAT.FA n
def Dev.ga (d : Dev) (n : Nat) : Bool := d.flag Reg.FRM_ALIGN_STAT.GA n

/-- Is no carrier-level raw condition asserted in the present receive state (R172)? -/
def Dev.rawMasked (d : Dev) (n : Nat) : Bool :=
  !d.flag Reg.LE_RX_CTRL.EN n || d.rxState n == 0 || d.rxState n == 1 || d.rxState n == 10

/-- Does the receive state lie from CD_SEARCH to PHASE? -/
def Dev.acquiring (d : Dev) (n : Nat) : Bool := decide (3 ≤ d.rxState n ∧ d.rxState n ≤ 7)

/-- The raw condition `k` of carrier `n` (R172). -/
def Dev.rawDefect (d : Dev) (n k : Nat) : Bool :=
  let f := (d.le n).frm
  if d.rawMasked n then false
  else match k with
    | 0 => d.flag Reg.LE_RX_STAT.LOS n
    | 1 => d.acquiring n && !f.lolHeld
    | 2 => !d.fa n && (d.rxState n == 8 || d.rxState n == 9 || (d.acquiring n && f.lolHeld))
    | 3 => d.fa n && !d.ga n
    | 4 => f.rawFecx
    | 5 => f.rxBdi
    | _ => false

/-- Is a carrier-level defect declared on carrier `n`? -/
def Dev.anyDefect (d : Dev) (n : Nat) : Bool := (List.range 6).any fun k => (d.defect n k).decl

/-- Does carrier `n` give the carrier-fail indication (R177)? -/
def Dev.cfail (d : Dev) (n : Nat) : Bool := (List.range 6).any fun k => (d.defect n k).decl && d.defCfail k

/-- The highest declared defect with the BDI action: its cause code (R165); 0 where there is none. -/
def Dev.bdiCause (d : Dev) (n : Nat) : Nat :=
  match (List.range 6).find? fun k => (d.defect n k).decl && d.defBdi k with
  | some k => k + 1
  | none => 0

/-- BDI of the forme being built, with its cause (R165, R177). -/
def Dev.bdiNow (d : Dev) (n : Nat) : Bool × Nat :=
  if d.flag Reg.FRM_BDI_CTRL.INHIBIT n then (false, 0)
  else if d.flag Reg.FRM_BDI_CTRL.FORCE n then (true, 7)
  else (d.bdiCause n != 0, d.bdiCause n)

/-! ### Defects of flows -/

/-- Per-flow defect `k` (0 dFAIS, 1 dKEY, 2 dDESKEW) of flow `f`, and its replacement. -/
def Dev.fdef (d : Dev) (f k : Nat) : Defect := Store.get (fun _ => Defect.reset) d.flowDef (f * 3 + k)
def Dev.setFdef (d : Dev) (f k : Nat) (x : Defect) : Dev :=
  { d with flowDef := Store.set (fun _ => Defect.reset) d.flowDef (f * 3 + k) x }

/-- Performance monitoring of flow `f`, and a change of it. -/
def Dev.fpm (d : Dev) (f : Nat) : Pm := Store.get (fun _ => Pm.reset) d.flowPm f
def Dev.modFpm (d : Dev) (f : Nat) (g : Pm → Pm) : Dev :=
  { d with flowPm := Store.set (fun _ => Pm.reset) d.flowPm f (g (d.fpm f)) }

/-- A change after which flows of `l` may have left service in the receive direction: where one has, its LSEQ is unset and its second
is inhibited (R184, R201). (Log 70: DEDUCED) -/
def Dev.watchRx (d : Dev) (l : List Nat) (f : Dev → Dev) : Dev :=
  (f d).over (l.filter d.rxInService) fun k e =>
    if e.rxInService k then e
    else (e.modFmx fun x => { x with lseqRx := Store.set (fun _ => 0) x.lseqRx k 0 }).modFpm k fun p => { p with inh := true }

/-- The flows with receive sorts in the applied map, or with a sort on carrier `n`. -/
def PlacedMap.flows (m : PlacedMap) : List Nat := insertAll (m.map.map fun e => flowOf e.2) []
def PlacedMap.flowsOn (m : PlacedMap) (n : Nat) : List Nat :=
  insertAll ((m.map.filter fun e => e.1 / 128 == n).map fun e => flowOf e.2) []

/-- Is a flow's report suppressed by a carrier-level defect (R176)? -/
def Dev.flowSupp (d : Dev) (f : Nat) : Bool := (d.fmx.rx.carriersOf f).any d.anyDefect

/-- Is defect `k` of flow `f` to be reported? -/
def Dev.fdefReport (d : Dev) (f k : Nat) : Bool :=
  (d.fdef f k).decl && !((List.range k).any fun j => (d.fdef f j).decl) && !d.flowSupp f

/-- The code of `FRM:FLOW_DEFECT` (R178). -/
def flowDefectCode (on : Bool) (f k : Nat) : Nat := b1 on * pow2 15 + k * pow2 12 + f

/-- One reported state of a flow brought up to date with its event. -/
def Dev.fdefSay (d : Dev) (f k : Nat) (want : Bool) : Dev :=
  let x := d.fdef f k
  if d.fdefReport f k == want && x.rept != want then
    let d := d.setFdef f k { x with rept := want }
    if d.defEvent (6 + k) then d.raise Ev.flowDefect 0 0 (flowDefectCode want f k) else d
  else d

/-- The reports of flow `f` brought up to date: those that end first. -/
def Dev.fdefReports (d : Dev) (f : Nat) : Dev :=
  (d.over [0, 1, 2] fun k d => d.fdefSay f k false).over [0, 1, 2] fun k d => d.fdefSay f k true

/-- Flows of `l` take up the reporting after a change on a carrier. -/
def Dev.flowReports (d : Dev) (l : List Nat) : Dev := d.over l fun f d => d.fdefReports f

/-- A second of flow `f` is a defect second where a defect with PM is declared (R181). -/
def Dev.flowPmMark (d : Dev) (f : Nat) : Dev :=
  if (List.range 3).any (fun k => (d.fdef f k).decl && d.defPm (6 + k)) ||
      (d.fmx.rx.carriersOf f).any fun n => (List.range 6).any fun k => (d.defect n k).decl && d.defPm k then
    d.modFpm f fun p => { p with defSec := true }
  else d

/-! ### Declaration, clearing and reporting on a carrier -/

/-- The defect registers follow the defects (R188). -/
def Dev.showDefects (d : Dev) (n : Nat) : Dev :=
  let mask (p : Defect → Bool) : Nat := (List.range 6).foldl (fun m k => m + b1 (p (d.defect n k)) * pow2 k) 0
  ((d.set Reg.FRM_DEF_STAT.RAW n (mask (·.raw))).set Reg.FRM_DEF_STAT.DECL n (mask (·.decl))).set
    Reg.FRM_DEF_STAT.REPT n (mask (·.rept))

/-- Is defect `k` of carrier `n` to be reported (R176)? -/
def Dev.defReport (d : Dev) (n k : Nat) : Bool :=
  (d.defect n k).decl && !((List.range k).any fun j => (d.defect n j).decl)

/-- One reported state brought up to date with its event (R176, R178). -/
def Dev.defSay (d : Dev) (n k : Nat) (want : Bool) : Dev :=
  let x := d.defect n k
  if d.defReport n k == want && x.rept != want then
    let d := d.setDefect n k { x with rept := want }
    if d.defEvent k then d.raise (Ev.frmDefect k) n n (b1 want) else d
  else d

/-- After any change of declared defects on carrier `n`: reports and events, the registers, the carrier-fail indication,
the flows it carries, and defect seconds (R176, R177, R181, R218). (Log 61: DEDUCED) -/
def Dev.defSettle (d : Dev) (n : Nat) : Dev :=
  let d := (d.over (List.range 6) fun k d => d.defSay n k false).over (List.range 6) fun k d => d.defSay n k true
  let d := d.showDefects n
  let flows := d.fmx.rx.flowsOn n
  let d := d.flowReports flows
  let d :=
    if (List.range 6).any fun k => (d.defect n k).decl && d.defPm k then
      (d.modFrm n fun f => { f with pm := { f.pm with defSec := true } }).over flows fun f d => d.flowPmMark f
    else d
  if d.cfail n then d.memberFail n else d

/-- A raw condition taken up the moment it changes: SET = 0 declares at once, CLEAR = 0 clears at once (R173). -/
def Defect.take (x : Defect) (raw : Bool) (set clear : Nat) : Defect :=
  let y := { x with raw := raw, seen := x.seen || raw }
  if raw && !x.raw && !x.decl && set = 0 then { y with decl := true, run := 0 }
  else if !raw && x.raw && x.decl && clear = 0 then { y with decl := false, run := 0 }
  else y

/-- The end of a unit (R173). With SET = 0 the unit itself declares nothing that is over. (Log 62: DEDUCED, 184: DEDUCED) -/
def Defect.endUnit (x : Defect) (set clear : Nat) : Defect :=
  let y := { x with seen := x.raw, skip := false }
  if x.skip then y
  else if x.decl then
    if x.seen then { y with run := 0 }
    else if clear ≤ x.run + 1 then { y with decl := false, run := 0 } else { y with run := x.run + 1 }
  else
    if x.seen then (if (if set = 0 then x.raw else decide (set ≤ x.run + 1)) then { y with decl := true, run := 0 } else { y with run := x.run + 1 })
    else { y with run := 0 }

/-- A unit of kind `u` ends for the carrier's defects. -/
def Dev.unitEnds (d : Dev) (n u : Nat) : Dev :=
  d.over (List.range 6) fun k d =>
    if d.defUnit k = u then d.setDefect n k ((d.defect n k).endUnit (d.defSet k) (d.defClear k)) else d

/-- Where forme or galley alignment has changed, the grid of those units has: the unit in progress ends (R173). (Log 184: DEDUCED) -/
def Dev.gridSync (d : Dev) (n : Nat) : Dev :=
  let was := (d.le n).frm.aligned
  let now := (d.fa n, d.ga n)
  if was = now then d
  else
    let d := onlyIf (was.1 != now.1) (fun d => d.unitEnds n 0) d
    let d := onlyIf (was.2 != now.2) (fun d => d.unitEnds n 1) d
    d.modFrm n fun f => { f with aligned := now }

/-- The raw conditions of carrier `n` are looked at after anything that may change them. Where none can be asserted every
carrier-level defect clears at once, without integration and without events (R172), and the seconds of the carrier are
inhibited (R184). -/
def Dev.defSync (d : Dev) (n : Nat) : Dev :=
  if d.rawMasked n then
    let d := d.modFrm n fun f => { f with defects := [], aligned := (d.fa n, d.ga n), pm := { f.pm with inh := true } }
    (d.showDefects n).flowReports (d.fmx.rx.flowsOn n)
  else
    ((d.gridSync n).over (List.range 6) fun k d =>
      d.setDefect n k ((d.defect n k).take (d.rawDefect n k) (d.defSet k) (d.defClear k))).defSettle n

/-- A unit of kind `u` ends on carrier `n` (R173). (Log 61: DEDUCED, 62: DEDUCED) -/
def Dev.defUnitEnd (d : Dev) (n u : Nat) : Dev :=
  if d.rawMasked n then d
  else ((d.defSync n).unitEnds n u).defSettle n

/-- The raw condition `k` of flow `f` (R172). A flow with a receive sort keeps the raw condition of its last galley. -/
def Dev.flowRaw (d : Dev) (f k : Nat) (raw : Bool) : Dev :=
  (((d.setFdef f k ((d.fdef f k).take raw (d.defSet (6 + k)) (d.defClear (6 + k)))).fdefReports f).flowPmMark f)

/-- The galley in progress is a skipped unit of defect `k` of flow `f` (R162). -/
def Dev.flowSkip (d : Dev) (f k : Nat) : Dev := d.setFdef f k { d.fdef f k with skip := true }

/-- A unit of kind `u` ends for the per-flow defects (R173). -/
def Dev.flowUnitEnd (d : Dev) (u : Nat) : Dev :=
  d.over (insertAll (d.flowDef.map fun e => e.1 / 3) []) fun f d =>
    (((d.over [0, 1, 2] fun k d =>
      if d.defUnit (6 + k) = u then
        d.setFdef f k ((d.fdef f k).endUnit (d.defSet (6 + k)) (d.defClear (6 + k)))
      else d).fdefReports f).flowPmMark f)

end Sys2Proof.Machine
end

