-- ==== Sys2Proof/Machine/Coding.lean ====
section
/-! DEFINITION. The codes of the line, each as its encoder and its decoder: LDPC (R135 to R138), staircase (R140, R141, R143)
and trellis (R142, R143). Bits are lists of Booleans; a ratio is positive where 0 is the likelier bit (R146). -/

namespace Sys2Proof.Machine

/-- The number that bits spell, first bit most significant, and the bits of a number. -/
def ofBits (l : List Bool) : Nat := l.foldl (fun a b => 2 * a + b1 b) 0
def bitsOfMSB (n v : Nat) : List Bool := (List.range n).map fun i => bitOf v (n - 1 - i)

/-- The bytes that bits spell, eight to a byte, most significant first. -/
def bytesOfBits : List Bool → List Nat
  | a :: b :: c :: e :: f :: g :: h :: i :: rest => ofBits [a, b, c, e, f, g, h, i] :: bytesOfBits rest
  | _ => []

/-- The hard decision of a ratio: its sign, with 0 taken as zero (R146). -/
def hardBit (r : Int) : Bool := decide (r < 0)

/-- The places among `keep` at which two sequences of bits differ. -/
def bitErrors (keep : Nat → Bool) (a b : List Bool) : Nat :=
  ((List.range a.length).zip (a.zip b)).foldl (fun n e => n + b1 (keep e.1 && e.2.1 != e.2.2)) 0

/-! ### LDPC (R135 to R138) -/

/-- The base rows of a code (0 LD20, 1 LD26), its information columns, and K (R135). -/
def ldpcRows (code : Nat) : Nat := if code = 0 then 8 else 10
def ldpcCols (code : Nat) : Nat := 48 - ldpcRows code
def ldpcK (code : Nat) : Nat := 256 * ldpcCols code

/-- The entry of a base matrix at `idx` = row × 48 + column: a shift from 0 to 255, or 0xFFFF for the zero matrix (R154). The
parity part is dual-diagonal: the parity column of row r has entries in rows r and r + 1 alone (R135).
(Log 9: DESIGN CHOICE, 153: DESIGN CHOICE) -/
def ldpcEntry (code idx : Nat) : Nat :=
  let v := if code = 0 then Config.ldpcShift20 idx else Config.ldpcShift26 idx
  let c := idx % 48
  if c < ldpcCols code then (if v ≤ 255 then v else 0xFFFF)
  else if c = ldpcCols code + idx / 48 ∨ c + 1 = ldpcCols code + idx / 48 then v % 256
  else 0xFFFF

/-- The codeword positions that check `z` of base row `r` sums: the identity shifted right by s has its row z at column z + s. -/
def ldpcTaps (code r z : Nat) : List Nat :=
  (List.range 48).filterMap fun c =>
    let s := ldpcEntry code (48 * r + c)
    if s = 0xFFFF then none else some (256 * c + (z + s) % 256)

/-- The sum of some positions of a word; a position not yet known counts 0. -/
def parityOf (w : Array Bool) (taps : List Nat) : Bool := taps.foldl (fun a p => a != w.getD p false) false

/-- The parity block of base row `r` follows the information and the blocks before it: each of its bits completes one check.
(Log 153: DESIGN CHOICE) -/
def ldpcParity (code : Nat) (w : Array Bool) (r : Nat) : Array Bool :=
  let s := ldpcEntry code (48 * r + ldpcCols code + r)
  w ++ ((List.range 256).map fun y => parityOf w (ldpcTaps code r ((y + 256 - s) % 256))).toArray

/-- A codeword from its information bits. -/
def ldpcEncode (code : Nat) (info : List Bool) : Array Bool := (List.range (ldpcRows code)).foldl (ldpcParity code) info.toArray

/-- Does a word satisfy every check? -/
def ldpcSatisfied (code : Nat) (w : Array Bool) : Bool :=
  (List.range (ldpcRows code)).all fun r => (List.range 256).all fun z => !parityOf w (ldpcTaps code r z)

/-- The information bits of codeword `w` among framed bits; a position at or beyond F is fill and carries 0 (R136). -/
def ldpcInfo (code : Nat) (framed : Array Bool) (w : Nat) : List Bool :=
  (List.range (ldpcK code)).map fun k => framed.getD (w * ldpcK code + k) false

/-- The coded bits of a forme of `units` codewords: bit b of codeword w is coded bit b × C + w (R137). -/
def ldpcForme (code units : Nat) (framed : List Bool) : List Bool :=
  let cws := ((List.range units).map fun w => ldpcEncode code (ldpcInfo code framed.toArray w)).toArray
  (List.range (12288 * units)).map fun x => (cws.getD (x % units) #[]).getD (x / units) false

/-- The offset min-sum messages of one check to its positions, from theirs to it. (Log 153: DESIGN CHOICE) -/
def minSum (offset : Nat) (t : List Int) : List Int :=
  (List.range t.length).map fun i =>
    match t.eraseIdx i with
    | [] => 0
    | x :: rest =>
      let size : Int := (rest.foldl (fun m y => min m y.natAbs) x.natAbs) - offset
      let neg := (x :: rest).foldl (fun s y => s != hardBit y) false
      if size ≤ 0 then 0 else if neg then -size else size

/-- A check updates its messages and the ratios of its positions; a known position keeps its ratio. (Log 153: DESIGN CHOICE) -/
def ldpcCheckStep (code : Nat) (known : Nat → Bool) (r : Nat) (s : Array Int × Array (List Int)) (z : Nat) : Array Int × Array (List Int) :=
  let taps := ldpcTaps code r z
  let old := s.2.getD (256 * r + z) []
  let t := (List.range taps.length).map fun i => s.1.getD (taps.getD i 0) 0 - old.getD i 0
  let new := minSum Config.minSumOffset t
  ((List.range taps.length).foldl (fun a i =>
      if known (taps.getD i 0) then a else a.setIfInBounds (taps.getD i 0) (t.getD i 0 + new.getD i 0)) s.1,
    s.2.setIfInBounds (256 * r + z) new)

/-- One iteration: the base rows are the layers, in order (R138). (Log 153: DESIGN CHOICE) -/
def ldpcIteration (code : Nat) (known : Nat → Bool) (s : Array Int × Array (List Int)) : Array Int × Array (List Int) :=
  (List.range (ldpcRows code)).foldl (fun s r => (List.range 256).foldl (ldpcCheckStep code known r) s) s

/-- At most so many iterations, until every check is satisfied: the iterations used, none where a check still fails, and the
hard decisions of the last (R138). -/
def ldpcRun (code : Nat) (known : Nat → Bool) : Nat → Nat → Array Int × Array (List Int) → Option Nat × Array Bool
  | 0, _, s => (none, s.1.map hardBit)
  | fuel + 1, used, s =>
    let s := ldpcIteration code known s
    if ldpcSatisfied code (s.1.map hardBit) then (some (used + 1), s.1.map hardBit) else ldpcRun code known fuel (used + 1) s

/-- What the decoder makes of codeword `w` of a forme with `units` codewords and F framed bits: the iterations (17 where
uncorrected), the information bits, and the corrected positions, fill left out. Fill is known to be zero (R136, R146). -/
def ldpcDecode (code units F iterMax : Nat) (ratios : Array Int) (w : Nat) : Nat × List Bool × Nat :=
  let fill (p : Nat) : Bool := decide (p < ldpcK code) && decide (F ≤ w * ldpcK code + p)
  let heard := (List.range 12288).map fun b => if fill b then 31 else ratios.getD (b * units + w) 0
  let (used, word) := ldpcRun code fill iterMax 0 (heard.toArray, Array.replicate (256 * ldpcRows code) [])
  (used.getD 17, word.toList.take (ldpcK code),
    if used.isSome then bitErrors (fun p => !fill p) word.toList (heard.map hardBit) else 0)

/-! ### The component code and the staircase (R140, R141) -/

/-- The generator of the component code: (x + 1) times the minimal polynomials of α, α^3 and α^5. -/
def bchGen : Nat := 0x6B09EB287

/-- The remainder of the `n` bits of `v` by the generator, most significant first, from a remainder. (Log 151: DEDUCED) -/
def bchRem : Nat → Nat → Nat → Nat
  | 0, _, r => r
  | n + 1, v, r =>
    let r := 2 * r + b1 (bitOf v n)
    bchRem n v (if bitOf r 34 then r ^^^ bchGen else r)

/-- A block is its 528 rows as numbers, column 0 most significant; the empty block is all zeros. Its bit, and a column as a
number, row 0 most significant. -/
def blockBit (b : List Nat) (r c : Nat) : Bool := bitOf (b.getD r 0) (527 - c)
def blockColumn (b : List Nat) (c : Nat) : Nat := (List.range 528).foldl (fun a r => 2 * a + b1 (blockBit b r c)) 0

/-- The component word of row `r`: column r of the block before, then row r (R140). -/
def stairWord (a b : List Nat) (r : Nat) : Nat := blockColumn a r * pow2 528 + b.getD r 0

/-- Row `r` of a block from its 494 information bits, with the 34 parity bits that make its word a codeword. -/
def stairRow (a : List Nat) (r info : Nat) : Nat :=
  info * pow2 34 + bchRem 1056 ((blockColumn a r * pow2 494 + info) * pow2 34) 0

/-- Block `k` of a forme after block `a`: framed bits fill the information columns row by row, and those beyond F are 0
(R141). -/
def stairBlock (a : List Nat) (framed : Array Bool) (k : Nat) : List Nat :=
  (List.range 528).map fun r => stairRow a r (ofBits ((List.range 494).map fun c => framed.getD ((k * 528 + r) * 494 + c) false))

/-- The eight blocks of a forme after block `a`. -/
def stairForme (a : List Nat) (framed : List Bool) : List (List Nat) :=
  ((List.range 8).foldl (fun (s : List Nat × List (List Nat)) k =>
    let b := stairBlock s.1 framed.toArray k
    (b, s.2 ++ [b])) (a, [])).2

/-- The staircase output: the blocks in order, each row by row (R141). -/
def stairOut (blocks : List (List Nat)) : List Bool := blocks.flatMap fun b => (List.range 528).flatMap fun r => bitsOfMSB 528 (b.getD r 0)

/-- The information bits of a block. -/
def stairInfo (b : List Nat) : List Bool := (List.range 528).flatMap fun r => bitsOfMSB 494 (b.getD r 0 / pow2 34)

/-- The syndromes of a component word at 1, α, α^3 and α^5. -/
def bchSyndrome (v : Nat) : Nat × Nat × Nat × Nat :=
  let e (x : Nat) : Nat := gfEval (bitsOfMSB 1056 v) x
  (e 1, e (gfAlpha 1), e (gfAlpha 3), e (gfAlpha 5))

/-- The syndromes with an error at degree `i` taken away. -/
def bchWithout (s : Nat × Nat × Nat × Nat) (i : Nat) : Nat × Nat × Nat × Nat :=
  (s.1 ^^^ 1, s.2.1 ^^^ gfAlpha (i % 2047), s.2.2.1 ^^^ gfAlpha (3 * i % 2047), s.2.2.2 ^^^ gfAlpha (5 * i % 2047))

/-- The degrees, below `n`, of so many errors that explain the syndromes. -/
def bchFind : Nat → Nat → Nat × Nat × Nat × Nat → Option (List Nat)
  | 0, _, s => if s = (0, 0, 0, 0) then some [] else none
  | w + 1, n, s => (List.range n).findSome? fun i => (bchFind w i (bchWithout s i)).map (i :: ·)

/-- The degrees of the errors of a component word: up to three are corrected, more are detected (R140). -/
def bchErrors (v : Nat) : Option (List Nat) := (List.range 4).findSome? fun w => bchFind w 1056 (bchSyndrome v)

/-- Bit `c` of row `r` of a block inverted. -/
def blockFlip (b : List Nat) (r c : Nat) : List Nat := (List.range 528).map fun k => if k = r then b.getD k 0 ^^^ pow2 (527 - c) else b.getD k 0

/-- The component words of two successive blocks decoded, row by row: both blocks are corrected. (Log 155: DESIGN CHOICE) -/
def stairPair (a b : List Nat) : List Nat × List Nat :=
  (List.range 528).foldl (fun (s : List Nat × List Nat) r =>
    match bchErrors (stairWord s.1 s.2 r) with
    | none => s
    | some l => l.foldl (fun s e => if 528 ≤ e then (blockFlip s.1 (1055 - e) r, s.2) else (s.1, blockFlip s.2 r (527 - e))) s) (a, b)

/-- Does a component word of two successive blocks fail its syndrome? -/
def stairFails (a b : List Nat) : Bool := (List.range 528).any fun r => bchSyndrome (stairWord a b r) != (0, 0, 0, 0)

/-- One pass of component decoding over a window, oldest block first, from the block `a` on. A block with `false` does not follow
on the one before it. (Log 155: DESIGN CHOICE) -/
def stairPass : List Nat × Bool → List (List Nat × Bool) → List (List Nat × Bool)
  | a, [] => [a]
  | a, b :: rest =>
    if b.2 then
      let (x, y) := stairPair a.1 b.1
      (x, a.2) :: stairPass (y, true) rest
    else a :: stairPass b rest

/-! ### The trellis (R142, R143) -/

/-- So many steps of sixteen bits through the trellis encoder; missing bits are 0. -/
def trellisSteps : Nat → Nat → List Bool → List Bool
  | 0, _, _ => []
  | n + 1, s, l =>
    let (out, s') := trellisOut s ((l.take 16) ++ List.replicate (16 - l.length) false)
    out ++ trellisSteps n s' (l.drop 16)

/-- A forme's trellis output: 139,392 data steps from state 0, four tail steps of zeros, and 2,344 fill bits (R142). -/
def trellisForme (stair : List Bool) : List Bool := trellisSteps (139392 + 4) 0 stair ++ List.replicate 2344 false

/-- The best path into each of the 16 states one step on: its metric, none where no path leads there, and whether it comes from
the upper half of the states. Of two equally good paths the one from the lower half is kept. (Log 155: DESIGN CHOICE) -/
def viterbiStep (m : List (Option Int)) (r : Int × Int) : List (Option Int) × List Bool :=
  let sum (s : Nat) (u : Bool) : Option Int :=
    let (c0, c1, _) := trellisStep s u
    (m.getD s none).map fun v => v + (if c0 then -r.1 else r.1) + (if c1 then -r.2 else r.2)
  let best := (List.range 16).map fun s' =>
    let u := bitOf s' 0
    match sum (s' / 2) u, sum (s' / 2 + 8) u with
    | some a, some b => if a < b then (some b, true) else (some a, false)
    | some a, none => (some a, false)
    | none, some b => (some b, true)
    | none, none => (none, false)
  (best.map (·.1), best.map (·.2))

/-- The inputs along the kept paths back from a state, last step first. -/
def viterbiTrace : Nat → List (List Bool) → List Bool → List Bool
  | _, [], acc => acc
  | s, step :: rest, acc => viterbiTrace (s / 2 + (if step.getD s false then 8 else 0)) rest (bitOf s 0 :: acc)

/-- The inputs u0 of the best path from state 0 to state 0, from the ratios of c0 and c1 of each step (R143). -/
def viterbi (ratios : List (Int × Int)) : List Bool :=
  let start : List (Option Int) := some 0 :: List.replicate 15 none
  let (_, kept) := ratios.foldl (fun (s : List (Option Int) × List (List Bool)) r =>
    let (m, k) := viterbiStep s.1 r
    (m, k :: s.2)) (start, [])
  viterbiTrace 0 kept []

/-- The coded position that carries bit `j` of the staircase output: u0 is taken as carried by c1 (R142). (Log 155: DESIGN CHOICE) -/
def stairCoded (j : Nat) : Nat := 17 * (j / 16) + j % 16 + 1

/-- Is a coded position of a forme counted: a data step's, and not fill of the staircase (R147)? A fill bit that drives the
encoder takes one of its two positions out. (Log 155: DESIGN CHOICE) -/
def stairCounted (x : Nat) : Bool :=
  let j := 16 * (x / 17) + (x % 17 - 1)
  let place := j / 528 * 494 + j % 528
  decide (x < 139392 * 17) && (x % 17 == 0 || !(decide (j % 528 < 494) && decide (2080768 ≤ place)))

/-- The ratios of c0 and c1 of each step of a forme, and the hard decisions of u1 to u15 with u0 put before them. -/
def stepRatios (ratios : Array Int) : List (Int × Int) :=
  (List.range 139396).map fun t => (ratios.getD (17 * t) 0, ratios.getD (17 * t + 1) 0)
def stairHeard (ratios : Array Int) (u0 : List Bool) : List Bool :=
  (List.range 139392).flatMap fun t => u0.getD t false :: (List.range 15).map fun i => hardBit (ratios.getD (17 * t + 2 + i) 0)

/-- The eight blocks of a forme's received staircase bits. -/
def stairBlocks (bits : List Bool) : List (List Nat) :=
  let a := bits.toArray
  (List.range 8).map fun k => (List.range 528).map fun r => ofBits ((List.range 528).map fun c => a.getD ((k * 528 + r) * 528 + c) false)

end Sys2Proof.Machine
end

