-- ==== Sys2Proof/Machine/Lanes.lean ====
section
/-! DEFINITION. The symbols of a host lane: PAM4 levels, precoding and scrambling (R229 to R231), the rimshot (R232, R233), and the
Reed-Solomon code with its dealing over the lanes (R237 to R239). -/

namespace Sys2Proof.Machine

/-! ### Levels (R229 to R231) -/

/-- The level of two data bits, first bit first, and the bits of a level (R229). -/
def grayLevel (a b : Bool) : Nat :=
  match a, b with
  | false, false => 0 | false, true => 1 | true, true => 2 | true, false => 3
def grayBits : Nat → List Bool
  | 0 => [false, false]
  | 1 => [false, true]
  | 2 => [true, true]
  | _ => [true, false]

/-- The levels of a lane's bits. -/
def grayLevels : List Bool → List Nat
  | a :: b :: rest => grayLevel a b :: grayLevels rest
  | _ => []

/-- Precoding and its inverse, from the symbol sent or received before (R230). -/
def precode : Nat → List Nat → List Nat
  | _, [] => []
  | y, x :: rest => ((x + 4 - y % 4) % 4) :: precode ((x + 4 - y % 4) % 4) rest
def unprecode : Nat → List Nat → List Nat
  | _, [] => []
  | y, z :: rest => ((z + y) % 4) :: unprecode z rest

/-- The levels of a lane whose polarity is inverted (R233). -/
def complement (l : List Nat) : List Nat := l.map (3 - ·)

/-- The data bits of logical lane `l` in a block, scrambled or descrambled (R231). (Log 150: PRESUMED) -/
def laneScramble (l : Nat) (bits : List Bool) : List Bool :=
  List.zipWith (fun a b => a != b) bits (lfsrBits 23 [23, 18] bits.length (0x555500 + l))

/-- The levels of a lane's data bits in one block, and the data bits of levels, on logical lane `l` (R229 to R231). -/
def laneLevels (l : Nat) (pre : Bool) (bits : List Bool) : List Nat :=
  let x := grayLevels (laneScramble l bits)
  if pre then precode 0 x else x
def laneBits (l : Nat) (pre : Bool) (levels : List Nat) : List Bool :=
  laneScramble l ((if pre then unprecode 0 levels else levels).flatMap grayBits)

/-- The square wave of a host lane: level at symbol `k` (R256). -/
def squareLevel (k : Nat) : Nat := if k % 16 < 8 then 3 else 0

/-! ### The rimshot (R232, R233) -/

/-- The level of a rimshot's bit. -/
def rimLevel (b : Bool) : Nat := if b then 3 else 0

/-- The pattern of symbols 0 to 63. -/
def rimPattern : List Nat := (bitsOfMSB 32 0xE4B279C1 ++ bitsOfMSB 32 0x1D8F36A5).map rimLevel

/-- The 128 levels of a rimshot with this field word: the pattern, the word and the word with the opposite pairs (R232). -/
def rimshotLevels (word : Nat) : List Nat :=
  rimPattern ++ (bitsOfMSB 16 word).flatMap (fun b => [rimLevel b, rimLevel (!b)]) ++
    (bitsOfMSB 16 word).flatMap (fun b => [rimLevel (!b), rimLevel b])

/-- A field word completed by its CHECK (R232), and does CHECK hold (R233)? -/
def rimCheck (w : Nat) : Nat := (w / 4096 % 16 ^^^ w / 256 % 16) ^^^ w / 16 % 16
def withCheck (w : Nat) : Nat := w / 16 * 16 + rimCheck w
def checkHolds (w : Nat) : Bool := rimCheck w == w % 16

/-- The bits that pairs of levels carry: 1 where the first lies above the second, 0 where below; none where a pair is level.
(Log 159: DEDUCED) -/
def pairBits : List Nat → Option (List Bool)
  | a :: b :: rest => if a = b then none else (pairBits rest).map (decide (b < a) :: ·)
  | _ => some []

/-- How many of the first 64 symbols are those of the pattern. -/
def patternHits (l : List Nat) : Nat := (List.zipWith (fun a b => a == b) rimPattern l).countP id

/-- A valid rimshot (R233): its field word, and whether the polarity is inverted; none where it is not valid. (Log 159: DEDUCED) -/
def readRimshot (l : List Nat) : Option (Nat × Bool) :=
  let inv := decide (patternHits l < 60)
  let k := if inv then complement l else l
  if patternHits k < 60 then none
  else
    match pairBits (slice k 64 32), pairBits (complement (slice k 96 32)) with
    | some a, some b => if a = b ∧ a.length = 16 ∧ checkHolds (ofBits a) then some (ofBits a, inv) else none
    | _, _ => none

/-! ### RS(544,514) over GF(2^10) (R237, R239) -/

/-- Multiplication by α in GF(2^10) with x^10 + x^3 + 1, the product of two elements, powers, and the inverse. -/
def gf10Double (a : Nat) : Nat := if a < 512 then 2 * a else (2 * a - 1024) ^^^ 9
def gf10Mul (a b : Nat) : Nat :=
  ((List.range 10).foldl (fun (acc : Nat × Nat) i => ((if bitOf b i then acc.1 ^^^ acc.2 else acc.1), gf10Double acc.2)) (0, a)).1
def gf10Alpha : Nat → Nat
  | 0 => 1
  | n + 1 => gf10Double (gf10Alpha n)
def gf10Square (a : Nat) : Nat := gf10Mul a a

/-- The inverse of an element: its power 2^10 − 2. -/
def gf10Inv (a : Nat) : Nat :=
  ((List.range 9).foldl (fun (acc : Nat × Nat) _ => (gf10Mul acc.1 (gf10Square acc.2), gf10Square acc.2)) (1, a)).1

/-- The value at `x` of a polynomial whose coefficients are given highest degree first, and lowest degree first. -/
def gf10Eval (p : List Nat) (x : Nat) : Nat := p.foldl (fun a s => gf10Mul a x ^^^ s) 0
def gf10EvalLow (p : List Nat) (x : Nat) : Nat := gf10Eval p.reverse x

/-- Are 544 symbols a codeword: zero at α^0 to α^29, first symbol of highest degree (R237)? (Log 151: DEDUCED) -/
def isRsWord (cw : List Nat) : Bool :=
  cw.length == 544 && (List.range 30).all fun i => gf10Eval cw (gf10Alpha i) == 0

/-- The generator, the product of (x − α^i) for i from 0 to 29, without its leading 1, highest degree first. -/
def rsGenerator : List Nat :=
  ((List.range 30).foldl (fun (g : List Nat) i =>
    List.zipWith (· ^^^ ·) (g ++ [0]) (0 :: g.map (gf10Mul (gf10Alpha i)))) [1]).drop 1

/-- The remainder register after one more information symbol. -/
def rsShift (gen r : List Nat) (s : Nat) : List Nat :=
  let f := r.headD 0 ^^^ s
  List.zipWith (fun a g => a ^^^ gf10Mul f g) (r.drop 1 ++ [0]) gen

/-- The codeword of 514 information symbols: the symbols, then the 30 of parity (R237). (Log 151: DEDUCED) -/
def rsEncode (info : List Nat) : List Nat :=
  info ++ info.foldl (rsShift rsGenerator) (List.replicate 30 0)

/-- The syndromes of received symbols. -/
def rsSyndromes (cw : List Nat) : List Nat := (List.range 30).map fun i => gf10Eval cw (gf10Alpha i)

/-- Polynomials lowest degree first: one scaled and moved up by `m`, added to another. -/
def polyAdd : List Nat → List Nat → List Nat
  | [], b => b
  | a, [] => a
  | x :: a, y :: b => (x ^^^ y) :: polyAdd a b
def polyScale (c m : Nat) (p : List Nat) : List Nat := List.replicate m 0 ++ p.map (gf10Mul c)

/-- The state of the Berlekamp-Massey algorithm: the locator, its length, the locator before its last change with the discrepancy
then, and the steps since. -/
structure RsLocator where
  loc : List Nat
  len : Nat
  old : List Nat
  disc : Nat
  gap : Nat

/-- One step with the syndromes up to the present one, latest first. -/
def RsLocator.next (x : RsLocator) (n : Nat) (syn : List Nat) : RsLocator :=
  let d := (List.zipWith gf10Mul x.loc syn).foldl (· ^^^ ·) 0
  if d = 0 then { x with gap := x.gap + 1 }
  else
    let loc := polyAdd x.loc (polyScale (gf10Mul d (gf10Inv x.disc)) x.gap x.old)
    if 2 * x.len ≤ n then ⟨loc, n + 1 - x.len, x.loc, d, 1⟩ else { x with loc := loc, gap := x.gap + 1 }

/-- The error locator of a list of syndromes. -/
def rsLocate (syn : List Nat) : RsLocator :=
  (List.range syn.length).foldl (fun x n => x.next n (syn.take (n + 1)).reverse) ⟨[1], 0, [1], 1, 1⟩

/-- The symbols at the places where the locator has its roots, changed by the error values there. -/
def rsFix (cw : List Nat) : List Nat :=
  let syn := rsSyndromes cw
  let loc := (rsLocate syn).loc
  let om := ((List.range 30).map fun i => (List.range (i + 1)).foldl (fun a j => a ^^^ gf10Mul (loc.getD j 0) (syn.getD (i - j) 0)) 0)
  let der := (loc.drop 1).mapIdx fun i c => if i % 2 = 0 then c else 0
  cw.mapIdx fun i s =>
    let x := gf10Alpha (543 - i)
    let z := gf10Inv x
    if gf10EvalLow loc z = 0 then s ^^^ gf10Mul x (gf10Mul (gf10EvalLow om z) (gf10Inv (gf10EvalLow der z))) else s

/-- How many symbols differ. -/
def symbolsChanged (a b : List Nat) : Nat := (List.zipWith (fun x y => x != y) a b).countP id

/-- A received codeword decoded: the codeword that differs from it in at most 15 symbols, where there is one (R237). -/
def rsDecode (cw : List Nat) : Option (List Nat) :=
  if isRsWord cw then some cw
  else
    let fixed := rsFix cw
    if isRsWord fixed && decide (symbolsChanged cw fixed ≤ 15) then some fixed else none

/-! ### Blocks (R234, R237, R238) -/

/-- How many codewords, bytes and cells a block on `n` lanes has, and the bytes of its header (R234, R237). -/
def blockWords (n : Nat) : Nat := 2 * n
def blockCells (n : Nat) : Nat := if n = 8 then 40 else 35
def blockHead (n : Nat) : Nat := if n = 8 then 40 else 35

/-- The information symbols of codeword `c` of a block's bits: bits 5,140 c on, ten to a symbol (R237). -/
def rsInfo (bits : List Bool) (c : Nat) : List Nat :=
  (List.range 514).map fun k => ofBits (slice bits (5140 * c + 10 * k) 10)

/-- Where symbol `k` of codeword pair `j` goes among the lanes of set `s`: the logical lane and its unit (R238). -/
def rsDeal (s : List Nat) (j k : Nat) : Nat × Nat :=
  let u := 544 * j + k
  (s.getD (u % s.length) 0, u / s.length)

/-- The codewords of a block's bytes, with their parity (R237, R239). -/
def blockEncode (n : Nat) (bytes : List Nat) : List (List Nat) :=
  let bits := bytes.flatMap bitsMSB
  (List.range (blockWords n)).map fun c => rsEncode (rsInfo bits c)

/-- The 20-bit units of a block's codewords in the order of dealing: pairs in order, the even codeword's symbol first (R238). -/
def blockUnits : List (List Nat) → List (List Bool)
  | a :: b :: rest => List.zipWith (fun x y => bitsOfMSB 10 x ++ bitsOfMSB 10 y) a b ++ blockUnits rest
  | _ => []

/-- The units that fall to the `i`-th of `n` lanes (R238). -/
def everyNth : Nat → Nat → List (List Bool) → List (List Bool)
  | _, _, [] => []
  | n, 0, u :: rest => u :: everyNth n (n - 1) rest
  | n, k + 1, _ :: rest => everyNth n k rest

/-- The data bits of each lane of a set of `n` lanes (R238). -/
def dealBlock (n : Nat) (cws : List (List Nat)) : List (List Bool) :=
  (List.range n).map fun i => (everyNth n i (blockUnits cws)).flatten

/-- The units of a lane's data bits, twenty bits each. -/
def laneUnits (bits : List Bool) : List Nat := (List.range 544).map fun u => ofBits (slice bits (20 * u) 20)

/-- The received codewords of a block from the units of each lane of the set, in ascending order (R238). -/
def collectBlock (lanes : List (List Nat)) : List (List Nat) :=
  let n := lanes.length
  let unit (u : Nat) : Nat := (lanes.getD (u % n) []).getD (u / n) 0
  (List.range (blockWords n)).map fun c =>
    (List.range 544).map fun k => let v := unit (544 * (c / 2) + k); if c % 2 = 0 then v / 1024 else v % 1024

/-- The block's bytes from its codewords' information symbols. -/
def blockBytes (cws : List (List Nat)) : List Nat :=
  bytesOfBits (cws.flatMap fun cw => (cw.take 514).flatMap (bitsOfMSB 10))

/-- A block decoded on a set of lanes: its bytes, its uncorrectable codewords, and each corrected symbol's logical lane (R239). -/
structure BlockRead where
  set : List Nat
  bytes : List Nat
  lost : List Nat
  fixed : List Nat

/-- The codewords of a block decoded; those that cannot be corrected are delivered as received (R239). -/
def decodeBlock (s : List Nat) (lanes : List (List Nat)) : BlockRead :=
  let got := collectBlock lanes
  let words := got.map fun w => (w, rsDecode w)
  { set := s
    bytes := blockBytes (words.map fun w => w.2.getD w.1)
    lost := (List.range words.length).filter fun c => (words.getD c ([], none)).2.isNone
    fixed := words.zipIdx.flatMap fun w =>
      match w.1.2 with
      | none => []
      | some cw => ((List.range 544).filter fun k => w.1.1.getD k 0 != cw.getD k 0).map fun k => (rsDeal s (w.2 / 2) k).1 }

/-- The header bytes of a block, from its first codeword pair alone. -/
def decodeHeader (lanes : List (List Nat)) : List Nat :=
  let got := (collectBlock lanes).take 2
  (blockBytes (got.map fun w => (rsDecode w).getD w)).take (blockHead lanes.length)

/-- The codewords that hold bytes of cell `q` of a block on `n` lanes. -/
def cellWords (n q : Nat) : List Nat :=
  let b := blockHead n + 256 * q
  let c0 := 8 * b / 5140
  (List.range ((8 * b + 2047) / 5140 + 1 - c0)).map (c0 + ·)

/-- Where bit `b` of a block's bytes lies: its codeword and its symbol there. -/
def bitPlace (b : Nat) : Nat × Nat := (b / 5140, b % 5140 / 10)

/-- The lane and unit position of the first byte of cell `q` (R255), and those of its last symbol: of the units that hold bits of
the cell, the last one dealt. -/
def cellFirst (s : List Nat) (q : Nat) : Nat × Nat :=
  let p := bitPlace (8 * (blockHead s.length + 256 * q))
  rsDeal s (p.1 / 2) p.2
def cellLast (s : List Nat) (q : Nat) : Nat × Nat :=
  let b := 8 * (blockHead s.length + 256 * q)
  let p := bitPlace b
  let e := bitPlace (b + 2047)
  if p.1 + 1 = e.1 ∧ p.1 % 2 = 0 then rsDeal s (p.1 / 2) 513 else rsDeal s (e.1 / 2) e.2

end Sys2Proof.Machine
end

