-- ==== Sys2Proof/Machine/HostLane.lean ====
section
/-! DEFINITION. Host flow lanes: host cells, training, the rimshot, lane sets and lane-shedding (R226 to R254). -/

namespace Sys2Proof.Machine

/-! ### Host cells (R240) -/

/-- The first seven bytes of a host cell's header. -/
def hostHeader7 (c : Cell) : List Nat :=
  bytesBE 7 (pow2 55 + c.flow % 1024 * pow2 45 + c.seq % 65536 * pow2 29 + b1 c.late * pow2 28 + b1 c.gap * pow2 27 +
    b1 c.errored * pow2 26 + b1 c.ptp * pow2 25 + b1 c.unver * pow2 24)

/-- The 256 bytes of a host cell, and of an idle cell. -/
def hostCellBytes (c : Cell) : List Nat :=
  hostHeader7 c ++ [crc8 (hostHeader7 c)] ++ (c.payload ++ List.replicate 248 0).take 248
def idleCellBytes : List Nat := List.replicate 256 0

/-- A byte list of an operand as numbers. -/
def natsOf (l : List Byte) : List Nat := l.map (·.toNat)

/-- Does the header check of a received cell hold? -/
def hcrcOk (b : List Nat) : Bool := crc8 (b.take 7) == b.getD 7 0

/-- The cell that bytes hold, with LATE and UNVERIFIED ignored (R241), and ERRORED set in an uncorrectable codeword. -/
def cellOf (b : List Nat) (bad : Bool) (edge : Nat) : Cell :=
  let h := ofBytesBE (b.take 8)
  { flow := bitsOf h 53 10, seq := bitsOf h 37 16, ptp := bitOf h 33, late := false, gap := bitOf h 35,
    errored := bitOf h 34 || bad, unver := false, payload := slice b 8 248, edge := edge }

/-- Is the received cell VALID? -/
def cellValid (b : List Nat) : Bool := bitOf (ofBytesBE (b.take 8)) 63

/-! ### Lanes and sets -/

/-- Group settings and states. -/
def Dev.grpEn (d : Dev) (g : Nat) : Bool := d.flag Reg.HLN_GRP_CTRL.EN g
def Dev.gstate (d : Dev) (g : Nat) : Nat := d.get Reg.HLN_GRP_STAT.GSTATE g
def Dev.grpRun (d : Dev) (g : Nat) : Bool := d.gstate g == 3
def Dev.laneSet (d : Dev) (g : Nat) : Nat := d.get Reg.HLN_GRP_STAT.LANES g
def Dev.laneEn (d : Dev) (g l : Nat) : Bool := d.bit Reg.HLN_GRP_CTRL.LANE_EN g l
def Dev.laneState (d : Dev) (g l : Nat) : Nat := d.getJ Reg.HLN_LANE_STAT.STATE g l

/-- How many of bits 0 to 7 are set. -/
def popcount8 (m : Nat) : Nat := (allLe.filter (bitOf m)).length

/-- The mask of the lanes that satisfy `p`. -/
def maskOf (p : Nat → Bool) : Nat := (allLe.filter p).foldl (fun a l => a + pow2 l) 0

/-- The least number of lanes with which the group may be in RUN (R250). -/
def Dev.minLanes (d : Dev) (g : Nat) : Nat := if d.flag Reg.HLN_GRP_CTRL.MIN7 g then 7 else 8

/-- The run of rimshots of a physical receive lane, and a change of it. -/
def Dev.rimRun (d : Dev) (g p : Nat) : RimRun := Store.get (fun _ => RimRun.reset) (d.grp g).runs p
def Dev.setRun (d : Dev) (g p : Nat) (r : RimRun) : Dev :=
  d.modGrp g fun x => { x with runs := Store.set (fun _ => RimRun.reset) x.runs p r }

/-- Runs of rimshots that name lane `l` begin again: those counted for a state are the ones received in it. (Log 159: DEDUCED) -/
def Dev.freshRuns (d : Dev) (g l : Nat) : Dev :=
  d.over (allLe.filter fun p => (d.rimRun g p).lane == l) fun p d => d.setRun g p RimRun.reset

/-- Lane `l` in training state `st`, entered now. DETECT and OFF leave the lane unbound. A lane that reaches ALIGN before the group
runs needs no release (R250). -/
def Dev.setLane (d : Dev) (g l st : Nat) : Dev :=
  let out := decide (st = 0 ∨ 4 < st)
  let d := (d.setJ Reg.HLN_LANE_STAT.STATE g l st).freshRuns g l
  let d := d.modLane g l fun x =>
    { x with stateAt := d.now, released := if st = 3 then !d.grpRun g else x.released && !out, misses := 0, symErrs := [] }
  if out then
    (((d.setJ Reg.HLN_LANE_STAT.BOUND g l 0).setJ Reg.HLN_LANE_STAT.PRE_TX g l 0).setJ Reg.HLN_LANE_STAT.PRE_RX g l 0).modLane
      g l fun x => { x with ready := false, preReq := false, peer := 0, tuned := false, clock := LaneTimes.reset }
  else d

/-- The lane that physical receive lane `p` of group `g` is bound to. -/
def Dev.boundLane (d : Dev) (g p : Nat) : Option Nat :=
  allLe.find? fun l => d.getJ Reg.HLN_LANE_STAT.BOUND g l == 1 && d.getJ Reg.HLN_LANE_STAT.RX_PHYS g l == p

/-- Has an unbound physical receive lane signal (R245)? -/
def Dev.freeSignal (d : Dev) (g : Nat) : Bool :=
  allLe.any fun p => bitOf (d.grp g).sig p && (d.boundLane g p).isNone

/-- Every enabled lane in DETECT whose backoff has ended enters SYNC while an unbound receive lane has signal (R245). -/
def Dev.tryDetect (d : Dev) (g : Nat) : Dev :=
  if d.grpEn g && d.freeSignal g then
    d.over allLe fun l d =>
      if d.laneEn g l && d.laneState g l == 0 && (d.lane g l).backoffOver then d.setLane g l 1 else d
  else d

/-- Lane `l` is back in DETECT with no backoff. -/
def Dev.laneFresh (d : Dev) (g l : Nat) : Dev :=
  (((d.setLane g l 0).setJ Reg.HLN_LANE_BACKOFF.BACKOFF_MS g l 0)).modLane g l fun x => { x with backoffOver := true }

/-- HEALTH of the device (R250), and the lane set that follows from it and from the lane peer's. -/
def Dev.laneHealthy (d : Dev) (g l : Nat) : Bool :=
  d.laneEn g l && (d.laneState g l == 4 || (d.laneState g l == 3 && (d.lane g l).released))
def Dev.health (d : Dev) (g : Nat) : Nat := maskOf (d.laneHealthy g)
def Dev.wantedSet (d : Dev) (g : Nat) : Nat :=
  if (d.grp g).peerSeen then maskOf fun l => d.laneHealthy g l && d.bit Reg.HLN_GRP_STAT.PEER_HEALTH g l else d.health g

/-! ### Capacity and lane-shedding (R253) -/

/-- The sorts that the group carries now, by the set in use for transmit. (Log 71: DEDUCED) -/
def Dev.grpCapacity (d : Dev) (g : Nat) : Nat :=
  if d.grpRun g then
    let n := popcount8 (d.laneSet g)
    if n = 8 then 64 else if n = 7 then 56 else 0
  else 0

/-- The sorts that flow `f` counts against group `g`: with EN set and not shed by PLACE. -/
def Dev.demand (d : Dev) (f g : Nat) : Nat :=
  if d.flowEn f && !d.fmx.tx.shed.contains f && !d.fmx.rx.shed.contains f then
    sortsAgainst (d.flowGroup f) (d.flowNsort f) g
  else 0

/-- The sorts counted against group `g`, and those of flows that are not lane-shed. -/
def Dev.grpUsed (d : Dev) (g : Nat) : Nat := allFlows.foldl (fun a f => a + d.demand f g) 0
def Dev.grpLoad (d : Dev) (shed : List Nat) (g : Nat) : Nat :=
  allFlows.foldl (fun a f => if shed.contains f then a else a + d.demand f g) 0

/-- The flows that count against group `g`, by CLASS descending and then flow number descending. -/
def Dev.shedOrder (d : Dev) (g : Nat) : List Nat :=
  (byClass d d.homeTx (allFlows.filter fun f => decide (0 < d.demand f g))).reverse

/-- The flows lane-shed for group `g` beside those already shed: only as many as are needed. (Log 74: DEDUCED) -/
def Dev.shedFor (d : Dev) (g : Nat) (shed : List Nat) : List Nat :=
  ((d.shedOrder g).foldl (fun (a : List Nat × Nat) f =>
    if a.2 ≤ d.grpCapacity g || a.1.contains f then a else (f :: a.1, a.2 - d.demand f g)) (shed, d.grpLoad shed g)).1

/-- Does flow `f` use group `g` (R194)? -/
def Dev.flowUses (d : Dev) (f g : Nat) : Bool :=
  g == d.flowGroup f || (decide (64 < d.flowNsort f) && g == d.flowGroup f + 1)

/-- The groups of flow `f`, and do all of them run (R244)? -/
def Dev.flowGroups (d : Dev) (f : Nat) : List Nat := allGroups.filter (d.flowUses f)
def Dev.groupsRun (d : Dev) (f : Nat) : Bool := (d.flowGroups f).all d.grpRun

/-- Do the host lanes deliver the cells of flow `f`? -/
def Dev.delivers (d : Dev) (f : Nat) : Bool := d.groupsRun f && !d.path.shed.contains f

/-- A change of a lane-shed flow is said in at least 4 blocks of the group, and raises `HLN:SHED`. -/
def Dev.sayShed (d : Dev) (g f : Nat) (stop : Bool) : Dev :=
  (d.modGrp g fun x => { x with told := x.told ++ [(f, stop, 4)] }).raise Ev.laneShed g g (b1 stop * pow2 15 + f)

/-- Lane-shedding evaluated: flows of a group out of RUN keep what they had; groups in RUN shed and restore. (Log 74: DEDUCED) -/
def Dev.shedEval (d : Dev) : Dev :=
  let old := d.path.shed
  let kept := old.filter fun f => d.flowEn f && !d.groupsRun f
  let runs := allGroups.filter d.grpRun
  let new := runs.foldl (fun shed g => d.shedFor g shed) kept
  let d := d.watchRx new fun d => d.modPath fun x => { x with shed := new }
  d.over runs fun g d =>
    let mine := allFlows.filter (d.flowUses · g)
    let d := d.over (mine.filter fun f => new.contains f && !old.contains f) fun f d => d.sayShed g f true
    d.over (mine.filter fun f => old.contains f && !new.contains f) fun f d => d.sayShed g f false

/-! ### Leaving RUN (R254) -/

/-- A count of flow `f` in the flow counters advanced (R224): 4 LATE, 5 GAP, 6 ERRORED, 7 DROP, saturating. -/
def Dev.flowCount (d : Dev) (f w : Nat) : Dev :=
  d.setTab 0x211 0x08 f w (capN 0xFFFFFFFF (d.tab 0x211 0x08 f w + 1))

/-- A 64-bit count of flow `f`: 0 sent, 2 delivered. -/
def Dev.flowCount64 (d : Dev) (f w : Nat) : Dev :=
  let v := d.tab 0x211 0x08 f w + pow2 32 * d.tab 0x211 0x08 f (w + 1) + 1
  (d.setTab 0x211 0x08 f w v).setTab 0x211 0x08 f (w + 1) (v / pow2 32)

/-- A cell that cannot be delivered is discarded: DROP, and GAP on the flow's next delivered cell (R242). -/
def Dev.discardOut (d : Dev) (f : Nat) : Dev :=
  (d.flowCount f 7).modPath fun x => { x with gapOut := insertUp f x.gapOut }

/-- The group stops running or training: nothing is announced, and cells that waited for a block are discarded. -/
def Dev.clearGroup (d : Dev) (g : Nat) : Dev :=
  let waiting := Store.get (fun _ => []) d.path.toHost g
  let d := waiting.foldl (fun d c => d.discardOut c.flow) d
  let d := d.modPath fun x => { x with toHost := Store.set (fun _ => []) x.toHost g [] }
  let d := (d.set Reg.HLN_GRP_STAT.LANES g 0).set Reg.HLN_GRP_STAT.SW g 0
  d.modGrp g fun x => { x with peerSeen := false, goodRun := 0, rxNext := none, noHdr := none, ann := none, peerSwitched := false, sinceSwitch := none }

/-- The group leaves RUN: its departure is counted and raised, and every enabled lane returns to DETECT. -/
def Dev.leaveRun (d : Dev) (g : Nat) : Dev :=
  let d := (d.clearGroup g).set Reg.HLN_GRP_STAT.GSTATE g 1
  let d := d.over (allLe.filter (d.laneEn g)) fun l d => (d.laneFresh g l).modLane g l fun x => { x with failed := false }
  let d := (d.bump Reg.HLN_GRP_CNT.DOWN g).raise Ev.group g g 0
  d.shedEval.tryDetect g

/-- HEALTH is taken: a change of it in RUN starts the count of blocks without a valid header (R254). -/
def Dev.healthTaken (d : Dev) (g : Nat) : Dev :=
  let h := d.health g
  d.modGrp g fun x => { x with health := h, noHdr := if d.grpRun g && h != x.health then some 0 else x.noHdr }

/-- The initial set is `S`: the run of blocks that agree with it begins again where it changes (R248). -/
def Dev.initialSet (d : Dev) (g S : Nat) : Dev :=
  if S = d.laneSet g then d
  else (d.set Reg.HLN_GRP_STAT.LANES g S).modGrp g fun x => { x with goodRun := 0 }

/-- HEALTH, the lane peer's HEALTH or MIN7 may have changed (R248, R250): the set is announced, the group collapses, or
the initial set is taken again. -/
def Dev.setChanged (d : Dev) (g : Nat) : Dev :=
  let d := d.healthTaken g
  let S := d.wantedSet g
  if d.gstate g = 2 then d.initialSet g S
  else if d.grpRun g then
    if popcount8 S < d.minLanes g then d.leaveRun g
    else
      let cur := match (d.grp g).ann with | some a => a.set | none => d.laneSet g
      let lacks := allLe.any fun l => bitOf (d.laneSet g) l && !bitOf S l
      if S = cur then d
      else
        (d.modGrp g fun x => { x with ann := some ⟨S, if lacks then 1 else 2, d.now + 100, 5⟩, peerSwitched := false }).set
          Reg.HLN_GRP_STAT.SW g 1
  else d

/-! ### Enabling (R228, R258) -/

/-- The errors of a write of `HLN_GRP_CTRL`. -/
def Dev.hlnCtrlErrs (d : Dev) (g w : Nat) : List Err :=
  let lanes := bitsOf w 24 8
  failIf (d.grpEn g && lanes != d.get Reg.HLN_GRP_CTRL.LANE_EN g) .state ++
  failIf (decide (popcount8 lanes < (if bitOf w 2 then 7 else 8))) .inconsistent

/-- The state of a lane out of training: TEST while its physical lane has a test pattern, else `st`. -/
def Dev.laneRest (d : Dev) (g l st : Nat) : Nat := if d.getJ Reg.HLN_LANE_CTRL.TEST g l = 0 then st else 5

/-- The group is enabled into training. -/
def Dev.enableGroup (d : Dev) (g : Nat) : Dev :=
  let d := (d.clearGroup g).set Reg.HLN_GRP_STAT.GSTATE g 1
  let d := d.modGrp g fun x => { x with sig := 0 }
  d.over (allLe.filter (d.laneEn g)) fun l d =>
    (d.laneFresh g l).modLane g l (fun x => { x with failed := false }) |>.setLane g l (d.laneRest g l 0)

/-- The group is taken out of service. -/
def Dev.disableGroup (d : Dev) (g : Nat) : Dev :=
  let ran := d.grpRun g
  let d := (d.clearGroup g).set Reg.HLN_GRP_STAT.GSTATE g 0
  let d := d.modGrp g fun x => { x with sig := 0 }
  let d := d.over allLe fun l d => d.setLane g l (d.laneRest g l 6)
  if ran then ((d.bump Reg.HLN_GRP_CNT.DOWN g).raise Ev.group g g 0).shedEval else d

/-- Waiting lanes are released (R252): their HEALTH bit is set, and their timeout runs again. (Log 71: DEDUCED) -/
def Dev.releaseLanes (d : Dev) (g : Nat) : Dev :=
  let d := d.over allLe fun l d =>
    if d.laneState g l == 3 && !(d.lane g l).released then
      d.modLane g l fun x => { x with released := true, stateAt := d.now }
    else d
  d.setChanged g

/-- An accepted write of `HLN_GRP_CTRL` takes effect; `was` is the stored EN. -/
def Dev.hlnCtrlApply (d : Dev) (g w : Nat) (was : Bool) : Dev :=
  if bitOf w 0 then
    if !was then d.enableGroup g
    else if bitOf w 1 && d.grpRun g then d.leaveRun g
    else if d.grpRun g && (bitOf w 4 || bitOf w 3) then d.releaseLanes g
    else d.setChanged g
  else if was then d.disableGroup g
  else d

/-! ### Training (R232, R233, R245 to R248) -/

/-- The PRE_REQ that this device sends for lane `l` (R247): what its receiver asks for in TUNE, and what was fixed after it.
(Log 159: DEDUCED) -/
def Dev.preReqSent (d : Dev) (g l : Nat) : Bool :=
  if d.laneState g l = 2 then
    match d.getJ Reg.HLN_LANE_CTRL.PRECODE g l with
    | 0 => decide ((d.get Reg.HLN_GRP_TRAIN.PRE_TAP g : Int) ≤
        sgn 8 (d.getJ Reg.HLN_RXEQ.DFE1 g (d.getJ Reg.HLN_LANE_STAT.RX_PHYS g l)))
    | 1 => false
    | _ => true
  else d.getJ Reg.HLN_LANE_STAT.PRE_RX g l == 1

/-- The field word that this device's rimshot carries on logical lane `l` (R232). -/
def Dev.rimshotWord (d : Dev) (g l : Nat) : Nat :=
  withCheck (g * 4096 + l * 512 + d.laneState g l % 8 * 64 + b1 (d.preReqSent g l) * 32 + b1 (d.lane g l).tuned * 16)

/-- A lane in TUNE whose receiver has finished tuning, with READY received, enters ALIGN with its precoding fixed (R245, R247). -/
def Dev.tuneExit (d : Dev) (g l : Nat) : Dev :=
  if d.laneState g l == 2 && (d.lane g l).tuned && (d.lane g l).ready then
    let rx := d.preReqSent g l
    let d := (d.setJ Reg.HLN_LANE_STAT.PRE_TX g l (b1 (d.lane g l).preReq)).setJ Reg.HLN_LANE_STAT.PRE_RX g l (b1 rx)
    let d := d.setLane g l 3
    if d.grpRun g && d.flag Reg.HLN_GRP_CTRL.AUTO_REJOIN g then d.releaseLanes g else d
  else d

/-- A receiver in TUNE reports its SNR and its equaliser: with SNR_MIN reached it has finished tuning. -/
def Dev.tuneDone (d : Dev) (g l snr : Nat) (dfe : Int) (ctle : Nat) : Dev :=
  if d.laneState g l = 2 then
    let p := d.getJ Reg.HLN_LANE_STAT.RX_PHYS g l
    let d := d.setJ Reg.HLN_LANE_STAT.SNR g l (capN 65535 snr)
    let d := (d.setJ Reg.HLN_RXEQ.DFE1 g p (unsgn 8 (clampI (-128) 127 dfe))).setJ Reg.HLN_RXEQ.CTLE g p (capN 255 ctle)
    (d.modLane g l fun x => { x with tuned := x.tuned || decide (d.get Reg.HLN_GRP_TRAIN.SNR_MIN g ≤ snr) }).tuneExit g l
  else d

/-- No valid rimshot at a block start on physical lane `p`: its run ends, and the lane bound to it has missed one (R249).
(Log 159: DEDUCED) -/
def Dev.rimMissed (d : Dev) (g p : Nat) : Dev :=
  let d := d.setRun g p RimRun.reset
  match d.boundLane g p with
  | some l => d.modLane g l fun x => { x with misses := x.misses + 1 }
  | none => d

/-- A valid rimshot on physical lane `p` goes on a run of those that name lane `l` in state `st`. (Log 159: DEDUCED) -/
def Dev.rimCounted (d : Dev) (g p l st : Nat) : Dev :=
  let r := d.rimRun g p
  let r := if r.lane = l then r else ⟨l, 0, 0⟩
  d.setRun g p ⟨l, r.valid + 1, if st = 0 then 0 else r.active + 1⟩

/-- Lane `l` binds physical lane `p`, its polarity inverted or not (R233). -/
def Dev.bindLane (d : Dev) (g p l : Nat) (inv : Bool) : Dev :=
  ((d.setJ Reg.HLN_LANE_STAT.BOUND g l 1).setJ Reg.HLN_LANE_STAT.RX_PHYS g l p).setJ Reg.HLN_LANE_STAT.INV g l (b1 inv)

/-- What a valid rimshot tells of lane `l` is kept, and the lane moves on (R245, R246). -/
def Dev.rimshotFor (d : Dev) (g p l w : Nat) (inv : Bool) : Dev :=
  let d := (d.rimCounted g p l (bitsOf w 6 3)).modLane g l fun x =>
    { x with preReq := bitOf w 5, ready := bitOf w 4, peer := bitsOf w 6 3, misses := 0 }
  let r := d.rimRun g p
  match d.laneState g l with
  | 0 => (d.modLane g l fun x => { x with backoffOver := x.backoffOver || decide (3 ≤ r.active) }).tryDetect g
  | 1 =>
    let d := d.bindLane g p l inv
    if 3 ≤ r.valid then d.setLane g l 2 else d
  | 2 => d.tuneExit g l
  | _ => d

/-- The 128 symbols at a block start on physical receive lane `p` of group `g` (R233). (Log 72: DEDUCED) -/
def Dev.rimshot (d : Dev) (g p : Nat) (levels : List Nat) : Dev :=
  if !d.grpEn g then d
  else
    match readRimshot levels with
    | none => d.rimMissed g p
    | some (w, inv) =>
      let l := bitsOf w 9 3
      if bitsOf w 12 4 ≠ g then (d.setRun g p RimRun.reset).raise Ev.wrongGroup g (8 * g + p) (bitsOf w 12 4)
      else if d.getJ Reg.HLN_LANE_STAT.BOUND g l = 1 ∧ d.getJ Reg.HLN_LANE_STAT.RX_PHYS g l ≠ p then
        (d.setRun g p RimRun.reset).raise Ev.laneDup g (8 * g + p) l
      else if (d.boundLane g p).any (· != l) then d.setRun g p RimRun.reset
      else d.rimshotFor g p l w inv

/-- Lane `l` fails its training (R246): DETECT, an attempt, a doubled backoff and `HLN:LANE_TIMEOUT`. (Log 72: DEDUCED) -/
def Dev.laneFail (d : Dev) (g l cause : Nat) : Dev :=
  let st := d.laneState g l
  let old := d.getJ Reg.HLN_LANE_BACKOFF.BACKOFF_MS g l
  let d := d.setLane g l 0
  let d := d.addSatJ Reg.HLN_LANE_TRY.ATTEMPTS g l 1
  let d := d.setJ Reg.HLN_LANE_BACKOFF.LAST_FAIL g l st
  let d := d.setJ Reg.HLN_LANE_BACKOFF.BACKOFF_MS g l (if old = 0 then 100 else min 6400 (2 * old))
  let d := d.modLane g l fun x => { x with backoffOver := false, failed := true }
  d.raise Ev.laneTimeout g (8 * g + l) (cause * 256 + st)

/-- Every lane of the group that is in ALIGN fails: a timeout in ALIGN (R248). -/
def Dev.alignFail (d : Dev) (g : Nat) : Dev :=
  let d := d.over (allLe.filter fun l => d.laneState g l == 3) fun l d => d.laneFail g l 0
  let d := if d.gstate g = 2 then (d.clearGroup g).set Reg.HLN_GRP_STAT.GSTATE g 1 else d
  d.setChanged g

/-- The timeout of a training state in ns; none where the state has none or it is suspended (R245, R252). -/
def Dev.laneTimeoutNs (d : Dev) (g l : Nat) : Option Nat :=
  match d.laneState g l with
  | 1 => some (ms 10)
  | 2 => some (ms 300)
  | 3 => if d.grpRun g && !(d.lane g l).released then none else some (ms 10)
  | _ => none

/-- The timeout of lane `l`'s training state ends. -/
def Dev.laneTimeout (d : Dev) (g l : Nat) : Dev :=
  match d.laneTimeoutNs g l with
  | none => d
  | some t =>
    let d := d.until ((d.lane g l).stateAt + t)
    if d.laneState g l = 3 then d.alignFail g else d.laneFail g l 0

/-- The backoff of lane `l` ends. (Log 71: DEDUCED) -/
def Dev.backoffExpiry (d : Dev) (g l : Nat) : Dev :=
  if d.laneState g l == 0 && !(d.lane g l).backoffOver then
    let d := d.until ((d.lane g l).stateAt + ms (d.getJ Reg.HLN_LANE_BACKOFF.BACKOFF_MS g l))
    (d.modLane g l fun x => { x with backoffOver := true }).tryDetect g
  else d

/-- Signal comes to, or leaves, physical receive lane `p` (R245, R246). -/
def Dev.signalOn (d : Dev) (g p : Nat) : Dev :=
  if d.grpEn g then (d.modGrp g fun x => { x with sig := setBit x.sig p true }).tryDetect g else d
def Dev.signalOff (d : Dev) (g p : Nat) : Dev :=
  let d := d.modGrp g fun x => { x with sig := setBit x.sig p false }
  match d.boundLane g p with
  | none => d
  | some l =>
    if 1 ≤ d.laneState g l ∧ d.laneState g l ≤ 3 then (d.laneFail g l 1).setChanged g else d

/-- May the group enter ALIGN as a group (R248)? -/
def Dev.alignReady (d : Dev) (g : Nat) : Bool :=
  let enabled := allLe.filter (d.laneEn g)
  let aligned := enabled.filter fun l => d.laneState g l == 3
  let rest := enabled.filter fun l => d.laneState g l != 3
  d.gstate g == 1 && (rest.isEmpty ||
    (d.flag Reg.HLN_GRP_CTRL.MIN7 g && aligned.length == 7 && rest.all fun l => (d.lane g l).failed))

/-- The group deskews its lanes and starts to send headers; `skew` gives each lane's skew in ns. -/
def Dev.groupAlign (d : Dev) (g : Nat) (skew : List Nat) : Dev :=
  if d.alignReady g then
    if allLe.any fun l => d.laneState g l == 3 && decide (16 < skew.getD l 0) then d.alignFail g
    else
      let d := (d.clearGroup g).set Reg.HLN_GRP_STAT.GSTATE g 2
      let d := (d.set Reg.HLN_GRP_STAT.LANES g (d.health g)).healthTaken g
      d.modGrp g fun x => { x with rxSet := d.health g }
  else d

/-- Lane `l` enters RUN: its backoff is 0. -/
def Dev.laneRun (d : Dev) (g l : Nat) : Dev :=
  (d.setLane g l 4).setJ Reg.HLN_LANE_BACKOFF.BACKOFF_MS g l 0

/-- May the group enter RUN (R248)? -/
def Dev.runReady (d : Dev) (g : Nat) : Bool :=
  let S := d.laneSet g
  d.gstate g == 2 && decide (3 ≤ (d.grp g).goodRun) && decide (d.minLanes g ≤ popcount8 S) &&
    (allLe.filter (bitOf S)).all fun l => 3 ≤ (d.lane g l).peer

/-- The sequence numbers of flows start afresh, and what waits for a pair's merge is gone (R201, R243). -/
def Dev.restartFlows (d : Dev) (flows : List Nat) : Dev :=
  d.modPath fun x =>
    { x with
      seqTx := flows.foldl (fun s f => Store.set (fun _ => 0) s f 0) x.seqTx
      seqRx := flows.foldl (fun s f => Store.set (fun _ => 0) s f 0) x.seqRx
      merge := flows.foldl (fun s f => Store.set (fun _ => []) s f []) x.merge }

/-- The group enters RUN: sequence numbers start afresh, capacity is evaluated and `HLN:GROUP` code 1 is raised. -/
def Dev.runEntry (d : Dev) (g : Nat) : Dev :=
  if d.runReady g then
    let d := d.over (allLe.filter (bitOf (d.laneSet g))) fun l d => d.laneRun g l
    let d := d.set Reg.HLN_GRP_STAT.GSTATE g 3
    ((d.restartFlows (allFlows.filter (d.flowUses · g))).raise Ev.group g g 1).shedEval
  else d

/-! ### Lane loss (R249) -/

/-- Does a cause of loss hold for lane `l` (R249): 1 CDR, as the receiver reports it; 2 RIMSHOT, two block starts in a row without a
valid one; 3 ERRORS, more than 4,096 corrected symbols over the last 64 blocks? -/
def Dev.lossHolds (d : Dev) (g l : Nat) : Nat → Bool
  | 1 => true
  | 2 => decide (2 ≤ (d.lane g l).misses)
  | 3 => decide (4096 < (d.lane g l).symErrs.foldl (· + ·) 0)
  | _ => false

/-- A lane in RUN is lost for a cause that holds. -/
def Dev.laneLost (d : Dev) (g l cause : Nat) : Dev :=
  if d.laneState g l == 4 && d.lossHolds g l cause then
    let d := (d.laneFresh g l).addSatJ Reg.HLN_LANE_TRY.LOSSES g l 1
    ((d.raise Ev.laneLost g (8 * g + l) cause).setChanged g).tryDetect g
  else d

end Sys2Proof.Machine
end

