-- ==== Sys2Proof/Machine/Prbs.lean ====
section
/-! DEFINITION. Test sequences and their checkers (R90, R124, R256). -/

namespace Sys2Proof.Machine

/-- A test sequence: the degree of its generator and the terms of its polynomial. -/
structure TestSeq where
  deg : Nat
  taps : List Nat
deriving DecidableEq, Repr

/-- PRBS31, x^31 + x^28 + 1, PRBS7, x^7 + x^6 + 1, and PRBS13, x^13 + x^12 + x^2 + x + 1. -/
def prbs31 : TestSeq := ⟨31, [31, 28]⟩
def prbs7 : TestSeq := ⟨7, [7, 6]⟩
def prbs13 : TestSeq := ⟨13, [13, 12, 2, 1]⟩

/-- The next bits of a sequence from a register's state, and the state after them. -/
def TestSeq.bits (q : TestSeq) : Nat → Nat → List Bool × Nat
  | 0, r => ([], r)
  | n + 1, r =>
    let (b, r') := lfsrStep q.deg q.taps r
    let (l, r'') := q.bits n r'
    (b :: l, r'')

/-- The bit that follows the last bits of a register. -/
def TestSeq.next (q : TestSeq) (r : Nat) : Bool := q.taps.foldl (fun a k => a != bitOf r (k - 1)) false

/-- What a run of bits gave a checker: the checker after it, the errored and the checked bits counted while it was locked, and the
present and the longest run of correct bits. -/
structure PrbsRun where
  c : Prbs
  errs : Nat
  checked : Nat
  run : Nat
  best : Nat
deriving DecidableEq, Repr

/-- One bit comes to a checker. While it seeks, each bit is held against those before it, and 64 correct bits in a row lock it.
While it is locked, each is held against the sequence, and 1,024 errored bits within 65,536 end the lock (R124). Bits of a register
of zeros are never correct. (Log 50: DEDUCED) -/
def PrbsRun.bit (q : TestSeq) (s : PrbsRun) (b : Bool) : PrbsRun :=
  let c := s.c
  let ok := q.next c.reg == b && c.reg != 0
  let run := if ok then s.run + 1 else 0
  let s := { s with run := run, best := max s.best run }
  if c.locked then
    let errs := (if ok then c.errs else c.pos :: c.errs).filter fun p => decide (c.pos < p + 65536)
    let after : Prbs := ⟨(2 * c.reg + b1 (q.next c.reg)) % pow2 q.deg, 0, true, errs, c.pos + 1, c.part⟩
    { s with c := if 1024 ≤ errs.length then { after with locked := false, errs := [], pos := 0 } else after
             errs := s.errs + b1 (!ok), checked := s.checked + 1 }
  else
    let n := if ok then c.run + 1 else 0
    { s with c := ⟨(2 * c.reg + b1 b) % pow2 q.deg, if n = 64 then 0 else n, decide (n = 64), [], 0, c.part⟩ }

/-- Bits come to a checker, in order. (Log 50: DEDUCED) -/
def Prbs.feed (q : TestSeq) (c : Prbs) (bits : List Bool) : PrbsRun := bits.foldl (PrbsRun.bit q) ⟨c, 0, 0, 0, 0⟩

/-- The checker after a run, its checked bits counted on to whole units of 2^20, and those units. -/
def PrbsRun.settle (s : PrbsRun) : Prbs × Nat :=
  ({ s.c with part := (s.c.part + s.checked) % pow2 20 }, (s.c.part + s.checked) / pow2 20)

end Sys2Proof.Machine
end

