-- ==== Sys2Proof/Machine/Blocks.lean ====
section
/-! DEFINITION. The blocks of the host lanes: lane clocks (R255, R267), blocks received and decoded (R235 to R241, R243, R244, R251),
blocks dealt and sent (R234, R242, R250), cells delivered (R40, R46, R242) and lane tests (R256). -/

namespace Sys2Proof.Machine

/-! ### Lane clocks (R255, R267) -/

/-- The pairs that a lane clock gives: at each beat its count, the moment and the device time. -/
def Dev.beatPairs (d : Dev) (c : LaneClock) : List BeatPair :=
  c.counts.mapIdx fun k n =>
    let t := d.lockAt + (c.beat + k) * beatNs
    ⟨n, t, d.timeAt t⟩
def Dev.laneTimes (d : Dev) (c : LaneClock) : LaneTimes := ⟨c.first, d.beatPairs c⟩

/-- The two beats that bracket symbol count `s`; past the last beat, the last two. (Log 160: DEDUCED) -/
def bracket : List BeatPair → Nat → Option (BeatPair × BeatPair)
  | a :: b :: rest, s => if s < b.count ∨ rest.isEmpty then some (a, b) else bracket (b :: rest) s
  | _, _ => none

/-- A value interpolated linearly between its values `x` and `y` at two beats. -/
def between (a b : BeatPair) (x y s : Nat) : Int := x + ((s : Int) - a.count) * ((y : Int) - x) / ((b.count : Int) - a.count)

/-- The device time in 2^-16 ns, and the moment in ns since release, of the lane-clock edge at symbol `k` of the block that `ahead`
blocks separate from the one whose clock is kept (R267); none without two beats. (Log 160: DEDUCED) -/
def LaneTimes.edgeTime (c : LaneTimes) (ahead k : Nat) : Option Int :=
  (bracket c.pairs (c.first + 5568 * ahead + k)).map fun p =>
    (between p.1 p.2 p.1.time p.2.time (c.first + 5568 * ahead + k) + 32768) / 65536
def LaneTimes.edgeMoment (c : LaneTimes) (ahead k : Nat) : Option Nat :=
  (bracket c.pairs (c.first + 5568 * ahead + k)).map fun p =>
    (between p.1 p.2 p.1.at_ p.2.at_ (c.first + 5568 * ahead + k)).toNat

/-- The symbol of a block at which unit `u` of a lane starts, and its last symbol: ten to a unit after the rimshot (R234, R238). -/
def unitSymbol (u : Nat) : Nat := 128 + 10 * u

/-- The edge of a cell of TYPE 2 that starts a PTP frame is reported to Tympan (R255). -/
def Dev.reportPtp (d : Dev) (g : Nat) (r : PtpReport) : Dev :=
  d.modGrp g fun x => { x with reports := (r :: x.reports).take 256 }

/-- Does the edge of a cell go to Tympan (R255)? -/
def Dev.reported (d : Dev) (c : Cell) : Bool := c.ptp && typeOf (d.flowWord d.homeTx c.flow) == 2

/-! ### Cells received (R198, R241, R243, R244) -/

/-- Does a block header's check hold, with BHVER 0x01? -/
def blockHeaderOk (b : List Nat) : Bool :=
  b.getD 0 0 == 1 && crc16 (b.take 33) == ofBytesBE (slice b 33 2) && decide (35 ≤ b.length)

/-- A cell accepted for the line: GAP as it falls due, and the expectation moves on. (Log 73: DEDUCED) -/
def Dev.accept (d : Dev) (c : Cell) (gap : Bool) : Dev :=
  let gap := gap || d.path.gapNext.contains c.flow
  d.modPath fun x =>
    { x with
      seqRx := Store.set (fun _ => 0) x.seqRx c.flow ((c.seq + 1) % 65536 + 1)
      gapNext := x.gapNext.filter (· != c.flow)
      toLine := Store.set (fun _ => []) x.toLine c.flow
        (Store.get (fun _ => []) x.toLine c.flow ++ [{ c with gap := c.gap || gap }]) }

/-- The cells of a paired flow that now follow in order are accepted. -/
def Dev.drainMerge : Nat → Dev → Nat → Dev
  | 0, d, _ => d
  | fuel + 1, d, f =>
    match Store.get (fun _ => []) d.path.merge f with
    | [] => d
    | c :: rest =>
      if Store.get (fun _ => 0) d.path.seqRx f == c.seq + 1 then
        Dev.drainMerge fuel ((d.modPath fun x => { x with merge := Store.set (fun _ => []) x.merge f rest }).accept c false) f
      else d

/-- A waiting cell put at its place by distance from the expected number. -/
def mergeInsert (e : Nat) (c : Cell) : List Cell → List Cell
  | [] => [c]
  | a :: rest =>
    if (c.seq + 65536 - e) % 65536 < (a.seq + 65536 - e) % 65536 then c :: a :: rest else a :: mergeInsert e c rest

/-- A cell that has passed its bucket goes to FMX in SEQ order (R241, R244). -/
def Dev.inOrder (d : Dev) (c : Cell) : Dev :=
  let f := c.flow
  let e := Store.get (fun _ => 0) d.path.seqRx f
  if e = 0 ∨ c.seq + 1 = e then Dev.drainMerge 65536 (d.accept c false) f
  else if 64 < d.flowNsort f ∧ (c.seq + 65536 - (e - 1)) % 65536 < 32768 then
    d.modPath fun x =>
      { x with
        merge := Store.set (fun _ => []) x.merge f (mergeInsert (e - 1) c (Store.get (fun _ => []) x.merge f)) }
  else d.accept c true

/-- A VALID cell taken from group `g` (R198, R243): each arrival takes from the flow's bucket. (Log 73: DEDUCED) -/
def Dev.takeCell (d : Dev) (g : Nat) (c : Cell) : Dev :=
  let f := c.flow
  let held := Store.get (fun _ => 0) d.path.bucket f
  if !d.flowUses f g then d.bump Reg.FMX_IN_DROP.WRONG_GROUP 0
  else if !d.txInService f || !d.delivers f then d.flowCount f 7
  else if held = 0 then
    (d.bump Reg.HLN_CELL_DISC.POLICED g).modPath fun x => { x with gapNext := insertUp f x.gapNext }
  else (d.modPath fun x => { x with bucket := Store.set (fun _ => 0) x.bucket f (held - 1) }).inOrder c

/-- The bytes of a received cell, in an uncorrectable codeword or not, received at a moment (R241). -/
def Dev.takeBytes (d : Dev) (g : Nat) (b : List Nat) (bad : Bool) (edge : Nat) : Dev :=
  if !hcrcOk b then d.bump Reg.HLN_CELL_DISC.HCRC g
  else if !cellValid b then d
  else if d.grpRun g then d.takeCell g (cellOf b bad edge)
  else d

/-- A missing SEQ of a paired flow has been waited for 1 µs from its successor's arrival: merging goes on with GAP. -/
def Dev.mergeTimeout (d : Dev) (f : Nat) : Dev :=
  match Store.get (fun _ => []) d.path.merge f with
  | [] => d
  | c :: rest =>
    let first := rest.foldl (fun a x => min a x.edge) c.edge
    let d := (d.until (first + us 1)).modPath fun x => { x with merge := Store.set (fun _ => []) x.merge f rest }
    Dev.drainMerge 65536 (d.accept c true) f

/-! ### Blocks received (R235, R237 to R239, R251) -/

/-- A valid header read: the lane peer's HEALTH, its announcement and its set. -/
def Dev.readHeader (d : Dev) (g : Nat) (b : List Nat) : Dev :=
  let lanes := b.getD 6 0
  let sw := b.getD 9 0 % 16
  let bnum := ofBytesBE (slice b 2 4)
  let d := d.set Reg.HLN_GRP_STAT.PEER_HEALTH g (b.getD 7 0)
  let d := d.modGrp g fun x =>
    { x with
      peerSeen := true
      noHdr := none
      rxBnum := bnum
      rxSet := lanes
      rxNext := if 0 < sw ∧ sw ≤ 4 then some ((bnum + sw) % pow2 32, b.getD 8 0) else x.rxNext
      peerSwitched := x.peerSwitched || (x.ann.any fun a => a.set == lanes)
      sinceSwitch := if lanes = d.laneSet g then none else x.sinceSwitch }
  let d := if d.get Reg.HLN_GRP_STAT.SW g = 2 ∧ lanes = d.laneSet g then d.set Reg.HLN_GRP_STAT.SW g 0 else d
  let d := d.setChanged g
  d.modGrp g fun x => { x with goodRun := if lanes = d.laneSet g then x.goodRun + 1 else 0 }

/-- A block without a valid header under any candidate set. -/
def Dev.noHeader (d : Dev) (g : Nat) : Dev :=
  d.modGrp g fun x => { x with goodRun := 0, rxBnum := (x.rxBnum + 1) % pow2 32, noHdr := x.noHdr.map (· + 1) }

/-- The data bits of logical lane `l` in a received block: the levels of the physical lane bound to it, with its polarity, precoding and
scrambling undone; nothing of a lane that is not bound (R230, R231, R233). -/
def Dev.laneReceived (d : Dev) (g : Nat) (b : HostBlock) (l : Nat) : List Bool :=
  if d.getJ Reg.HLN_LANE_STAT.BOUND g l = 1 then
    let levels := ((b.lanes.map fun x => x.levels.map (·.val)).getD (d.getJ Reg.HLN_LANE_STAT.RX_PHYS g l) [])
    let levels := if d.getJ Reg.HLN_LANE_STAT.INV g l = 1 then complement levels else levels
    laneBits l (d.getJ Reg.HLN_LANE_STAT.PRE_RX g l == 1) levels
  else []

/-- The units of the lanes of set `S`, in ascending order. -/
def Dev.setUnits (d : Dev) (g : Nat) (b : HostBlock) (S : Nat) : List (List Nat) :=
  (allLe.filter (bitOf S)).map fun l => laneUnits (d.laneReceived g b l)

/-- The sets under which a block's header is sought: the one expected, the one computed under R250, and in ALIGN, where the lane
peer's set is not yet known, every set of seven lanes. (Log 161: DESIGN CHOICE) -/
def Dev.candidates (d : Dev) (g : Nat) : List Nat :=
  ([(d.grp g).rxSet, d.wantedSet g] ++ (if d.gstate g = 2 then allLe.map (255 - pow2 ·) else [])).filter fun S =>
    decide (7 ≤ popcount8 S)

/-- The set under which a block is taken, with its header's bytes where one is valid (R251): the expected set's own header decides
first, then the first set whose header is valid with LANES equal to it; else the set expected. (Log 161: DESIGN CHOICE) -/
def Dev.blockSet (d : Dev) (g : Nat) (b : HostBlock) : Nat × Option (List Nat) :=
  let x := (d.grp g).rxSet
  let valid := (d.candidates g).map fun S => (S, decodeHeader (d.setUnits g b S))
  match valid.find? fun c => blockHeaderOk c.2 && (c.1 == x || c.2.getD 6 0 == c.1) with
  | some (S, h) => (S, some h)
  | none => (x, none)

/-- The receive clocks of a block are kept by logical lane (R267). -/
def Dev.keepClocks (d : Dev) (g : Nat) (b : HostBlock) : Dev :=
  let times := b.lanes.map fun x => d.laneTimes x.clock
  d.over (allLe.filter fun l => d.getJ Reg.HLN_LANE_STAT.BOUND g l == 1) fun l d =>
    let t := times.getD (d.getJ Reg.HLN_LANE_STAT.RX_PHYS g l) LaneTimes.reset
    d.modLane g l fun x => { x with clock := t }

/-- The counts of a decoded block: codewords, uncorrectable ones, symbols corrected in all and by lane (R239, R249). -/
def Dev.blockCounts (d : Dev) (g : Nat) (r : BlockRead) : Dev :=
  let d := d.set64 Reg.HLN_RS_CW_LO.CW Reg.HLN_RS_CW_HI.CW g
    (d.get64 Reg.HLN_RS_CW_LO.CW Reg.HLN_RS_CW_HI.CW g + blockWords r.set.length)
  let d := d.set64 Reg.HLN_RS_SYM_LO.SYM Reg.HLN_RS_SYM_HI.SYM g
    (d.get64 Reg.HLN_RS_SYM_LO.SYM Reg.HLN_RS_SYM_HI.SYM g + r.fixed.length)
  let d := d.addSat Reg.HLN_RS_UNC.UNC g r.lost.length
  d.over allLe fun l d =>
    let n := r.fixed.countP (· == l)
    (d.addSatJ Reg.HLN_LANE_SYMERR.SYM g l n).modLane g l fun x => { x with symErrs := (n :: x.symErrs).take 64 }

/-- A lane set that the lane peer announced for this block takes effect (R251). -/
def Dev.peerSet (d : Dev) (g : Nat) : Dev :=
  d.modGrp g fun x =>
    match x.rxNext with
    | some (n, set) => if n = (x.rxBnum + 1) % pow2 32 then { x with rxSet := set, rxNext := none } else x
    | none => x

/-- Cell `q` of a decoded block is taken: errored where it has bytes in an uncorrectable codeword, with the edge of its last symbol,
and that of its first byte reported where it starts a PTP frame (R39, R239, R241, R255). -/
def Dev.blockCell (d : Dev) (g : Nat) (r : BlockRead) (q : Nat) : Dev :=
  let n := r.set.length
  let b := slice r.bytes (blockHead n + 256 * q) 256
  let bad := (cellWords n q).any r.lost.contains
  let (l, u) := cellLast r.set q
  let edge := ((d.lane g l).clock.edgeMoment 0 (unitSymbol u + 9)).getD d.now
  let c := cellOf b bad edge
  let d :=
    if hcrcOk b && cellValid b && d.grpRun g && d.reported c then
      let (l, u) := cellFirst r.set q
      d.reportPtp g ⟨false, c.flow, c.seq, (d.grp g).rxBnum, l, u,
        ((d.lane g l).clock.edgeTime 0 (unitSymbol u)).getD d.stampNow⟩
    else d
  d.takeBytes g b bad edge

/-- A received block: its set is found, its codewords decoded and counted, its header read, and its cells taken in order (R239, R241,
R251). -/
def Dev.blockReceive (d : Dev) (g : Nat) (b : HostBlock) : Dev :=
  if d.grpEn g ∧ 2 ≤ d.gstate g then
    let d := ((d.set Reg.HLN_GRP_EB.RX_FILL g (capN 20480 b.rxFill)).keepClocks g b).peerSet g
    let (S, h) := d.blockSet g b
    let r := decodeBlock (allLe.filter (bitOf S)) (d.setUnits g b S)
    let d := d.blockCounts g r
    let d := match h with
      | some h => d.readHeader g h
      | none => d.noHeader g
    d.over (List.range (blockCells r.set.length)) fun q d => d.blockCell g r q
  else d

/-- The lane peer has not followed for 128 blocks (R254): code 1 no valid header, code 2 LANES not followed. -/
def Dev.peerStuck (d : Dev) (g : Nat) : Dev :=
  let x := d.grp g
  if d.grpRun g then
    if x.noHdr.any (128 ≤ ·) then (d.raise Ev.peerStuck g g 1).leaveRun g
    else if x.sinceSwitch.any (128 ≤ ·) then (d.raise Ev.peerStuck g g 2).leaveRun g
    else d
  else d

/-! ### Blocks sent (R235, R242, R250) -/

/-- The device's switch block: the new set is in use, `HLN:RESTRIPE` is raised and lane-shedding is evaluated. -/
def Dev.restripe (d : Dev) (g : Nat) (a : HlnAnn) : Dev :=
  let followed := (d.grp g).peerSwitched
  let d := (d.set Reg.HLN_GRP_STAT.LANES g a.set).set Reg.HLN_GRP_STAT.SW g (if followed then 0 else 2)
  let d := d.modGrp g fun x => { x with ann := none, peerSwitched := false, sinceSwitch := if followed then none else some 0 }
  let d := d.over (allLe.filter fun l => bitOf a.set l && d.laneState g l == 3) fun l d => d.laneRun g l
  ((d.bump Reg.HLN_GRP_CNT.RESTRIPE g).raise Ev.restripe g g (a.reason * 256 + a.set)).shedEval

/-- The countdown of an announcement at the start of a block, and the switch at its end. -/
def Dev.countdown (d : Dev) (g : Nat) : Dev :=
  match (d.grp g).ann with
  | none => d
  | some a =>
    let left := if a.left = 5 then (if a.from_ ≤ d.now then 4 else 5) else a.left - 1
    if left = 0 then d.restripe g a
    else d.modGrp g fun x => { x with ann := some { a with left := left } }

/-- The SHED field of the next block: the change at the head, which then goes to the tail until it has been said 4 times. -/
def Hln.shedField (x : Hln) : Nat × List (Nat × Bool × Nat) :=
  match x.told with
  | [] => (0, [])
  | (f, stop, k) :: rest =>
    (pow2 15 + b1 stop * pow2 14 + f, if k ≤ 1 then rest else rest ++ [(f, stop, k - 1)])

/-- The header of the block now sent (R235). -/
def Dev.blockHeader (d : Dev) (g : Nat) : List Nat :=
  let x := d.grp g
  let S := d.laneSet g
  let sw := match x.ann with | some a => if a.left ≤ 4 then a.left else 0 | none => 0
  let next := match x.ann with | some a => if a.left ≤ 4 then a.set else S | none => S
  let reason := match x.ann with | some a => if a.left ≤ 4 then a.reason else 0 | none => 0
  let b := [1, g] ++ bytesBE 4 (d.get Reg.HLN_GRP_BNUM.BNUM g) ++ [S, d.health g, next, reason * 16 + sw] ++
    bytesBE 2 x.shedField.1 ++ List.replicate 21 0
  b ++ bytesBE 2 (crc16 b) ++ (if popcount8 S = 8 then List.replicate 5 0 else [])

/-- The block built: its header, and as many cells as the set holds, idle cells where none waits. -/
def Dev.blockBuilt (d : Dev) (g : Nat) : Dev :=
  let n := blockCells (popcount8 (d.laneSet g))
  let waiting := Store.get (fun _ => []) d.path.toHost g
  let sent := if d.grpRun g then waiting.take n else []
  let hdr := d.blockHeader g
  let d := d.modGrp g fun x =>
    { x with
      header := hdr
      cells := sent.map hostCellBytes ++ List.replicate (n - sent.length) idleCellBytes
      told := x.shedField.2
      sinceSwitch := x.sinceSwitch.map (· + 1) }
  d.modPath fun x => { x with toHost := Store.set (fun _ => []) x.toHost g (waiting.drop sent.length) }

/-- The test sequence that TEST selects, and the levels of one block of it on physical lane `l` with the generator and the last level
after them: Gray-mapped, and precoded only where PRECODE is 2 (R256). -/
def testSeq : Nat → Option TestSeq
  | 1 => some prbs7
  | 2 => some prbs13
  | 3 => some prbs31
  | _ => none
def Dev.testLevels (d : Dev) (g l : Nat) : List Nat × Nat :=
  let t := d.getJ Reg.HLN_LANE_CTRL.TEST g l
  let x := d.lane g l
  let (levels, gen) :=
    match testSeq t with
    | some q => let (b, r) := q.bits 11136 x.gen; (grayLevels b, r)
    | none => ((List.range 5568).map squareLevel, x.gen)
  (if d.getJ Reg.HLN_LANE_CTRL.PRECODE g l = 2 then precode x.genLast levels else levels, gen)

/-- The levels that logical lane `l` sends in this block: nothing out of training, its test pattern in TEST, else the rimshot and its
dealt bits, or training data of all zeros outside the set (R228, R232, R234, R244, R256). -/
def Dev.laneSent (d : Dev) (g : Nat) (dealt : List (Nat × List Bool)) (l : Nat) : List Nat :=
  match d.laneState g l with
  | 6 => []
  | 5 => (d.testLevels g l).1
  | _ =>
    let bits := ((dealt.find? (·.1 == l)).map (·.2)).getD (List.replicate 10880 false)
    rimshotLevels (d.rimshotWord g l) ++ laneLevels l (d.getJ Reg.HLN_LANE_STAT.PRE_TX g l == 1) bits

/-- The header and cells of the block are coded and dealt over the set, and every lane's levels are sent; the test generators go on. -/
def Dev.blockDealt (d : Dev) (g : Nat) (carries : Bool) : Dev :=
  let x := d.grp g
  let S := allLe.filter (bitOf (d.laneSet g))
  let dealt := if carries then S.zip (dealBlock S.length (blockEncode S.length (x.header ++ x.cells.flatten))) else []
  let levels := allLe.map (d.laneSent g dealt)
  let d := d.over (allLe.filter fun l => d.laneState g l == 5) fun l d =>
    let (sent, gen) := d.testLevels g l
    d.modLane g l fun x => { x with gen := gen, genLast := sent.getLastD 0 }
  d.modGrp g fun x => { x with levels := levels }

/-- A block starts on the group's transmit lanes: it is numbered while the group is enabled, carries a header and cells from ALIGN on,
and is sent beside the lanes in TEST (R234, R242, R250, R256). (Log 71: DEDUCED) -/
def Dev.blockSend (d : Dev) (g : Nat) (c : LaneClock) : Dev :=
  let d := d.modGrp g fun x => { x with txClock := d.laneTimes c }
  if d.grpEn g then
    let d := d.set Reg.HLN_GRP_BNUM.BNUM g (d.get Reg.HLN_GRP_BNUM.BNUM g + 1)
    let d := if 2 ≤ d.gstate g then (d.countdown g).blockBuilt g else d
    d.blockDealt g (decide (2 ≤ d.gstate g))
  else if allLe.any fun l => d.laneState g l == 5 then d.blockDealt g false
  else d

/-! ### Cells delivered (R40, R46, R242) -/

/-- The time one cell takes on the group's lanes in ps: a block of 98,987 ps carries 40 or 35 cells. (Log 160: DEDUCED) -/
def Dev.cellPs (d : Dev) (g : Nat) : Nat := if popcount8 (d.laneSet g) = 7 then 2828 else 2475

/-- The fill of the host-transmit buffer in ns of data: what waits, up to the target of 200 ns (R242). (Log 160: DEDUCED) -/
def Dev.txFill (d : Dev) (g : Nat) : Nat :=
  min 200 ((Store.get (fun _ => []) d.path.toHost g).length * d.cellPs g / 1000)

/-- Where the next cell that enters group `g`'s transmit buffer will leave: how many blocks after the one last started, and its place
among the block's cells (R40). (Log 160: DEDUCED) -/
def Dev.slotAhead (d : Dev) (g : Nat) : Nat × Nat :=
  let n := blockCells (popcount8 (d.laneSet g))
  let w := (Store.get (fun _ => []) d.path.toHost g).length
  (1 + w / n, w % n)

/-- The departure edge, in ns since release, of a cell that enters the host-transmit buffer now: the edge of its last symbol, as the
read counter and the words ahead of it give it (R40, R42). (Log 160: DEDUCED) -/
def Dev.departure (d : Dev) (g : Nat) : Nat :=
  let (k, q) := d.slotAhead g
  let (_, u) := cellLast (allLe.filter (bitOf (d.laneSet g))) q
  ((d.grp g).txClock.edgeMoment k (unitSymbol u + 9)).getD
    (d.now + ((Store.get (fun _ => []) d.path.toHost g).length + 1) * d.cellPs g / 1000)

/-- The departure edge of a cell that starts a PTP frame is fixed and reported in the same terms (R40, R255). -/
def Dev.reportDeparture (d : Dev) (g : Nat) (c : Cell) : Dev :=
  if d.reported c then
    let (k, q) := d.slotAhead g
    let (l, u) := cellFirst (allLe.filter (bitOf (d.laneSet g))) q
    d.reportPtp g ⟨true, c.flow, c.seq, (d.get Reg.HLN_GRP_BNUM.BNUM g + k) % pow2 32, l, u,
      ((d.grp g).txClock.edgeTime k (unitSymbol u)).getD (stamp (d.timeAt (d.departure g)))⟩
  else d

/-- A cell of flow `c.flow` delivered to its lane group, or discarded where the group does not deliver (R46, R242, R244). -/
def Dev.deliverCell (d : Dev) (c : Cell) : Dev :=
  let f := c.flow
  if !d.delivers f then d.discardOut f
  else
    let q := Store.get (fun _ => 0) d.path.seqTx f
    let g := if 64 < d.flowNsort f then d.flowGroup f + q % 2 else d.flowGroup f
    let late := decide (bitsOf (d.localWord f 1) 16 16 < d.departure g - c.edge)
    let gap := c.gap || d.path.gapOut.contains f
    let c := { c with seq := q, late := c.late || late, gap := gap }
    let d := (d.reportDeparture g c).modPath fun x =>
      { x with
        seqTx := Store.set (fun _ => 0) x.seqTx f ((q + 1) % 65536)
        gapOut := x.gapOut.filter (· != f)
        toHost := Store.set (fun _ => []) x.toHost g (Store.get (fun _ => []) x.toHost g ++ [c]) }
    let d := (d.flowCount64 f 2)
    let d := if late then d.flowCount f 4 else d
    let d := if gap then d.flowCount f 5 else d
    if c.errored then d.flowCount f 6 else d

/-! ### PRBS test (R256) and buffers (R26, R27) -/

/-- The errors of a write of `HLN_LANE_CTRL`. -/
def Dev.laneCtrlErrs (d : Dev) (g l w : Nat) : List Err :=
  failIf (bitsOf w 8 2 == 3) .reserved ++ failIf (decide (5 ≤ bitsOf w 0 3)) .reserved ++
  failIf (d.grpEn g && bitsOf w 0 3 != d.getJ Reg.HLN_LANE_CTRL.TEST g l) .state

/-- A write of TEST took effect: the counts clear, generator and checkers start anew, and the lane is in, or leaves, TEST.
(Log 75: DESIGN CHOICE) -/
def Dev.laneCtrlApply (d : Dev) (g l : Nat) : Dev :=
  let d := ((d.setJ Reg.HLN_LANE_PRBS_ERR.ERR g l 0).setJ Reg.HLN_LANE_PRBS_CNT.CNT g l 0).setJ Reg.HLN_LANE_CTRL.PRBS_LOCK g l 0
  let d := d.modLane g l fun x => { x with gen := 0x7FFFFFFF, genLast := 0, chk := Prbs.reset, chkInv := Prbs.reset, chkLast := 0 }
  if d.grpEn g then d else d.setLane g l (d.laneRest g l 6)

/-- The checker of a test sequence after received levels: the run of the polarity in lock, or of the one that locks, else of the true
one, and whether it is the inverted one (R256). (Log 75: DESIGN CHOICE) -/
def checkLevels (q : TestSeq) (pre : Bool) (x : HlnLane) (levels : List Nat) : PrbsRun × PrbsRun × Bool :=
  let bits (last : Nat) (l : List Nat) : List Bool := (if pre then unprecode last l else l).flatMap grayBits
  let a := Prbs.feed q x.chk (bits x.chkLast levels)
  let b := Prbs.feed q x.chkInv (bits (3 - x.chkLast) (complement levels))
  (a, b, !x.chk.locked && (x.chkInv.locked || (b.c.locked && !a.c.locked)))

/-- Levels come to the checker of physical lane `l` under a test sequence: errors and checked bits count while it is locked, and its
lock follows (R256). (Log 75: DESIGN CHOICE) -/
def Dev.prbsLock (d : Dev) (g l : Nat) (levels : List Nat) : Dev :=
  match testSeq (d.getJ Reg.HLN_LANE_CTRL.TEST g l) with
  | none => d
  | some q =>
    let x := d.lane g l
    let (a, b, inv) := checkLevels q (d.getJ Reg.HLN_LANE_CTRL.PRECODE g l == 2) x levels
    let r := if inv then b else a
    let (c, units) := r.settle
    let other := if c.locked then Prbs.reset else if inv then a.c else b.c
    let d := (d.addSatJ Reg.HLN_LANE_PRBS_ERR.ERR g l r.errs).addSatJ Reg.HLN_LANE_PRBS_CNT.CNT g l units
    let d := d.modLane g l fun x =>
      { x with chk := if inv then other else c, chkInv := if inv then c else other, chkLast := levels.getLastD x.chkLast }
    d.setJ Reg.HLN_LANE_CTRL.PRBS_LOCK g l (b1 c.locked)

/-- A full host-receive buffer: the next accepted cell of each flow that lost cells carries GAP. -/
def Dev.hlnOverflow (d : Dev) (g : Nat) (flows : List Nat) : Dev :=
  if d.grpEn g then
    let d := d.set Reg.HLN_GRP_EB.RX_FILL g 20480
    (d.modPath fun x => { x with gapNext := insertAll flows x.gapNext }).raise Ev.hlnRxOverflow g g 0
  else d

/-- A host-transmit buffer underruns: idle cells are sent until data returns. -/
def Dev.hlnUnderrun (d : Dev) (g : Nat) : Dev :=
  if d.grpEn g then d.raise Ev.hlnTxUnderrun g g 0 else d

end Sys2Proof.Machine
end

