-- ==== Sys2Proof/Machine/Decibel.lean ====
section
/-! DEFINITION. Roots and decibels in integers: what the chapters state in dB, as exact comparisons of scaled powers. -/

namespace Sys2Proof.Machine

/-- The integer root of order `k` of `n`, below 2^bits. -/
def rootOf (k n : Nat) : Nat → Nat → Nat
  | 0, acc => acc
  | bits + 1, acc => if (acc + pow2 bits) ^ k ≤ n then rootOf k n bits (acc + pow2 bits) else rootOf k n bits acc

/-- 2^-256 units: 10^(1/2000), 10^(-1/2000) and 10^(-1/4000), rounded down. -/
def one256 : Nat := 2 ^ 256
def up256 : Nat := 0x1004b7e9b5ce5cbbcb1f117fefcc6f71db6b2fcc3c4cb7c41fe41d678f550573c
def down256 : Nat := 0xffb497a181eb34d1bc62c0880d7f0233f1306123cc3d3426d4dcf85782eacc40
def half256 : Nat := 0xffda49098df5732f5462350204cb265a8fa2ec4fc4b469608d4064ca5fa029fc

/-- `b` to the power `e` in 2^-256 units, by squaring. -/
def pow256 : Nat → Nat → Nat → Nat
  | 0, _, _ => one256
  | fuel + 1, b, e =>
    let h := pow256 fuel (b * b / one256) (e / 2)
    if e % 2 = 1 then h * b / one256 else h

/-- The amplitude ratio of `k` hundredths of a dB, 10^(k / 2000), and the one halfway to the hundredth below, in 2^-256 units. -/
def dbAmp (k : Int) : Nat := if 0 ≤ k then pow256 20 up256 k.toNat else pow256 20 down256 (-k).toNat
def ampBelow (k : Int) : Nat := dbAmp k * half256 / one256

/-- The power ratio of `k` hundredths of a dB, 10^(k / 1000), in 2^-256 units. -/
def dbPower (k : Int) : Nat := dbAmp (2 * k)

/-- The greatest `k` from `lo` on, within a span of 2^fuel, whose lower edge `num / den` still reaches. -/
def dbSearch (num den : Nat) : Nat → Int → Int
  | 0, lo => lo
  | fuel + 1, lo =>
    let mid := lo + (2 ^ fuel : Nat)
    if ampBelow mid * ampBelow mid / one256 * den ≤ num * one256 then dbSearch num den fuel mid else dbSearch num den fuel lo

/-- A power ratio in hundredths of a dB, to the nearest. -/
def dbOf (num den : Nat) : Int := dbSearch num den 16 (-32768)

/-- log2 of a number of 1 or more, in 2^-16, rounded down: 16 binary digits after the point, by squaring. -/
def logDigits : Nat → Nat → Nat
  | 0, _ => 0
  | fuel + 1, x =>
    let y := x * x / pow2 64
    if pow2 65 ≤ y then pow2 fuel + logDigits fuel (y / 2) else logDigits fuel y
def log2of (n : Nat) : Nat := Nat.log2 n * 65536 + logDigits 16 (n * pow2 64 / pow2 (Nat.log2 n))

end Sys2Proof.Machine
end

