-- ==== Sys2Proof/Machine/Crypto.lean ====
section
/-! DEFINITION. The published algorithms that the chapters name: AES-256 and GCM (R324 to R327), SHA-256, and RSA-3072 with
PSS and OAEP (R346, R367, R371). Their constants and steps are those of the named standards (PRESUMED: the spec names the
algorithms and does not print them). Bytes are numbers below 256. -/

namespace Sys2Proof.Machine

/-- Bytes combined by exclusive or. -/
def xorBytes (a b : List Nat) : List Nat := a.zipWith (fun x y => x ^^^ y) b

/-- A list in pieces of `n`, the last one as it comes; `fuel` bounds the number of pieces. -/
def pieces {α : Type} (n : Nat) : Nat → List α → List (List α)
  | 0, _ => []
  | fuel + 1, l => if l.isEmpty then [] else l.take n :: pieces n fuel (l.drop n)

/-! ### AES-256 -/

/-- Multiplication by x in the field of AES. -/
def xtime (a : Nat) : Nat := if a < 128 then 2 * a else (2 * a - 256) ^^^ 0x1B

/-- The product in the field of AES. -/
def gf8 (a b : Nat) : Nat :=
  ((List.range 8).foldl (fun (acc : Nat × Nat) i => ((if bitOf b i then acc.1 ^^^ acc.2 else acc.1), xtime acc.2)) (0, a)).1

/-- The power `e` of `a` in the field of AES. -/
def gf8Pow (a : Nat) : Nat → Nat
  | 0 => 1
  | e + 1 => gf8 a (gf8Pow a e)

/-- A byte rotated left by `k`. -/
def rotl8 (a k : Nat) : Nat := (a * pow2 k + a / pow2 (8 - k)) % 256

/-- The S-box: the inverse in the field, then the affine map. -/
def sboxOf (a : Nat) : Nat :=
  let b := gf8Pow a 254
  b ^^^ rotl8 b 1 ^^^ rotl8 b 2 ^^^ rotl8 b 3 ^^^ rotl8 b 4 ^^^ 0x63

/-- The S-box as a table. -/
def sbox : List Nat := (List.range 256).map sboxOf

/-- The S-box of one byte. -/
def sub (a : Nat) : Nat := sbox.getD a 0

/-- The key schedule: each next word (four bytes) from the words so far, latest first; `i` is its index. -/
def keyWords : Nat → Nat → List (List Nat) → List (List Nat)
  | 0, _, ws => ws
  | fuel + 1, i, ws =>
    let t := ws.headD []
    let t :=
      if i % 8 = 0 then xorBytes ((t.drop 1 ++ t.take 1).map sub) [gf8Pow 2 (i / 8 - 1), 0, 0, 0]
      else if i % 8 = 4 then t.map sub
      else t
    keyWords fuel (i + 1) (xorBytes (ws.getD 7 []) t :: ws)

/-- The fifteen round keys of a 32-byte key. -/
def roundKeys (key : List Nat) : List (List Nat) :=
  let ws := (keyWords 52 8 ((List.range 8).map fun i => slice key (4 * i) 4).reverse).reverse
  (List.range 15).map fun r => (slice ws (4 * r) 4).flatten

/-- ShiftRows on a block in column order. -/
def shiftRows (s : List Nat) : List Nat := (List.range 16).map fun i => s.getD ((i + 4 * (i % 4)) % 16) 0

/-- MixColumns on one column. -/
def mixColumn (c : List Nat) : List Nat :=
  (List.range 4).map fun i =>
    let g (k : Nat) : Nat := c.getD ((i + k) % 4) 0
    xtime (g 0) ^^^ (xtime (g 1) ^^^ g 1) ^^^ g 2 ^^^ g 3

/-- One block under a key schedule. (Log 12: PRESUMED) -/
def aesBlock (ks : List (List Nat)) (b : List Nat) : List Nat :=
  let round (s : List Nat) (r : Nat) : List Nat :=
    xorBytes (((pieces 4 4 (shiftRows (s.map sub))).map mixColumn).flatten) (ks.getD r [])
  let s := ((List.range 13).map (· + 1)).foldl round (xorBytes b (ks.getD 0 []))
  xorBytes (shiftRows (s.map sub)) (ks.getD 14 [])

/-! ### GCM -/

/-- The product of two blocks in the field of GCM, the first bit most significant. -/
def ghashMul (x y : Nat) : Nat :=
  ((List.range 128).foldl (fun (acc : Nat × Nat) i =>
    ((if bitOf x (127 - i) then acc.1 ^^^ acc.2 else acc.1),
     (if acc.2 % 2 = 1 then (acc.2 / 2) ^^^ (0xE1 * pow2 120) else acc.2 / 2))) (0, y)).1

/-- GHASH over blocks under the hash key `h`. -/
def ghash (h : Nat) (l : List Nat) : Nat :=
  (pieces 16 (l.length / 16 + 1) l).foldl (fun y b => ghashMul (y ^^^ ofBytesBE (b ++ List.replicate (16 - b.length) 0)) h) 0

/-- Bytes filled with zeros to a whole number of blocks. -/
def pad16 (l : List Nat) : List Nat := l ++ List.replicate ((16 - l.length % 16) % 16) 0

/-- Counter mode from block counter `j` of a 96-bit IV. -/
def gcmStream (ks : List (List Nat)) (iv j : Nat) (l : List Nat) : List Nat :=
  let bs := pieces 16 (l.length / 16 + 1) l
  ((List.range bs.length).map fun k => xorBytes (bs.getD k []) (aesBlock ks (bytesBE 16 (iv * pow2 32 + j + k)))).flatten

/-- The tag over AAD and ciphertext. -/
def gcmTag (ks : List (List Nat)) (iv : Nat) (aad ct : List Nat) : List Nat :=
  let h := ofBytesBE (aesBlock ks (List.replicate 16 0))
  let y := ghash h (pad16 aad ++ pad16 ct ++ bytesBE 8 (8 * aad.length) ++ bytesBE 8 (8 * ct.length))
  xorBytes (aesBlock ks (bytesBE 16 (iv * pow2 32 + 1))) (bytesBE 16 y)

/-- One invocation on transmit: ciphertext and tag. (Log 12: PRESUMED) -/
def gcmSeal (key : List Nat) (iv : Nat) (aad pt : List Nat) : List Nat × List Nat :=
  let ks := roundKeys key
  let ct := gcmStream ks iv 2 pt
  (ct, gcmTag ks iv aad ct)

/-- One invocation on receive: plaintext and the tag that the ciphertext must carry. (Log 12: PRESUMED) -/
def gcmOpen (key : List Nat) (iv : Nat) (aad ct : List Nat) : List Nat × List Nat :=
  let ks := roundKeys key
  (gcmStream ks iv 2 ct, gcmTag ks iv aad ct)

/-- The key check value: bytes 0 to 3 of the block of 0xFF under the key (R339). -/
def kcvOf (key : List Nat) : Nat := ofBytesBE ((aesBlock (roundKeys key) (List.replicate 16 0xFF)).take 4)

/-! ### SHA-256 -/

/-- The first 64 primes. -/
def primes64 : List Nat :=
  ((List.range 312).filter fun n => decide (2 ≤ n) && (List.range n).all fun k => decide (k < 2) || n % k != 0)

/-- The first 32 bits of the fractional parts of the cube roots of the first 64 primes, and of the square roots of the first
eight. -/
def shaK : List Nat := primes64.map fun p => rootOf 3 (p * pow2 96) 36 0 % pow2 32
def shaInit : List Nat := (primes64.take 8).map fun p => rootOf 2 (p * pow2 64) 37 0 % pow2 32

/-- A 32-bit word rotated right by `k`. -/
def rotr (x k : Nat) : Nat := (x / pow2 k + x * pow2 (32 - k)) % pow2 32

/-- The complement of a 32-bit word. -/
def not32 (x : Nat) : Nat := pow2 32 - 1 - x

/-- The message schedule, latest word first. -/
def shaWords : Nat → List Nat → List Nat
  | 0, ws => ws
  | fuel + 1, ws =>
    let a := ws.getD 14 0
    let b := ws.getD 1 0
    let s0 := rotr a 7 ^^^ rotr a 18 ^^^ a / pow2 3
    let s1 := rotr b 17 ^^^ rotr b 19 ^^^ b / pow2 10
    shaWords fuel ((ws.getD 15 0 + s0 + ws.getD 6 0 + s1) % pow2 32 :: ws)

/-- One round on the eight working words. -/
def shaRound (v : List Nat) (kw : Nat) : List Nat :=
  let g (i : Nat) : Nat := v.getD i 0
  let s1 := rotr (g 4) 6 ^^^ rotr (g 4) 11 ^^^ rotr (g 4) 25
  let ch := (g 4 &&& g 5) ^^^ (not32 (g 4) &&& g 6)
  let t1 := g 7 + s1 + ch + kw
  let s0 := rotr (g 0) 2 ^^^ rotr (g 0) 13 ^^^ rotr (g 0) 22
  let maj := (g 0 &&& g 1) ^^^ (g 0 &&& g 2) ^^^ (g 1 &&& g 2)
  [(t1 + s0 + maj) % pow2 32, g 0, g 1, g 2, (g 3 + t1) % pow2 32, g 4, g 5, g 6]

/-- One block of 64 bytes. -/
def shaBlock (h b : List Nat) : List Nat :=
  let ws := (shaWords 48 ((pieces 4 16 b).map ofBytesBE).reverse).reverse
  let v := (shaK.zip ws).foldl (fun v kw => shaRound v (kw.1 + kw.2)) h
  h.zipWith (fun a b => (a + b) % pow2 32) v

/-- SHA-256 of bytes. (Log 12: PRESUMED) -/
def sha256 (l : List Nat) : List Nat :=
  let m := l ++ [0x80] ++ List.replicate ((119 - l.length % 64) % 64) 0 ++ bytesBE 8 (8 * l.length)
  ((pieces 64 (m.length / 64 + 1) m).foldl shaBlock shaInit).flatMap (bytesBE 4)

/-! ### RSA-3072 -/

/-- `b` to the power `e` modulo `m`, by squaring. -/
def powMod : Nat → Nat → Nat → Nat → Nat
  | 0, _, _, m => 1 % m
  | fuel + 1, b, e, m =>
    let h := powMod fuel (b * b % m) (e / 2) m
    if e % 2 = 1 then h * b % m else h

/-- The mask generation function MGF1 with SHA-256. -/
def mgf1 (seed : List Nat) (n : Nat) : List Nat :=
  (((List.range (n / 32 + 1)).map fun k => sha256 (seed ++ bytesBE 4 k)).flatten).take n

/-- RSASSA-PSS verification with a 3,072-bit modulus, exponent 65,537, SHA-256 and a salt of 32 bytes. (Log 12: PRESUMED) -/
def pssVerify (modulus : Nat) (msg sig : List Nat) : Bool :=
  if sig.length ≠ 384 ∨ modulus ≤ ofBytesBE sig then false
  else
    let em := bytesBE 384 (powMod 20 (ofBytesBE sig) 65537 modulus)
    let masked := em.take 351
    let h := slice em 351 32
    let db := xorBytes masked (mgf1 h 351)
    let db := db.headD 0 % 128 :: db.drop 1
    em.getD 383 0 == 0xBC && decide (masked.headD 0 < 128) &&
      (db.take 318).all (· == 0) && db.getD 318 0 == 1 &&
      sha256 (List.replicate 8 0 ++ sha256 msg ++ db.drop 319) == h

/-- The place of the first byte of 1 after zeros, in an OAEP data block. -/
def oaepSplit : List Nat → Option (List Nat)
  | [] => none
  | b :: rest => if b = 0 then oaepSplit rest else if b = 1 then some rest else none

/-- RSA-OAEP decryption under a private exponent, with SHA-256, MGF1 and a label. (Log 12: PRESUMED) -/
def oaepOpen (modulus exponent : Nat) (label ct : List Nat) : Option (List Nat) :=
  if ct.length ≠ 384 ∨ modulus ≤ ofBytesBE ct then none
  else
    let em := bytesBE 384 (powMod 3072 (ofBytesBE ct) exponent modulus)
    let db0 := em.drop 33
    let seed := xorBytes (slice em 1 32) (mgf1 db0 32)
    let db := xorBytes db0 (mgf1 seed 351)
    if em.headD 0 ≠ 0 ∨ db.take 32 ≠ sha256 label then none else oaepSplit (db.drop 32)

end Sys2Proof.Machine
end

