-- ==== Sys2Proof/Machine/LineRx.lean ====
section
/-! DEFINITION. Line receive: the dispersion equaliser, acquisition states, loss of lock, the marker and the per-galley
measurements (R95 to R129). -/

namespace Sys2Proof.Machine

/-! ### Delay terms (R102, R105, R112) -/

/-- The receive symbol rate in GBd. -/
def Dev.rxGbd (d : Dev) (n : Nat) : Nat := gbd (d.get Reg.LE_RX_CFG.SYM_RATE n)

/-- N_D of R105 for a set dispersion of `dAbs` 0.01 ps/nm at `b` GBd and a carrier frequency in MHz: the quotient of exact
integers rounded up. -/
def preDelay (dAbs b mhz : Nat) : Nat :=
  ceilDiv (dAbs * 25 * b * b * 299792458 * 1000000) (3200000 * mhz * mhz)

/-- D_set taken, with N (R105). With FREQ_MHZ unset the spec gives no dispersion per GHz, and N is a free value.
(Log 48: DEDUCED, 148: DESIGN CHOICE) -/
def Dev.setD (d : Dev) (n : Nat) (v : Int) : Dev :=
  let f := d.get Reg.LE_RX_FREQ.FREQ_MHZ n
  let d := (d.setS Reg.LE_CDE_SET.D_SET n v).modRx n fun r => { r with dUse := v, hasD := true }
  if f = 0 then (d.set Reg.LE_CDE_PREDELAY.N n d.fresh).drawn
  else d.set Reg.LE_CDE_PREDELAY.N n (64 + preDelay v.natAbs (d.rxGbd n) f)

/-- τ_FE + τ_CDE + τ_MEQ in 2^-32 ns at a centroid in 1/256 tap, rounded down (R102, R105, R112). -/
def Dev.rxDelay (d : Dev) (n : Nat) (centroid : Int) : Int :=
  let b := d.rxGbd n
  let fe : Nat := if d.flag Reg.LE_RX_CFG.FE_FILT n then 76400 else 38000
  let taps : Int := 256 * (fe + 800 * d.get Reg.LE_CDE_PREDELAY.N n + 56000 : Nat) + 8000 * centroid
  taps * 2097152 / (125 * b : Nat) + 268435456

/-! ### The sample index (R96, R266) -/

/-- The samples taken from the start of the index to moment `t`, 256 in each ns. -/
def Dev.samplesBy (d : Dev) (n t : Nat) : Nat :=
  match (d.le n).rx.indexAt with
  | some t0 => (t - t0) * 256
  | none => 0

/-- The ADC sample index at moment `t`: the count, which wraps after 2^64 samples. (Log 52: DEDUCED) -/
def Dev.sampleIndex (d : Dev) (n t : Nat) : Nat := d.samplesBy n t % pow2 64

/-- The sample that a position of the index names, counted from the index's start: the last one taken with that value, so that
no position is used as a count across a wrap (R96). -/
def Dev.sampleCount (d : Dev) (n i : Nat) : Nat :=
  let now := d.samplesBy n d.now
  now - (now + pow2 64 - i % pow2 64) % pow2 64

/-- The moment, in ns since release, of the sample at a position of the index. -/
def Dev.sampleMoment (d : Dev) (n i : Nat) : Nat := ((d.le n).rx.indexAt.getD 0) + d.sampleCount n i / 256

/-- The time of the clocked edge of ADC sample `i` in 2^-32 ns of device time, from the galley start before it (R266). -/
def Dev.sampleTime (d : Dev) (n i : Nat) : Option Nat :=
  match (d.le n).rx.indexAt with
  | none => none
  | some _ =>
    match d.gridBefore (d.sampleMoment n i) with
    | none => none
    | some (start, T, incr) =>
      ((d.le n).rx.irefs.find? fun e => e.1 == start).map fun e => T + (i + pow2 64 - e.2) % pow2 64 * incr / 8192

/-! ### Chime lock as the receive state bears on it (R307) -/

/-- The chime lock of line engine `n` ends. -/
def Dev.chimeLost (d : Dev) (n : Nat) : Dev :=
  if d.flag Reg.LE_RX_STAT.CHIME n then
    ((d.watchElig n fun d => d.setB Reg.LE_RX_STAT.CHIME n false).setB Reg.LE_CHM_STAT.LOCK n false).raise Ev.chimeLock n n 0
  else d

/-! ### States (R115) -/

/-- MODE of the CDE: is it MANUAL? -/
def Dev.cdeManual (d : Dev) (n : Nat) : Bool := d.flag Reg.LE_CDE_CTRL.MODE n

/-- The D_set in force, in 0.01 ps/nm, and its range (R104). -/
def Dev.dSet (d : Dev) (n : Nat) : Int := (d.le n).rx.dUse
def dSetMax : Int := 8000000

/-- The candidates that remain, and CAND. (Log 47: DEDUCED) -/
def Dev.setCands (d : Dev) (n : Nat) (l : List Int) : Dev :=
  (d.modRx n fun r => { r with cands := l }).set Reg.LE_RX_STAT.CAND n l.length

/-- Alignment ends and the framer neither hunts nor holds anything of the stream (R166, R169). (Log 46: DEDUCED) -/
def Dev.dropAlignment (d : Dev) (n : Nat) : Dev :=
  let d := ((d.setB Reg.FRM_ALIGN_STAT.FA n false).setB Reg.FRM_ALIGN_STAT.GA n false).setB Reg.FRM_ALIGN_STAT.HUNT n false
  (d.set Reg.FRM_ALIGN_STAT.CAND n 0).modFrm n fun f =>
    { f with slots := [], prev := [], fasRun := 0, misRun := 0, okRun := 0, expect := none, fly := none, copy := none, differ := false }

/-- The receive state entered: what depends on the state alone. Outside FRAME and LOCKED the decoder delivers nothing and no
alignment is held; it starts anew with PHASE, and entry to FRAME starts the hunt, except in PRBS mode 2 (R115, R145, R166).
(Log 46: DEDUCED) -/
def Dev.enterRx (d : Dev) (n st : Nat) : Dev :=
  let was := d.rxState n
  let d := (d.set Reg.LE_RX_STAT.STATE n st).modRx n fun r => { r with stateAt := d.now }
  let d := if was = 9 ∧ st ≠ 9 then d.modRx n fun r => { r with snr := [] } else d
  if st = 8 then
    ((d.dropAlignment n).setB Reg.FRM_ALIGN_STAT.HUNT n (d.get Reg.LE_RX_PRBS.MODE n != 2)).modRx n fun r => { r with prbsDscs := 0 }
  else if st = 9 then d.setB Reg.FRM_ALIGN_STAT.HUNT n false
  else ((d.dropAlignment n).setB Reg.LE_FEC_STAT.RUN n false).modFec n fun x => { x with dec := StairDec.reset }

/-- IDLE or HELD: LOL and the chime lock end (R117, R307). -/
def Dev.enterRest (d : Dev) (n st : Nat) : Dev :=
  (((d.enterRx n st).setB Reg.LE_RX_STAT.LOL n false).setCands n []).chimeLost n

/-- SIGNAL (R115). -/
def Dev.enterSignal (d : Dev) (n : Nat) : Dev :=
  let d := (d.enterRx n 2).setCands n []
  (d.modRx n fun r => { r with signalAt := d.now, reacq := false }).modFrm n fun f => { f with lolHeld := false }

/-- D_set in force and N for FREQ. A MANUAL write that waits stays in the register. (Log 48: DEDUCED) -/
def Dev.takeD (d : Dev) (n : Nat) (v : Int) : Dev :=
  let reg := d.get Reg.LE_CDE_SET.D_SET n
  let d := d.setD n v
  (if d.cdeManual n then d.set Reg.LE_CDE_SET.D_SET n reg else d).recheckBounds

/-- FREQ with the candidate in front: D_set and N at once, and the admission totals that follow from it (R45, R105, R115). The
offset shown is the last of LOCKED (R116). -/
def Dev.enterFreq (d : Dev) (n : Nat) : Dev :=
  let d := match (d.le n).rx.cands with
    | v :: _ => d.takeD n v
    | [] => d
  (d.set Reg.LE_CPR_FOFS.FOFS n (d.le n).rx.fofsLock).enterRx n 4

/-- CD_SEARCH, or in MANUAL FREQ with D_set as the only candidate. `withD` says that the last D_set is the seed; else an
unused seed of the partner makes the search seeded (R109, R115). (Log 48: DEDUCED) -/
def Dev.enterSearch (d : Dev) (n : Nat) (withD : Bool) : Dev :=
  let d := d.modRx n fun r => { r with reacq := false }
  if d.cdeManual n then (d.setCands n [d.dSet n]).enterFreq n
  else
    let r := (d.le n).rx
    let own := withD && r.hasD
    let partner := !own && r.seedNew && d.flag Reg.LE_CDE_CTRL.SEED_EN n
    let d := (d.setCands n []).setB Reg.LE_RX_STAT.SEEDED n (own || partner)
    let d := d.modRx n fun r =>
      { r with searchAt := d.now, seedNew := r.seedNew && !partner, seed := if own then r.dUse else d.getS Reg.LE_CDE_SEED.SEED n }
    (d.modFrm n fun f => { f with lolHeld := false }).enterRx n 3

/-- The partner's seed arrives (R109). -/
def Dev.seedArrives (d : Dev) (n : Nat) (v : Int) : Dev :=
  let d := (d.setS Reg.LE_CDE_SEED.SEED n v).modRx n fun r => { r with seedNew := true }
  if d.rxState n = 3 && !d.flag Reg.LE_RX_STAT.SEEDED n && d.flag Reg.LE_CDE_CTRL.SEED_EN n then
    (d.setB Reg.LE_RX_STAT.SEEDED n true).modRx n fun r => { r with searchAt := d.now, seedNew := false, seed := v }
  else d

/-- LOCKED: `LE:RX_LOCKED`, the acquisition time, LOL ends, and the estimate begins anew (R106, R115, R117). -/
def Dev.enterLocked (d : Dev) (n : Nat) : Dev :=
  let t0 := (d.le n).rx.signalAt
  let d := ((d.enterRx n 9).setB Reg.LE_RX_STAT.LOL n false).set Reg.LE_CDE_EST.D_EST n 0x80000000
  let d := (d.bump Reg.LE_RX_ACQ_CNT.LOCKS n).set Reg.LE_RX_ACQ_TIME.ACQ_US n (capN 0xFFFFFF ((d.now - t0) / 1000))
  (d.modRx n fun r => { r with ests := [], reacq := false }).raise Ev.rxLocked n n 0

/-- What keeps the receive path IDLE (R115, R98). -/
def Dev.rxIdle (d : Dev) (n : Nat) : Bool :=
  !d.flag Reg.LE_RX_CTRL.EN n || d.get Reg.LE_ADC_STAT.BANK n != 2 || !d.flag Reg.LE_ADC_STAT.CAL_VALID n

/-- `LE:RX_UNCAL` once for each spell of EN = 1 with CAL_VALID = 0 (R98). -/
def Dev.sayUncal (d : Dev) (n : Nat) : Dev :=
  let c := d.flag Reg.LE_RX_CTRL.EN n && !d.flag Reg.LE_ADC_STAT.CAL_VALID n
  let said := (d.le n).rx.uncalSaid
  let d := d.modRx n fun r => { r with uncalSaid := c }
  if c && !said then d.raise Ev.rxUncal n n 0 else d

/-- The receive state after a change of EN, the ADC bank, CAL_VALID or the calibration's hold, in the precedence of R119.
(Log 152: DEDUCED) -/
def Dev.rxReconsider (d : Dev) (n : Nat) : Dev :=
  let d := d.sayUncal n
  let st := d.rxState n
  let d :=
    if (d.le n).rx.held then (if st = 1 then d else d.enterRest n 1)
    else if d.rxIdle n then (if st = 0 then d else d.enterRest n 0)
    else if st = 0 then d.enterSignal n
    else if st = 1 then (if d.flag Reg.LE_RX_STAT.LOS n then d.enterSignal n else d.enterSearch n true)
    else d
  d.defSync n

/-- The ADC bank is on: the sample index starts (R96). (Log 52: DEDUCED) -/
def Dev.adcBankOn (d : Dev) (n : Nat) : Dev :=
  (d.modRx n fun r => { r with indexAt := some d.now, gaps := [], stood := 0, irefs := [] }).rxReconsider n

/-- The ADC bank goes down: the sample index is cleared (R96). -/
def Dev.adcBankDown (d : Dev) (n : Nat) : Dev := (d.modRx n fun r => { r with indexAt := none }).rxReconsider n

/-! ### Failures (R116, R117) -/

/-- A failed pass: counted, and `LE:ACQ_FAIL` at most once per second. -/
def Dev.failedPass (d : Dev) (n : Nat) : Dev :=
  let d := d.bump Reg.LE_RX_ACQ_CNT.FAILS n
  if since (d.le n).rx.failAt d.now (sec 1) then
    (d.modRx n fun r => { r with failAt := some d.now }).raise Ev.acqFail n n 0
  else d

/-- The candidate in use is dropped: the next one, or a new search, seeded with D_set after a reacquisition. -/
def Dev.dropCandidate (d : Dev) (n : Nat) : Dev :=
  let r := (d.le n).rx
  match r.cands with
  | _ :: b :: rest => (d.setCands n (b :: rest)).enterFreq n
  | _ =>
    if d.cdeManual n then ((d.failedPass n).setCands n [d.dSet n]).enterFreq n
    else if r.reacq then d.enterSearch n true
    else (d.failedPass n).enterSearch n false

/-- The timeout in ns of the present acquisition state, and when it runs from. -/
def Dev.acqTimeout (d : Dev) (n : Nat) : Nat :=
  let r := (d.le n).rx
  match d.rxState n with
  | 3 => r.searchAt + (if d.flag Reg.LE_RX_STAT.SEEDED n then ms 4 else ms 40)
  | 4 => r.stateAt + ms 2
  | 5 => r.stateAt + ms 4
  | 6 => r.stateAt + ms 2
  | 7 => r.stateAt + ms 1
  | 8 => r.stateAt + ms 2
  | _ => d.now

/-- An acquisition state times out (R115, R116). -/
def Dev.acqExpired (d : Dev) (n : Nat) : Dev :=
  let st := d.rxState n
  if 3 ≤ st ∧ st ≤ 8 then
    let d := d.until (d.acqTimeout n)
    (if st = 3 then (d.failedPass n).enterSearch n false else d.dropCandidate n).defSync n
  else d

/-- The end of the received galley in progress, from the completion of the last one. -/
def Dev.galleyEnd (d : Dev) (n : Nat) : Nat :=
  match (d.le n).rx.lastDone with
  | some t => t + ((d.now - t) / galleyNs + 1) * galleyNs
  | none => d.now + galleyNs

/-- Lock is lost from LOCKED with a cause (R117). Where another cause arises within the same received galley, the lower code is
recorded. (Log 49: DEDUCED) -/
def Dev.loseLock (d : Dev) (n cause : Nat) : Dev :=
  if d.rxState n = 9 then
    let d := (d.setB Reg.LE_RX_STAT.LOL n true).set Reg.LE_RX_STAT.LOL_CAUSE n cause
    let d := (d.modRx n fun r => { r with lossEnd := some (d.galleyEnd n), reacq := true }).modFrm n fun f => { f with lolHeld := cause == 5 }
    let d := if cause = 6 then (d.setCands n []).enterRx n 10 else (d.setCands n [d.dSet n]).enterFreq n
    d.defSync n
  else
    match (d.le n).rx.lossEnd with
    | some t =>
      if d.flag Reg.LE_RX_STAT.LOL n && decide (d.now < t) && decide (cause < d.get Reg.LE_RX_STAT.LOL_CAUSE n) then
        d.set Reg.LE_RX_STAT.LOL_CAUSE n cause
      else d
    | none => d

/-- The partner reports beacon mode, or reports the carrier ON (R115, R119). (Log 152: DEDUCED) -/
def Dev.partnerBeacon (d : Dev) (n : Nat) (on : Bool) : Dev :=
  let st := d.rxState n
  if on then
    if st = 9 then d.loseLock n 6
    else if st = 0 || st = 1 || st = 10 || (st = 2 && d.flag Reg.LE_RX_STAT.LOS n) then d
    else ((d.setCands n []).enterRx n 10).defSync n
  else d

def Dev.partnerOn (d : Dev) (n : Nat) : Dev := if d.rxState n = 10 then (d.enterSearch n true).defSync n else d

/-! ### Conditions and milestones -/

/-- Raw LOS asserts: SIGNAL in any state above it, and the chime lock ends (R118, R119, R307). (Log 49: DEDUCED) -/
def Dev.losAssert (d : Dev) (n : Nat) : Dev :=
  let st := d.rxState n
  let d := (d.setB Reg.LE_RX_STAT.LOS n true).chimeLost n
  (if st = 0 || st = 1 || st = 2 then d else d.enterSignal n).defSync n

/-- Raw LOS is released. -/
def Dev.losRelease (d : Dev) (n : Nat) : Dev := (d.setB Reg.LE_RX_STAT.LOS n false).defSync n

/-- The RMS level has been above the threshold for 10 µs in SIGNAL (R115). (Log 152: DEDUCED) -/
def Dev.signalPresent (d : Dev) (n : Nat) : Dev :=
  if d.rxState n = 2 && !d.flag Reg.LE_RX_STAT.LOS n then (d.enterSearch n false).defSync n else d

/-- What the present search covers: seed ± WINDOW, or the whole range of D_set (R104, R109). -/
def Dev.searchCovers (d : Dev) (n : Nat) (v : Int) : Bool :=
  decide (v.natAbs ≤ dSetMax.natAbs) &&
    (!d.flag Reg.LE_RX_STAT.SEEDED n || decide ((v - (d.le n).rx.seed).natAbs ≤ 100 * d.get Reg.LE_CDE_SEARCH.WINDOW n))

/-- The search ends with one to four candidates, best first (R115). -/
def Dev.searchDone (d : Dev) (n : Nat) (found : List Int) : Dev :=
  let l := found.filter (d.searchCovers n)
  if d.rxState n = 3 ∧ 0 < l.length ∧ l.length ≤ 4 then ((d.setCands n l).enterFreq n).defSync n else d

/-- The frequency offset is estimated in FREQ, in MHz (R115, R116). -/
def Dev.freqFound (d : Dev) (n : Nat) (mhz : Int) : Dev :=
  if d.rxState n = 4 then
    if 5000 < mhz.natAbs then
      let d := d.raise Ev.fofsRange n n 0
      let d := (d.dropCandidate n).defSync n
      if d.rxState n = 4 then d else d.setS Reg.LE_CPR_FOFS.FOFS n (clampI (-32768) 32767 mhz)
    else (d.enterRx n 5).defSync n
  else d

/-- A step of acquisition from state `st` to the next (R115). -/
def Dev.rxAdvance (d : Dev) (n st : Nat) : Dev := if d.rxState n = st then (d.enterRx n (st + 1)).defSync n else d

/-- REACQ (R119). -/
def Dev.reacquire (d : Dev) (n : Nat) : Dev :=
  let st := d.rxState n
  if st = 0 || st = 1 || st = 2 || st = 10 then d else (d.enterSearch n true).defSync n

/-- The running mean of the last 64 estimates (R106). (Log 172: DESIGN CHOICE) -/
def Dev.dMean (d : Dev) (n : Nat) : Option Int :=
  let l := (d.le n).rx.ests.take 64
  if l.length < 64 then none else some ((2 * l.foldl (· + ·) 0 + 64) / 128)

/-- A galley boundary at which D_set may change: a MANUAL write, or in LOCKED under AUTO a D_est beyond HYST (R107), kept
within the range of D_set (R104). The
galley that starts carries CDE_STEP (R108); a change bears on the receive totals (R45).
(Log 45: DESIGN CHOICE, 48: DEDUCED, 158: DEDUCED) -/
def Dev.cdeStep (d : Dev) (n : Nat) : Dev :=
  let next :=
    if d.cdeManual n then (d.le n).rx.dNext
    else if d.rxState n = 9 then
      match d.dMean n with
      | some v =>
        let w := clampI (-dSetMax) dSetMax v
        if d.get Reg.LE_CDE_CTRL.HYST n * 100 < (v - d.dSet n).natAbs && w != d.dSet n then some w else none
      | none => none
    else none
  match next with
  | some v =>
    let d := (d.setD n v).modRx n fun r => { r with dNext := none, dStep := true }
    (d.raise Ev.cdeStep n n 0).recheckBounds
  | none => d

/-! ### Receive bank switch (R122) and the PRBS checker (R124) -/

/-- A receive bank switch takes effect. -/
def Dev.rxBankSwitch (d : Dev) (n : Nat) : Dev :=
  ((d.set Reg.LE_RX_BL_CTRL.ACTIVE n (1 - d.get Reg.LE_RX_BL_CTRL.ACTIVE n)).setB Reg.LE_RX_BL_CTRL.SWITCH n false).modRx n
    fun r => { r with switchAt := none }

/-- The checks of a software request to switch. -/
def Dev.rxSwitchErrs (d : Dev) (n : Nat) : List Err :=
  failIf (d.member n) .state ++ failIf (d.flag Reg.LE_RX_BL_CTRL.SWITCH n) .busy

/-- Is MISMATCH set, so that the receiver cannot pass FRAME (R132)? -/
def Dev.cannotPass (d : Dev) (n : Nat) : Bool := d.flag Reg.LE_FEC_STAT.MISMATCH n

/-- The sixteen entries of the active receive bank of line engine `n`. -/
def Dev.rxBank (d : Dev) (n : Nat) : List Nat :=
  (List.range 16).map fun i => d.tab (pageOf .rx n) (1 + d.get Reg.LE_RX_BL_CTRL.ACTIVE n) i 0

/-- The subcarriers that are not off, as a mask. -/
def Dev.activeDscs (d : Dev) (n : Nat) : Nat :=
  (List.range 16).foldl (fun m i => m + b1 (constOf ((d.rxBank n).getD i 0) != 0) * pow2 i) 0

/-- Bits come to the PRBS checker, in mode 2 those of subcarrier `dsc`: errored and checked bits are counted while it is locked, and 64
correct ones in a row lock it. In FRAME in mode 2 every active subcarrier with 64 of them is the exit to LOCKED (R124). (Log 50: DEDUCED) -/
def Dev.rxPrbs (d : Dev) (n dsc : Nat) (bits : List Bool) : Dev :=
  let mode := d.get Reg.LE_RX_PRBS.MODE n
  if mode = 0 then d
  else
    let s := (d.le n).rx.prbs.feed prbs31 bits
    let (c, units) := s.settle
    let d := ((d.addSat Reg.LE_RX_PRBS_ERR.ERR n s.errs).addSat Reg.LE_RX_PRBS_CNT.CNT n units).setB Reg.LE_RX_PRBS.LOCK n c.locked
    let d := d.modRx n fun r => { r with prbs := c, prbsDscs := if 64 ≤ s.best then setBit r.prbsDscs dsc true else r.prbsDscs }
    let all := (List.range 16).all fun i => !bitOf (d.activeDscs n) i || bitOf (d.le n).rx.prbsDscs i
    if mode = 2 && d.rxState n = 8 && all && !d.cannotPass n then (d.enterLocked n).defSync n else d

/-- The checker begins anew with a write of MODE (R125). Mode 2 has no forme or galley numbering and no decoder: alignment ends where it
is chosen in FRAME or LOCKED; where it is left in LOCKED, forme alignment is lost (R124). (Log 175: DEDUCED) -/
def Dev.prbsMode (d : Dev) (was n : Nat) : Dev :=
  let d := ((d.set Reg.LE_RX_PRBS_ERR.ERR n 0).set Reg.LE_RX_PRBS_CNT.CNT n 0).setB Reg.LE_RX_PRBS.LOCK n false
  let d := d.modRx n fun r => { r with prbs := Prbs.reset, prbsDscs := 0 }
  let mode := d.get Reg.LE_RX_PRBS.MODE n
  if mode = 2 && was != 2 && decide (8 ≤ d.rxState n) && decide (d.rxState n ≤ 9) then
    (((d.dropAlignment n).setB Reg.LE_FEC_STAT.RUN n false).modFec n fun x => { x with dec := StairDec.reset }).defSync n
  else if was = 2 && mode != 2 && d.rxState n == 8 then d.setB Reg.FRM_ALIGN_STAT.HUNT n true
  else if was = 2 && mode != 2 && d.rxState n == 9 then d.loseLock n 5
  else d

/-- `count` samples from now on are discarded on an overflow of the ADC buffer (R26). -/
def Dev.rxOverflow (d : Dev) (n count : Nat) : Dev :=
  let i := d.samplesBy n d.now
  ((d.modRx n fun r => { r with gaps := r.gaps ++ [(i, i + count)] }).bump Reg.LE_EB_ERR.RX_OVERFLOW n).raise Ev.rxOverflow n n 0

/-! ### Per-galley measurements (R97, R99, R106, R112 to R114, R121, R123, R126) -/

/-- The device time of the marker's pulse centre at the ADC sampling instant, in 2^-32 ns: t_smp of R103. -/
def Dev.markerTime (d : Dev) (n : Nat) (m : RxGalley) : Option Int :=
  (d.sampleTime n m.pInt).map fun t => (t : Int) + m.pFrac * 256 - d.rxDelay n m.centroid

/-- The moment, in ns since release, of the sample that carries the pulse centre. (Log 4: DESIGN CHOICE) -/
def Dev.markerMoment (d : Dev) (n : Nat) (m : RxGalley) : Int :=
  match (d.le n).rx.indexAt with
  | none => -1
  | some _ => (d.sampleMoment n m.pInt : Int) - d.rxDelay n m.centroid / (pow2 32 : Int)

/-- The samples of a received galley: that of the marker's pulse centre, and the one after its last (R121). -/
def Dev.galleySamples (d : Dev) (n : Nat) (m : RxGalley) : Nat × Nat :=
  let first := d.sampleCount n m.pInt - (d.rxDelay n m.centroid * 256 / (pow2 32 : Int)).toNat
  (first, first + 5242880)

/-- Have samples from `first` to before `stop` been discarded (R26)? -/
def Dev.gapWithin (d : Dev) (n first stop : Nat) : Bool :=
  (d.le n).rx.gaps.any fun e => decide (e.1 < stop) && decide (first < e.2)

/-- Were samples of the galley discarded (R121)? -/
def Dev.galleyGap (d : Dev) (n : Nat) (m : RxGalley) : Bool :=
  d.gapWithin n (d.galleySamples n m).1 (d.galleySamples n m).2

/-- Was the state LOCKED, without a break, from the marker's pulse centre to the galley's end (R121)? (Log 51: DEDUCED) -/
def Dev.lockedThrough (d : Dev) (n : Nat) (m : RxGalley) : Bool :=
  d.rxState n == 9 && decide (((d.le n).rx.stateAt : Int) ≤ d.markerMoment n m)

/-- The marker's VALID flag (R121). (Log 51: DEDUCED) -/
def Dev.markerValid (d : Dev) (n : Nat) (m : RxGalley) : Bool :=
  d.lockedThrough n m && !(d.le n).rx.dStep && !d.galleyGap n m && d.get Reg.LE_RX_PRBS.MODE n != 2

/-- Level figures of the galley, with `LE:ADC_CLIP` and, in LOCKED, the interleave image with `LE:ADC_SPUR`. -/
def Dev.adcFigures (d : Dev) (n : Nat) (m : RxGalley) : Dev :=
  let at4 (l : List Nat) (k : Nat) : Nat := l.getD k 0
  let c (k : Nat) : Nat := capN 0xFFFF (at4 m.clips k)
  let d := (((d.set Reg.LE_ADC_RMS.XI n (at4 m.rms 0)).set Reg.LE_ADC_RMS.XQ n (at4 m.rms 1)).set
    Reg.LE_ADC_RMS.YI n (at4 m.rms 2)).set Reg.LE_ADC_RMS.YQ n (at4 m.rms 3)
  let d := (((d.set Reg.LE_ADC_CLIP_X.XI n (c 0)).set Reg.LE_ADC_CLIP_X.XQ n (c 1)).set
    Reg.LE_ADC_CLIP_Y.YI n (c 2)).set Reg.LE_ADC_CLIP_Y.YQ n (c 3)
  let d :=
    if (List.range 4).any fun k => decide (d.get Reg.LE_ADC_CTRL.CLIP_THRESH n < at4 m.clips k) then
      d.raise Ev.adcClip n n 0
    else d
  if d.rxState n = 9 then
    let d := (((d.set Reg.LE_ADC_SPUR.XI n (at4 m.spur 0)).set Reg.LE_ADC_SPUR.XQ n (at4 m.spur 1)).set
      Reg.LE_ADC_SPUR.YI n (at4 m.spur 2)).set Reg.LE_ADC_SPUR.YQ n (at4 m.spur 3)
    if (List.range 4).any fun k => decide (at4 m.spur k < d.get Reg.LE_ADC_SPUR_THRESH.THRESH n) then
      d.raise Ev.adcSpur n n 0
    else d
  else d

/-- What LOCKED alone updates: the dispersion mean and the SNR table, over received galleys alone (`real`), and the recovery
loops' figures. -/
def Dev.loopFigures (d : Dev) (n : Nat) (real : Bool) (m : RxGalley) : Dev :=
  if d.rxState n = 9 then
    let d := if real then d.modRx n fun r => { r with ests := (m.dEst :: r.ests).take 64, snr := (m.snr :: r.snr).take 16 } else d
    let d := match d.dMean n with | some v => d.setS Reg.LE_CDE_EST.D_EST n v | none => d
    let d := ((d.setS Reg.LE_MEQ_CENTROID.C n m.centroid).set Reg.LE_MEQ_PMD.PDL n m.pdl).set Reg.LE_MEQ_PMD.DGD n m.dgd
    let d := (d.setS Reg.LE_CPR_FOFS.FOFS n m.fofs).addSat Reg.LE_CPR_SLIPS.SLIPS n m.slips
    let d := (d.set Reg.LE_TRL_PHASE.PHASE n m.phase).setS Reg.LE_TRL_FOFS.PPB n m.ppb
    d.modRx n fun r => { r with fofsLock := unsgn 16 m.fofs }
  else d

/-- The marker record (R126). -/
def Dev.markerRecord (d : Dev) (n gnum : Nat) (m : RxGalley) : Dev :=
  let locked := d.lockedThrough n m
  let valid := d.markerValid n m
  let gap := d.galleyGap n m
  let r := (d.le n).rx
  let d := (d.set64 Reg.LE_RX_MARK_IDX_LO.IDX_LO Reg.LE_RX_MARK_IDX_HI.IDX_HI n m.pInt)
  let d := (d.set Reg.LE_RX_MARK_FRAC.GALLEY n gnum).set Reg.LE_RX_MARK_FRAC.FRAC n m.pFrac
  let d := (d.setS Reg.LE_RX_MARK_FLAGS.CENTROID n m.centroid).setB Reg.LE_RX_MARK_FLAGS.LOCKED n locked
  ((d.setB Reg.LE_RX_MARK_FLAGS.GAP n gap).setB Reg.LE_RX_MARK_FLAGS.CDE_STEP n r.dStep).setB
    Reg.LE_RX_MARK_FLAGS.VALID n valid

/-- The next galley of the receive path begins, received or standing in for one: a new step code takes effect (R111, R518).
(Log 158: DEDUCED) -/
def Dev.rxGalleyNext (d : Dev) (n : Nat) : Dev :=
  let code := d.get Reg.LE_MEQ_CTRL.STEP n
  d.modRx n fun r => { r with dStep := false, stepEff := code }

/-- The end of a received galley: gaps before it are over, and its time is kept (R117, R121). -/
def Dev.galleyOver (d : Dev) (n : Nat) (m : RxGalley) : Dev :=
  let stop := (d.galleySamples n m).2
  d.modRx n fun r => { r with gaps := r.gaps.filter fun e => decide (stop < e.2), lastDone := some d.now }

/-- The end of the interval that stands in for a received galley: the next multiple of 5,242,880 samples from index 0 (R518). -/
def Dev.standIn (d : Dev) (n : Nat) : Dev :=
  match (d.le n).rx.indexAt with
  | none => d
  | some t0 =>
    let k := max ((d.le n).rx.stood + 1) ((d.now - t0) / galleyNs)
    (d.until (t0 + k * galleyNs)).modRx n fun r => { r with stood := k, lastDone := none }

/-- The SNR of table 0x10: the average over the last 16 galleys, 0 outside LOCKED and for inactive subcarriers (R123).
(Log 172: DESIGN CHOICE) -/
def Dev.snrEntry (d : Dev) (n i : Nat) : Nat :=
  let l := (d.le n).rx.snr
  let bank := 1 + d.get Reg.LE_RX_BL_CTRL.ACTIVE n
  if d.rxState n ≠ 9 ∨ l.isEmpty ∨ constOf (d.tab (pageOf .rx n) bank (i / 2) 0) = 0 then 0
  else trunc 16 (l.foldl (fun a g => a + g.getD i 0) 0 / l.length)

end Sys2Proof.Machine
end

