-- ==== Sys2Proof/Machine/Fec.lean ====
section
/-! DEFINITION. Forward error correction: modes, the counts of a forme and a galley, Q and margin (R130 to R154). -/

namespace Sys2Proof.Machine

/-! ### Modes (R131 to R133) -/

/-- QTHR of a code (R133). -/
def qthrOf (code : Nat) : Nat := if code = 0 then 608 else if code = 1 then 549 else 701

/-- The checks of a write to LE_FEC_CFG (R131). -/
def Dev.fecCfgErrs (d : Dev) (n rate code : Nat) : List Err :=
  failIf (code == 3) .reserved ++
  failIf (code != 3 && (rate == 3) != (code == 2)) .inconsistent ++
  failIf (!(d.txState n == 0 || d.txState n == 8) || d.rxState n != 0) .state

/-- An accepted mode takes effect: the mode's bits, threshold and sorts (R131). The bound of the decode stage follows, for
every admitted flow (R45). -/
def Dev.fecCfg (d : Dev) (n rate code : Nat) : Dev :=
  let d := (d.set Reg.LE_FEC_CFG.RATE n rate).set Reg.LE_FEC_CFG.CODE n code
  ((d.set Reg.LE_TX_REQ_BITS.REQ_BITS n (reqBitsOf rate code)).set Reg.LE_FEC_QTHR.QTHR n (qthrOf code)).recheckBounds

/-- The mode byte of line engine `n` as a HELLO gives it (R312): RATE in bits 5 and 4, CODE in bits 1 and 0. -/
def Dev.modeByte (d : Dev) (n : Nat) : Nat := d.get Reg.LE_FEC_CFG.RATE n * 16 + d.get Reg.LE_FEC_CFG.CODE n

/-- The partner's mode for line engine `n` is compared with the own one (R132). -/
def Dev.fecCompare (d : Dev) (n byte : Nat) : Dev :=
  let differs := bitsOf byte 4 2 * 16 + bitsOf byte 0 2 != d.modeByte n
  let was := d.flag Reg.LE_FEC_STAT.MISMATCH n
  let d := d.setB Reg.LE_FEC_STAT.MISMATCH n differs
  if differs && !was then d.raise Ev.fecMismatch n n byte else d

/-! ### A decoded forme -/

/-- A decoded forme as it reaches the framer (R138, R143, R147): its framed bytes; by LDPC codeword the iterations used, 17
where uncorrected, or by staircase block 1 where uncorrected, else 0; the corrected positions among those counted, and the positions
corrected by the Viterbi decoder; the sample of its first symbol, counted from the start of the index, and the bank that it was
mapped with; and whether it was decoded with its predecessor block (R145). -/
structure Decoded where
  bytes : List Nat
  units : List Nat
  corr : Nat
  inner : Nat
  first : Nat
  bank : List Nat
  joined : Bool
deriving DecidableEq, Repr

/-! ### Spans of framed bits (R136, R139, R141, R143) -/

/-- The sorts and the bytes of a carrier's forme (R155). -/
def Dev.sortsOf (d : Dev) (n : Nat) : Nat := sortsOfRate (d.get Reg.LE_FEC_CFG.RATE n)
def Dev.formeLen (d : Dev) (n : Nat) : Nat := 4096 + 2000 * d.sortsOf n

/-- The framed bits that a decoding unit covers: an LDPC codeword's information bits, or a staircase block's. -/
def unitBits (code : Nat) : Nat := if code = 2 then 528 * 494 else ldpcK code

/-- The units of a forme. (Log 53: DEDUCED) -/
def Dev.unitsOf (d : Dev) (n : Nat) : Nat := if d.trellis n then 8 else d.reqBits n / 12288

/-- Is unit `u` uncorrected, by its figure in `Decoded.units`? -/
def Dev.unitBad (d : Dev) (n v : Nat) : Bool := if d.trellis n then v != 0 else decide (17 ≤ v)

/-- The uncorrected units of a decoded forme. -/
def Dev.badUnits (d : Dev) (n : Nat) (m : Decoded) : List Nat :=
  (List.range (d.unitsOf n)).filter fun u => d.unitBad n (m.units.getD u 0)

/-- The byte ranges (first, last) that the uncorrected units spoil. -/
def Dev.badSpans (d : Dev) (n : Nat) (m : Decoded) : List (Nat × Nat) :=
  let k := unitBits (d.get Reg.LE_FEC_CFG.CODE n)
  (d.badUnits n m).map fun u => (u * k / 8, ((u + 1) * k - 1) / 8)

/-- Does carrier sort `k` of `S` have a byte within one of the spans (R139)? (Log 59: DEDUCED) -/
def sortSpoilt (S k : Nat) (spans : List (Nat × Nat)) : Bool :=
  spans.any fun (a, b) => (List.range 125).any fun row =>
    let lo := 4096 + (row * S + k) * 16
    decide (lo ≤ b ∧ a ≤ lo + 15)

/-! ### Counts (R147, R144) -/

/-- The coded positions counted of a forme (R147). -/
def Dev.countedBits (d : Dev) (n : Nat) (bad : List Nat) : Nat :=
  let units := d.unitsOf n
  if d.trellis n then (if bad.isEmpty then 2372076 - 68 - 2344 - 5888 else 0)
  else
    let fill := units * unitBits (d.get Reg.LE_FEC_CFG.CODE n) - 8 * d.formeLen n
    (units - bad.length) * 12288 - (if bad.contains (units - 1) then 0 else fill)

/-- A decoded forme's counts join those of the galley in progress. An uncorrected codeword has used every iteration allowed.
(Log 53: DEDUCED) -/
def Dev.fecForme (d : Dev) (n : Nat) (m : Decoded) : Dev :=
  let bad := d.badUnits n m
  let units := d.unitsOf n
  let tre := d.trellis n
  let skip := tre && !bad.isEmpty
  let most := d.get Reg.LE_FEC_STAT.ITER_NOW n
  let iters := if tre then [] else (List.range units).map fun u => min 17 (m.units.getD u 0)
  d.modFec n fun f =>
    { f with
      bits := f.bits + d.countedBits n bad
      corr := f.corr + (if skip then 0 else m.corr)
      inner := f.inner + (if tre && !skip then m.inner else 0)
      cw := f.cw + units
      unc := f.unc + bad.length
      peak := (iters.map fun i => if i = 17 then most else i).foldl max f.peak
      hist := iters.foldl (fun h i => Store.set (fun _ => 0) h (i - 1) (Store.get (fun _ => 0) h (i - 1) + 1)) f.hist }

/-! ### Q (R148) -/

/-- 1 / √(2π) in 2^-256, rounded down. -/
def gauss256 : Nat := 0x662114cf50d942343f2cf1402eae38bfd3829f30512706d8c0471b4802639d2e

/-- The alternating series of the normal integral from 0 to x: term `n` is `t / (2 n + 1)`. -/
def gaussSeries (x2 : Nat) : Nat → Nat → Nat → Int
  | 0, _, _ => 0
  | fuel + 1, n, t => (t / (2 * n + 1) : Nat) - gaussSeries x2 fuel (n + 1) (t * x2 / one256 / (2 * (n + 1)))

/-- The tail of the normal distribution beyond `x`, in 2^-256 units: erfc(x / √2) / 2. (Log 54: DESIGN CHOICE) -/
def gaussTail (x : Nat) : Int :=
  (one256 / 2 : Nat) - gaussSeries (x * x / one256) 300 0 x * gauss256 / one256

/-- The greatest `k` from `lo` on, within a span of 2^fuel, whose lower edge the error ratio `num / den` still meets.
(Log 54: DESIGN CHOICE) -/
def qSearch (num den : Nat) : Nat → Int → Int
  | 0, lo => lo
  | fuel + 1, lo =>
    let mid := lo + (2 ^ fuel : Nat)
    if (num * one256 : Nat) ≤ gaussTail (ampBelow mid) * den then qSearch num den fuel mid else qSearch num den fuel lo

/-- Q in 0.01 dB of `corr` corrected positions among `bits`, to the nearest hundredth (R148). (Log 54: DESIGN CHOICE) -/
def qOf (corr bits : Nat) : Int := qSearch corr bits 15 (-31000)

/-- The window of the last 4,096 counted galleys and what the margin registers show. At or above one half no Q exists, and
both registers take a free value. (Log 54: DESIGN CHOICE) -/
def Dev.showQ (d : Dev) (n : Nat) : Dev :=
  let w := (d.le n).fec.window
  let bits := w.foldl (fun a e => a + e.1) 0
  let corr := w.foldl (fun a e => a + e.2) 0
  let put (q m : Nat) (d : Dev) : Dev := (d.set Reg.LE_FEC_Q.Q n q).set Reg.LE_FEC_Q.MARGIN n m
  if bits = 0 then put 0x8000 0x8000 d
  else if corr = 0 then put 0x7FFF 0x7FFF d
  else
    let q := if 2 * corr < bits then unsgn 16 (qOf corr bits) else trunc 16 d.fresh
    let d := if 2 * corr < bits then d else d.drawn
    put q (unsgn 16 (sgn 16 q - d.get Reg.LE_FEC_QTHR.QTHR n)) d

/-- DEG follows the margin (R150). -/
def Dev.checkDeg (d : Dev) (n : Nat) : Dev :=
  let raw := d.get Reg.LE_FEC_Q.MARGIN n
  let m := sgn 16 raw
  let thr : Int := d.get Reg.LE_FEC_DEG.MARGIN n
  let hyst : Int := d.get Reg.LE_FEC_DEG.HYST n
  if raw = 0x8000 ∨ raw = 0x7FFF then d
  else if d.flag Reg.LE_FEC_STAT.DEG n then
    (if thr + hyst ≤ m then (d.setB Reg.LE_FEC_STAT.DEG n false).raise Ev.fecDeg n n 0 else d)
  else if m < thr then (d.setB Reg.LE_FEC_STAT.DEG n true).raise Ev.fecDeg n n 1
  else d

/-! ### The galley boundary (R147, R149, R152) -/

/-- A 64-bit counter advanced. -/
def Dev.add64 (d : Dev) (lo hi : Fld) (n v : Nat) : Dev := d.set64 lo hi n (d.get64 lo hi n + v)

/-- The counters and the histogram cleared. -/
def Dev.fecZero (d : Dev) (n : Nat) : Dev :=
  let d := (d.set64 Reg.LE_FEC_BITS_LO.BITS Reg.LE_FEC_BITS_HI.BITS n 0).set64 Reg.LE_FEC_CORR_LO.CORR Reg.LE_FEC_CORR_HI.CORR n 0
  let d := (d.set64 Reg.LE_FEC_INNER_LO.INNER Reg.LE_FEC_INNER_HI.INNER n 0).set64 Reg.LE_FEC_CW_LO.CW Reg.LE_FEC_CW_HI.CW n 0
  let d := (d.set64 Reg.LE_FEC_UNC_LO.UNC Reg.LE_FEC_UNC_HI.UNC n 0).set Reg.LE_FEC_UGAL.UGAL n 0
  { d with tabs := Store.clear d.tabs fun k => decide (tabKey (pageOf .fec n) 0x10 0 0 ≤ k ∧ k < tabKey (pageOf .fec n) 0x11 0 0) }

/-- The counts of a galley enter the counters when it is counted: LOCKED throughout, and PRBS mode 2 not selected. -/
def Dev.fecCount (d : Dev) (n : Nat) : Dev :=
  let f := (d.le n).fec
  let d := (d.add64 Reg.LE_FEC_BITS_LO.BITS Reg.LE_FEC_BITS_HI.BITS n f.bits).add64 Reg.LE_FEC_CORR_LO.CORR Reg.LE_FEC_CORR_HI.CORR n f.corr
  let d := (d.add64 Reg.LE_FEC_INNER_LO.INNER Reg.LE_FEC_INNER_HI.INNER n f.inner).add64 Reg.LE_FEC_CW_LO.CW Reg.LE_FEC_CW_HI.CW n f.cw
  let d := (d.add64 Reg.LE_FEC_UNC_LO.UNC Reg.LE_FEC_UNC_HI.UNC n f.unc).addSat Reg.LE_FEC_UGAL.UGAL n (b1 (f.unc != 0))
  let d := d.over (f.hist.map (·.1)) fun i d =>
    d.setTab (pageOf .fec n) 0x10 i 0 (capN 0xFFFFFFFF (d.tab (pageOf .fec n) 0x10 i 0 + Store.get (fun _ => 0) f.hist i))
  let fecx := decide (d.get Reg.LE_FEC_FECX.UNC_THRESH n ≤ f.unc)
  let d := (d.set Reg.LE_FEC_STAT.ITER_PEAK n f.peak).setB Reg.LE_FEC_STAT.FECX n fecx
  let d := d.modFrm n fun x => { x with rawFecx := fecx }
  let d := d.modFec n fun x => { x with window := ((f.bits, f.corr) :: x.window).take 4096 }
  (d.showQ n).checkDeg n

/-- A received galley ends for the decoder: the counts of the galley are taken or dropped, and a waiting clear is done. UNC does not grow
in a galley that is not counted, so it has no raw FECX (R149). -/
def Dev.fecGalley (d : Dev) (n : Nat) (counted : Bool) : Dev :=
  let d := if counted then d.fecCount n else d.modFrm n fun x => { x with rawFecx := false }
  let d := d.modFec n fun x => { x with bits := 0, corr := 0, inner := 0, cw := 0, unc := 0, peak := 0, hist := [] }
  if (d.le n).fec.clearPend then (d.fecZero n).modFec n fun x => { x with clearPend := false } else d

/-- The committed ITER_MAX takes effect at a galley boundary; the totals of R45 follow (R152). -/
def Dev.fecIter (d : Dev) (n : Nat) : Dev :=
  (d.set Reg.LE_FEC_STAT.ITER_NOW n (d.get Reg.LE_FEC_ITER.ITER_MAX n)).recheckBounds

end Sys2Proof.Machine
end

