-- ==== Sys2Proof/Machine/Carillon.lean ====
section
/-! DEFINITION. The key store Carillon and the cipher engine CYP: slots, commands, alarms, counters, tags and key signalling
(R324 to R364). -/

namespace Sys2Proof.Machine

/-! ### Slots (R339 to R341) -/

/-- The transmit and receive slots of flow `f` and bank `b`. -/
def txSlot (f b : Nat) : Nat := 4 * f + b
def rxSlot (f b : Nat) : Nat := 4 * f + 2 + b

/-- Is slot `s` a transmit slot? -/
def isTxSlot (s : Nat) : Bool := s / 2 % 2 == 0

/-- Is the slot in use: ARMED, ACTIVE or DRAINING? -/
def KeySlot.inUse (x : KeySlot) : Bool := x.state == 3 || x.state == 4 || x.state == 5

/-- A slot emptied: key and salt overwritten with zeros. -/
def Dev.emptySlot (d : Dev) (s : Nat) : Dev :=
  (d.setSlot s KeySlot.reset).modVault fun v =>
    { v with rdyNew := v.rdyNew.filter (· != s), erasing := v.erasing.filter (· != s) }

/-- A slot in a new state. -/
def Dev.slotTo (d : Dev) (s st : Nat) : Dev := d.setSlot s { d.slot s with state := st }

/-- Key and salt loaded into a slot, which is READY; a receive slot awaits its RDY (R351). -/
def Dev.loadSlot (d : Dev) (s : Nat) (generated : Bool) (key : List Nat) (salt : Nat) : Dev :=
  let d := d.setSlot s ⟨2, generated, key, salt, kcvOf key, 0⟩
  if isTxSlot s then d else d.modVault fun v => { v with rdyNew := s :: v.rdyNew.filter (· != s) }

/-- The slot of a flow direction that is ACTIVE, if any. -/
def Dev.activeTx (d : Dev) (f : Nat) : Option Nat := [txSlot f 0, txSlot f 1].find? fun s => (d.slot s).state == 4
def Dev.activeRx (d : Dev) (f : Nat) : Option Nat := [rxSlot f 0, rxSlot f 1].find? fun s => (d.slot s).state == 4

/-- Slots in a state (R361). -/
def Dev.countSlots (d : Dev) (st : Nat) : Nat := (d.vault.slots.filter fun e => e.2.state == st).length

/-! ### Policy and transmit state (R336, R337, R364) -/

/-- The policies of flow `f` (R364). -/
def Dev.policyTx (d : Dev) (f : Nat) : Bool := bitOf (d.tab 0x51 0x01 f 0) 31
def Dev.policyRx (d : Dev) (f : Nat) : Bool := bitOf (d.tab 0x51 0x01 f 0) 30

/-- Is the part fused without the cipher (R2)? -/
def Dev.noCipher (d : Dev) : Bool := !d.flag Reg.CHIP_FEATURE.CIPHER 0

/-- Has the partner's last HELLO reported CIPHER = 0? -/
def Dev.peerPlain (d : Dev) : Bool := d.vault.peerSeen && !d.flag Reg.CAR_PEER.PEER_CIPHER 0

/-- TX_STATE: 0 plaintext, 1 keyed, 2 blank UNKEYED, 3 blank ERASED, 4 blank EXHAUSTED. -/
def Dev.txCipher (d : Dev) (f : Nat) : Nat :=
  if !d.policyTx f then 0
  else if (d.cyp f).exhausted then 4
  else if (d.activeTx f).isSome && !d.peerPlain then 1
  else if (d.cyp f).erased then 3 else 2

/-- The checks of a write to CYP_FLOW DATA0 (R335, R336). (Log 105: DEDUCED) -/
def Dev.cypErrs (d : Dev) (f w : Nat) : List Err :=
  let pol := bitOf w 31 || bitOf w 30
  failIf (d.flowEn f) .state ++ failIf (pol && d.noCipher) .locked ++ failIf (pol && d.peerPlain) .inconsistent

/-! ### Commands (R342 to R345) -/

/-- The checks of a write to CAR_CMD (R343). -/
def Dev.carErrs (d : Dev) (op arg : Nat) : List Err :=
  let x := d.slot arg
  let flow := arg / 4
  let armed := if op = 5 then (List.range 4).any fun k => (d.slot (4 * flow + k)).state == 3 else x.state == 3
  failIf (op == 0 || decide (8 < op)) .reserved ++
  failIf (d.flag Reg.CAR_CMD_STAT.BUSY 0) .busy ++
  failIf (decide (1 ≤ op ∧ op ≤ 5) && (d.noCipher || d.flag Reg.CAR_ALARM.LOCK 0)) .locked ++
  failIf ((op == 2 || op == 3) && !isTxSlot arg) .inconsistent ++
  failIf ((op == 4 || op == 5) && armed) .busy ++
  failIf (op == 3 && (x.state != 2 || !d.policyTx flow)) .state ++
  failIf (op == 2 && x.inUse) .busy

/-- A command starts (R343). -/
def Dev.carStart (d : Dev) (op arg : Nat) : Dev :=
  ((d.setB Reg.CAR_CMD_STAT.BUSY 0 true).set Reg.CAR_CMD_STAT.OP 0 op).modVault fun v => { v with op := op, arg := arg }

/-- A command ends: its result and detail, and `CAR:CMD_DONE`. -/
def Dev.carEnd (d : Dev) (result detail : Nat) : Dev :=
  let d := (d.setB Reg.CAR_CMD_STAT.BUSY 0 false).modVault fun v => { v with op := 0 }
  ((d.set Reg.CAR_CMD_STAT.RESULT 0 result).set Reg.CAR_CMD_STAT.DETAIL 0 detail).raise (Ev.carEvent 1) 0 0 (result + detail * 256)

/-- The running command's OP; 0 where none runs. -/
def Dev.carOp (d : Dev) : Nat := if d.flag Reg.CAR_CMD_STAT.BUSY 0 then d.vault.op else 0

/-- A nonce drawn from the part's generator. (Log 7: DESIGN CHOICE) -/
def Dev.drawNonce (d : Dev) : Dev := (d.modVault fun v => { v with nonceDraw := d.free }).drawn

/-- The import nonce. -/
def Dev.nonce (d : Dev) : Nat := trunc 64 (Config.freeValue d.vault.nonceDraw)

/-- Is the identity key usable, or has its derivation failed (R372)? -/
def Dev.idReady (d : Dev) : Bool := d.flag Reg.CAR_ID_STAT.READY 0
def Dev.idFault (d : Dev) : Bool := d.flag Reg.CAR_ID_STAT.FAULT 0

/-- The bytes of the staging table (R362). -/
def Dev.staged (d : Dev) : List Nat := (List.range 64).flatMap fun i => d.tabBytes 0x50 0x01 i 32

/-- The staging table overwritten with zeros. -/
def Dev.clearStaging (d : Dev) : Dev :=
  { d with tabs := Store.clear d.tabs fun k => decide (tabKey 0x50 0x01 0 0 ≤ k ∧ k < tabKey 0x50 0x02 0 0) }

/-- The slot that a key record names. -/
def recordSlot (r : List Nat) : Nat := ofBytesBE (slice r 2 2) % 4096

/-- The plaintext of a record's WRAPPED field, key and salt, under the identity key. -/
def Dev.unwrap (d : Dev) (r : List Nat) : Option (List Nat) :=
  if d.idReady then
    match oaepOpen d.identityKey.1 d.identityKey.2 (r.take 48) (slice r 48 384) with
    | some p => if p.length = 36 then some p else none
    | none => none
  else none

/-- The DETAIL of an import's checks, in the order of their codes; 0 where all pass (R344, R346). Without an anchor no
signature can be judged, and the import ends by code 7. (Log 98: DEDUCED) -/
def Dev.importDetail (d : Dev) : Nat :=
  let r := d.staged
  if r.getD 0 0 ≠ 1 ∨ r.getD 1 0 ≠ 1 then 1
  else if slice r 12 32 ≠ d.ownIdent then 2
  else if ofBytesBE (slice r 4 8) ≠ d.nonce then 3
  else if (match d.anchorNow with | some n => !pssVerify n (r.take 432) (slice r 432 384) | none => false) then 4
  else if (d.unwrap r).isNone then 5
  else if (d.slot (recordSlot r)).inUse then 6
  else if d.anchorNow.isNone then 7
  else 0

/-- The RESULT of an import's DETAIL (R344). -/
def importResult (detail : Nat) : Nat :=
  if detail = 0 then 0
  else (if detail = 1 then Err.range else if detail = 2 then .inconsistent else if detail ≤ 5 then .auth
        else if detail = 6 then .busy else .state).code

/-- IMPORT begins: a record that passes every check puts its slot into LOADING. -/
def Dev.importStart (d : Dev) : Dev :=
  let d := d.carStart 1 (recordSlot d.staged)
  if d.idReady && d.importDetail = 0 then d.slotTo (recordSlot d.staged) 1 else d

/-- The Carillon write freeze of a supply dip (R345, R493). (Log 103: DEDUCED) -/
def Dev.keyFreeze (d : Dev) : Bool := d.frozenSupply

/-- IMPORT ends: while the identity key is not derived, or under the write freeze, the command waits (R345, R373). (Log 103: DEDUCED) -/
def Dev.importEnd (d : Dev) : Dev :=
  if d.carOp ≠ 1 || d.keyFreeze || (!d.idReady && !d.idFault) then d
  else
    let r := d.staged
    let detail := d.importDetail
    let d := if detail = 0 then
        match d.unwrap r with
        | some p => d.loadSlot (recordSlot r) false (p.take 32) (ofBytesBE (p.drop 32))
        | none => d
      else d
    (d.clearStaging.drawNonce).carEnd (importResult detail) detail

/-- GENERATE begins (R347). -/
def Dev.generateStart (d : Dev) (s : Nat) : Dev :=
  let d := d.carStart 2 s
  if !d.flag Reg.CAR_PEER.PAIRED 0 then d.carEnd Err.state.code 8
  else if d.peerPlain then d.carEnd Err.inconsistent.code 12
  else d.slotTo s 1

/-- ARM (R352): an RDY of the same bank and KCV within the last second, or DETAIL 13. (Log 100: DEDUCED) -/
def Dev.armStart (d : Dev) (s : Nat) : Dev :=
  let d := d.carStart 3 s
  let ok := match (d.cyp (s / 4)).rdy with
    | some (bank, kcv, t) => decide (bank = s % 2 ∧ kcv = (d.slot s).kcv ∧ d.now ≤ t + sec 1)
    | none => false
  if ok then (d.slotTo s 3).modVault fun v => { v with sw := some (s / 4, s % 2, (d.slot s).kcv, 3) }
  else d.carEnd Err.state.code 13

/-- ERASE of slots (R355): those that are not in use at once, the others at the next forme boundary. -/
def Dev.eraseStart (d : Dev) (op arg : Nat) (slots : List Nat) : Dev :=
  let d := d.carStart op arg
  let used := slots.filter fun s => (d.slot s).inUse
  let d := d.over (slots.filter fun s => !used.contains s) fun s d => d.emptySlot s
  if used.isEmpty then d.carEnd 0 0 else d.modVault fun v => { v with erasing := used }

/-! ### Galley tags on transmit (R326, R327, R332) -/

/-- The AAD of a sort-forme, and of a galley tag. -/
def aadForme (g f i r : Nat) : List Nat := bytesBE 4 g ++ bytesBE 2 f ++ [i % 256, r % 256]
def aadGalley (g f n : Nat) (tags : List (List Nat)) : List Nat := bytesBE 4 g ++ bytesBE 2 f ++ [n % 256, 0] ++ tags.flatten

/-- The IV of a slot and a counter value (R325). -/
def ivOf (salt v : Nat) : Nat := salt * pow2 64 + v

/-- The places of a tag of a flow with these sorts, in order of carriers: on each the slot of the lowest carrier sort, as
carrier × 128 + slot (R332). -/
def tagPlacesOf (sorts : List Nat) : List Nat :=
  allLe.filterMap fun n => (sorts.filter fun s => s / 128 == n).foldl (fun a s => match a with | some t => some (min t s) | none => some s) none

/-- The tag of galley `g` of flow `f` over the sort-forme tags made, in ascending order of v, put into the slots of the
next forme 0 (R327, R332, R355). -/
def Dev.makeTag (d : Dev) (f s g : Nat) : Dev :=
  let x := d.cyp f
  if x.txTags.isEmpty then d
  else
    let k := d.slot s
    let n := x.txSorts.length
    let tag := gcmTag (roundKeys k.key) (ivOf k.salt (x.txCtr + 16 * n)) (aadGalley g f n (x.txTags.map (·.2))) []
    (d.modVault fun v =>
      { v with tagsOut := (tagPlacesOf x.txSorts).foldl (fun t p => Store.set (fun _ => []) t p tag) v.tagsOut }).modCyp f
        fun x => { x with txTags := [] }

/-- The ceiling (R329). -/
def Dev.ceiling (d : Dev) : Nat := pow2 (d.get Reg.CAR_CEIL.CEIL_EXP 0)

/-- Is a switch of flow `f`'s transmit direction due at galley `g` (R352)? -/
def Dev.switchDue (d : Dev) (f g : Nat) : Bool :=
  [txSlot f 0, txSlot f 1].any fun s => (d.slot s).state == 3 && (d.slot s).switchAt == g

/-- The end of a flow's transmit galley `g`: its tag, and the counter's advance (R326). -/
def Dev.txGalleyEnd (d : Dev) (f g : Nat) : Dev :=
  let x := d.cyp f
  let ran := !x.txTags.isEmpty
  let d := match d.activeTx f with | some s => d.makeTag f s g | none => d
  d.modCyp f fun x => { x with txTags := [], txCtr := if ran then x.txCtr + 16 * x.txSorts.length + 1 else x.txCtr }

/-- The start of a flow's transmit galley `g`: its sorts in it, exhaustion and the warning (R325, R329, R330). A switch at
`g` overrides exhaustion (R354). -/
def Dev.txGalleyBegin (d : Dev) (f g : Nat) : Dev :=
  let d := d.modCyp f fun x => { x with txSorts := d.fmx.tx.sortsOf f }
  let x := d.cyp f
  let n := x.txSorts.length
  if n = 0 || d.txCipher f != 1 || d.switchDue f g then d
  else
    let d :=
      if decide (7 * d.ceiling ≤ 8 * x.txCtr) && !x.warn then (d.modCyp f fun x => { x with warn := true }).raise Ev.ctrWarn 0 0 f
      else d
    if d.ceiling ≤ x.txCtr + 16 * n then (d.modCyp f fun x => { x with exhausted := true }).raise Ev.exhausted 0 0 f
    else d

/-- The flows with a transmit policy. -/
def Dev.txPolicyFlows (d : Dev) : List Nat := allFlows.filter d.policyTx

/-- A transmit galley starts for CYP: the tags of the galley before, then the counters of this one. -/
def Dev.cypGalley (d : Dev) (prev g : Nat) : Dev :=
  let l := d.txPolicyFlows
  let d := d.over l fun f d => d.txGalleyEnd f prev
  d.over l fun f d => d.txGalleyBegin f g

/-- One sort-forme on transmit (R324): ciphertext in place of the payload, its tag kept. A blank or plaintext flow keeps
its payload. -/
def Dev.sealForme (d : Dev) (f g i r : Nat) (payload : List Nat) : List Nat × Dev :=
  match d.txCipher f, d.activeTx f with
  | 1, some s =>
    let k := d.slot s
    let v := (d.cyp f).txCtr + 16 * i + r
    let (ct, tag) := gcmSeal k.key (ivOf k.salt v) (aadForme g f i r) payload
    (ct, d.modCyp f fun x => { x with txTags := Store.set (fun _ => []) x.txTags (16 * i + r) tag })
  | _, _ => (payload, d)

/-! ### Switches on transmit, and erasing (R352, R355) -/

/-- The transmit switch of flow `f` at its switch galley. -/
def Dev.txSwitch (d : Dev) (f g : Nat) : Dev :=
  match [txSlot f 0, txSlot f 1].find? fun s => (d.slot s).state == 3 && (d.slot s).switchAt == g with
  | none => d
  | some s =>
    let d := match d.activeTx f with | some o => d.emptySlot o | none => d
    let d := d.setSlot s { d.slot s with state := 4, switchAt := 0 }
    let d := d.modCyp f fun x =>
      { x with txCtr := 0, exhausted := false, erased := false, warn := false, txTags := [], txSorts := d.fmx.tx.sortsOf f }
    let d := (d.modVault fun v => { v with sw := none }).setB Reg.CYP_STAT.PEER_ALARM 0 false
    let d := d.raise Ev.switched 0 0 f
    if d.carOp = 3 then d.carEnd 0 0 else d

/-- The forme of galley now building: `r` is the next forme of galley `g`. -/
def Dev.eraseOne (d : Dev) (s g r : Nat) : Dev :=
  let f := s / 4
  if isTxSlot s then
    let active := (d.slot s).state == 4
    let made := !(d.cyp f).txTags.isEmpty
    let d := if active then d.makeTag f s g else d
    let d := (d.emptySlot s).modCyp f fun x =>
      { x with erased := x.erased || active, exhausted := x.exhausted && !active, txTags := [] }
    if active && made then d.modVault fun v => { v with eraseSay := v.eraseSay ++ [(f, r)] }
    else if active then d.modVault fun v => { v with eraseSay := v.eraseSay ++ [(f, 0)] } else d
  else
    (d.emptySlot s).modCyp f fun x => { x with stop := true, keySig := true }

/-- The forme boundary after an ERASE: every waiting slot is emptied and the command ends (R355). -/
def Dev.eraseApply (d : Dev) (g r : Nat) : Dev :=
  let l := d.vault.erasing
  if l.isEmpty then d
  else
    let d := (d.over l fun s d => d.eraseOne s g r).modVault fun v => { v with erasing := [] }
    if d.carOp = 4 || d.carOp = 5 then d.carEnd 0 0 else d

/-! ### Alarms (R357, R358) -/

/-- An alarm with cause bits: every slot EMPTY, the lock set, transmit directions blank, and a running command ended. -/
def Dev.alarm (d : Dev) (causes : Nat) (own : Bool) : Dev :=
  let d := d.modVault fun v =>
    { v with
      slots := [], erasing := [], sw := none, rdyNew := [], rxSw := [], eraseSay := [], alarmSay := true
      flows := v.flows.map fun e => (e.1, { e.2 with txTags := [], exhausted := false, erased := false }) }
  let d := d.modVault fun v => { v with flows := v.flows.filter fun e => e.2 != CypFlow.reset }
  let d := (d.setB Reg.CAR_ALARM.LOCK 0 true).set Reg.CAR_ALARM.CAUSE 0 ((d.get Reg.CAR_ALARM.CAUSE 0) ||| causes)
  let d := (d.bump Reg.CAR_ALARM_CNT.ZEROISE 0).raise (Ev.carEvent 0) 0 0 causes
  if own then d.carEnd 0 0 else if d.flag Reg.CAR_CMD_STAT.BUSY 0 then
    (if d.vault.op = 1 then d.clearStaging.drawNonce else d).carEnd Err.locked.code 9
  else d

/-- The conditions of R357 bits 0 to 5 that are present now: each that is new is an alarm. A duplicate-compare or
key-store error passes at once. (Log 102: DEDUCED) -/
def Dev.alarmConditions (d : Dev) (mask : Nat) : Dev :=
  let mask := trunc 6 mask
  let fresh := (List.range 6).foldl (fun m i => m + b1 (bitOf mask i && !bitOf d.vault.present i) * pow2 i) 0
  let stay := trunc 4 mask
  let d := if fresh = 0 then d else d.alarm fresh false
  d.modVault fun v => { v with present := stay, goneAt := if stay = 0 && (v.present != 0 || fresh != 0) then d.now else v.goneAt }

/-- ALARM_CLEAR: with every cause absent for 1 ms (R358). (Log 102: DEDUCED) -/
def Dev.alarmClear (d : Dev) : Dev :=
  let d := d.carStart 8 0
  if d.vault.present ≠ 0 ∨ d.now < d.vault.goneAt + ms 1 then d.carEnd Err.locked.code 9
  else ((d.setB Reg.CAR_ALARM.LOCK 0 false).set Reg.CAR_ALARM.CAUSE 0 0).carEnd 0 0

/-- ZEROISE: an alarm with cause SOFTWARE, which is gone at once (R342). (Log 98: DEDUCED) -/
def Dev.zeroise (d : Dev) : Dev :=
  ((d.carStart 6 0).alarm 0x40 true).modVault fun v => { v with goneAt := if v.present = 0 then d.now else v.goneAt }

/-! ### Key signalling sent (R349 to R351) -/

/-- The flows of the checkpoint cycle (R350). -/
def Dev.ckptFlows (d : Dev) : List Nat := d.fmx.tx.flows.filter d.policyTx

/-- The entry after `last` in a rising list, round its end. -/
def nextIn (l : List Nat) (last : Nat) : Option Nat :=
  match l.find? fun x => decide (last < x) with
  | some x => some x
  | none => l.head?

/-- The transmit counter of flow `f` at the start of the galley after the open one (R350). -/
def Dev.ctrNext (d : Dev) (f g : Nat) : Nat :=
  if d.switchDue f g then 0
  else
    let x := d.cyp f
    if x.txTags.isEmpty then x.txCtr else x.txCtr + 16 * x.txSorts.length + 1

/-- The SWITCH field and its KCV (R349, R352): six bytes. -/
def Dev.ksigSwitch (d : Dev) : List Nat :=
  match d.vault.sw with
  | some (f, b, kcv, left + 1) => bytesBE 2 (0x8000 + b * 0x4000 + (left + 1) * 0x1000 + f) ++ bytesBE 4 kcv
  | _ => List.replicate 6 0

/-- The ERASE field (R349, R358). -/
def Dev.ksigErase (d : Dev) : List Nat :=
  if d.vault.alarmSay then bytesBE 2 0xC000
  else match d.vault.eraseSay with
    | (f, r) :: _ => bytesBE 2 (0x8000 + r * 0x400 + f)
    | [] => [0, 0]

/-- The flow whose announced switch is due at galley `g`. -/
def Dev.dueFlow (d : Dev) (g : Nat) : Option Nat :=
  match d.vault.sw with
  | some (f, _, _, 0) => if d.switchDue f g then some f else none
  | _ => none

/-- The flow of galley `g`'s checkpoint: one in the three galleys from its switch galley on, else the next of the cycle. -/
def Dev.ckptFlow (d : Dev) (g : Nat) : Option Nat :=
  match d.dueFlow g, d.vault.ckptFirst with
  | some f, _ => some f
  | none, some (f, _) => some f
  | none, none => nextIn d.ckptFlows d.vault.ckptLast

/-- The checkpoint's ten bytes for galley `g`. A flow whose switch is due at `g` is keyed from it by the armed bank. -/
def Dev.ksigCkpt (d : Dev) (g : Nat) : List Nat :=
  match d.ckptFlow g with
  | none => List.replicate 10 0
  | some f =>
    let due := d.switchDue f g
    let bank := if due then (if (d.slot (txSlot f 1)).state == 3 then 1 else 0)
      else match d.activeTx f with | some s => s % 2 | none => 0
    let keyed := due || d.txCipher f == 1
    bytesBE 2 (0x8000 + b1 (d.policyTx f) * 0x4000 + b1 keyed * 0x2000 + bank * 0x1000 + f) ++ bytesBE 8 (d.ctrNext f g)

/-- The READY receive slots, rising. -/
def Dev.readyRx (d : Dev) : List Nat :=
  (d.vault.slots.filter fun e => e.2.state == 2 && !isTxSlot e.1).map (·.1)

/-- The slot of this galley's RDY (R351). -/
def Dev.rdySlot (d : Dev) : Option Nat :=
  match d.vault.rdyNew with
  | s :: _ => some s
  | [] => nextIn d.readyRx d.vault.rdyLast

/-- The RDY field and its KCV: six bytes. -/
def Dev.ksigRdy (d : Dev) : List Nat :=
  match d.rdySlot with
  | some s => bytesBE 2 (0x8000 + s % 2 * 0x4000 + s / 4) ++ bytesBE 4 (d.slot s).kcv
  | none => List.replicate 6 0

/-- A switch's first copy fixes the switch galley, three galleys on (R352). -/
def Dev.fixSwitch (d : Dev) (g : Nat) : Dev :=
  match d.vault.sw with
  | some (f, b, _, 3) => d.setSlot (txSlot f b) { d.slot (txSlot f b) with switchAt := (g + 3) % pow2 32 }
  | _ => d

/-- KSIG of galley `g` freezes, 1 µs before its start: the 32 bytes are kept, and the cycles and countdowns move on. -/
def Dev.ksigFreeze (d : Dev) (g : Nat) : Dev :=
  let d := d.fixSwitch g
  let bytes := [1, 0] ++ d.ksigSwitch ++ d.ksigErase ++ d.ksigCkpt g ++ d.ksigRdy ++ List.replicate 6 0
  let ck := d.ckptFlow g
  let due := d.dueFlow g
  let rd := d.rdySlot
  d.modVault fun v =>
    { v with
      ksig := bytes
      sw := v.sw.map fun (f, b, kcv, left) => (f, b, kcv, left - 1)
      eraseSay := if v.alarmSay then v.eraseSay else v.eraseSay.drop 1
      alarmSay := false
      ckptFirst := match due, v.ckptFirst with
        | some f, _ => some (f, 2)
        | none, some (f, k + 2) => some (f, k + 1)
        | none, _ => none
      ckptLast := if due.isSome || v.ckptFirst.isSome then v.ckptLast else ck.getD v.ckptLast
      rdyNew := v.rdyNew.drop 1
      rdyLast := match v.rdyNew, rd with | [], some s => s | _, _ => v.rdyLast }

end Sys2Proof.Machine
end

