-- ==== Sys2Proof/Machine/Framer.lean ====
section
/-! DEFINITION. The framer's receive side: the hunt, alignment, overhead reading and galley-scoped fields (R155 to R171). -/

namespace Sys2Proof.Machine

/-! ### Overhead (R158 to R160, R163) -/

/-- The forme alignment signal (R159). -/
def fas : List Nat := [0xF6, 0xF6, 0xF6, 0x28, 0x28, 0x28, 0x5A, 0xC3]

/-- The forme number of an FNUM byte; none where the halves are not complements (R160). -/
def fnumOf (b : Nat) : Option Nat := if b / 16 % 16 + b % 16 = 15 then some (b % 16) else none

/-- The overhead of a descrambled forme is valid: its CRC, OHVER and FNUM (R158, R159, R160). -/
def ohValid (oh : List Nat) : Bool :=
  decide (crc16 (slice oh 8 4086) = ofBytesBE (slice oh 4094 2)) && oh.getD 9 0 == 1 && (fnumOf (oh.getD 8 0)).isSome

/-- The forme and galley numbers of an overhead. -/
def ohNumbers (oh : List Nat) : Nat × Nat := ((fnumOf (oh.getD 8 0)).getD 0, ofBytesBE (slice oh 10 4))

/-- The numbering after a forme's (R167). -/
def nextNumber (x : Nat × Nat) : Nat × Nat := if x.1 = 15 then (0, (x.2 + 1) % pow2 32) else (x.1 + 1, x.2)

/-- The bits in which two bytes differ. -/
def bitDiff (a b : Nat) : Nat := (List.range 8).foldl (fun n i => n + b1 (bitOf a i != bitOf b i)) 0

/-- The bits of FAS that are wrong. -/
def fasErrors (l : List Nat) : Nat := ((l.take 8).zipWith bitDiff fas).foldl (· + ·) 0

/-! ### Overhead reading (R162, R164) -/

/-- The bits of BSIG and of KSIG that carry something; the others are ignored on receive (R159, R209, R349). -/
def bsigMask : List Nat := List.replicate 6 255 ++ [1, 0] ++ List.replicate 16 255 ++ List.replicate 8 0
def ksigMask : List Nat := [255, 0] ++ List.replicate 24 255 ++ List.replicate 6 0
def maskBytes (m l : List Nat) : List Nat := List.zipWith (fun a b => a &&& b) m l

/-- The galley-scoped fields of an overhead with `S` carrier sorts: reserved bits and bytes are left out (R159, R163). -/
def galleyFields (S g : Nat) (oh : List Nat) : GalleyCopy :=
  ⟨g, slice oh 16 32, slice oh 48 32, (List.range 128).map fun k => if k < S then oh.getD (128 + k) 0 / 32 * 32 else 0⟩

/-- Do two copies differ in what they say? -/
def GalleyCopy.differs (a b : GalleyCopy) : Bool :=
  maskBytes bsigMask a.bsig != maskBytes bsigMask b.bsig || maskBytes ksigMask a.ksig != maskBytes ksigMask b.ksig || a.sortStat != b.sortStat

/-- A copy handed on for a galley (none: LOST); the last few are kept. -/
def Dev.handCopy (d : Dev) (n g : Nat) (c : Option GalleyCopy) : Dev :=
  d.modFrm n fun f => { f with copies := ((g, c) :: f.copies.filter fun e => e.1 != g).take 4 }

/-- The tags area that a forme 0 of galley `g` carries for the galley before; none where it is CRC-errored (R164). -/
def Dev.handTags (d : Dev) (n g : Nat) (area : Option (List Nat)) : Dev :=
  d.modFrm n fun f => { f with tags := (((g + pow2 32 - 1) % pow2 32, area) :: f.tags).take 4 }

/-- A forme with a valid CRC: its numbers and its BDI (R160, R172, R188). -/
def Dev.readNumbers (d : Dev) (n : Nat) (oh : List Nat) : Dev :=
  let num := ohNumbers oh
  ((d.set Reg.FRM_ALIGN_STAT.FNUM n num.1).set Reg.FRM_GNUM_RX.GNUM n num.2).modFrm n fun f => { f with rxBdi := bitOf (oh.getD 14 0) 7 }

/-- The galley-scoped fields of a forme with a valid CRC, forme `fn` of galley `g` in the alignment held. -/
def Dev.readGalley (d : Dev) (n g fn : Nat) (oh : List Nat) : Dev :=
  let c := galleyFields (d.sortsOf n) g oh
  let f := (d.le n).frm
  let d := match f.copy with
    | none => (d.modFrm n fun f => { f with copy := some c }).handCopy n g (some c)
    | some x =>
      if !x.differs c || f.differ then d
      else (d.modFrm n fun f => { f with differ := true }).bump Reg.FRM_OH_GAL.INCONS n
  if fn = 0 then d.handTags n g (some (slice oh 1024 2048)) else d

/-! ### The hunt (R166 to R168) -/

/-- The offsets at which FAS matches exactly, from a running offset on. -/
def fasOffsets : List Nat → Nat → List Nat
  | [], _ => []
  | b :: rest, i => if (b :: rest).take 8 = fas then i :: fasOffsets rest (i + 1) else fasOffsets rest (i + 1)

/-- Is the pattern at the head of a stream correct, after the numbering of the pattern before (none at pattern 1)? -/
def patternOk (l : List Nat) (prev : Option (Nat × Nat)) : Bool :=
  let oh := scramble (l.take 4096)
  decide (l.take 8 = fas) && ohValid oh &&
    (match prev with | none => true | some p => ohNumbers oh == nextNumber p)

/-- CAND shows the slots in use. -/
def Dev.showCand (d : Dev) (n : Nat) : Dev :=
  d.set Reg.FRM_ALIGN_STAT.CAND n ((d.le n).frm.slots.foldl (fun m e => m + pow2 e.1) 0)

/-- A slot of the hunt written. -/
def Dev.setHunt (d : Dev) (n i : Nat) (x : HuntSlot) : Dev :=
  d.modFrm n fun f => { f with slots := Store.put f.slots i x }

/-- A candidate of slots 1 to 7 ends: freed and counted in FALSE. -/
def Dev.huntFalse (d : Dev) (n i : Nat) : Dev :=
  (d.modFrm n fun f => { f with slots := Store.drop f.slots i }).bump Reg.FRM_HUNT_CNT.FALSE n

/-- A candidate in slots 1 to 7 completes three correct patterns (R168). (Log 56: DEDUCED) -/
def Dev.huntPayload (d : Dev) (n i off : Nat) : Dev :=
  let d := ((d.huntFalse n i).setB Reg.FRM_FAS_PAY.VALID n true).set Reg.FRM_FAS_PAY.OFFSET n off
  if since (d.le n).frm.payAt d.now (sec 1) then
    (d.modFrm n fun f => { f with payAt := some d.now }).raise Ev.fasInPayload n n 0
  else d

/-- The candidates of slots 1 to 7 over the forme before, whose bytes are followed by those of the present one: the held
candidates first, then new matches in order of discovery. (Log 56: DEDUCED) -/
def Dev.huntPayloads (d : Dev) (n : Nat) (prev cur : List Nat) : Dev :=
  let stream := prev ++ cur.take 4096
  let held := ((d.le n).frm.slots.filter fun e => e.1 != 0)
  let d := d.over (held.map (·.1)) fun i d =>
    let x := Store.get (fun _ => HuntSlot.reset) (d.le n).frm.slots i
    let l := stream.drop x.off
    if patternOk l (some (x.fnum, x.gnum)) then
      if x.count = 2 then d.huntPayload n i x.off
      else
        let (fn, g) := ohNumbers (scramble (l.take 4096))
        d.setHunt n i ⟨x.off, x.count + 1, fn, g⟩
    else d.huntFalse n i
  (fasOffsets (stream.take (prev.length + 7)) 0).foldl (fun d off =>
    let used := (d.le n).frm.slots
    if off = 0 ∨ prev.length ≤ off ∨ used.any (fun e => e.1 != 0 && e.2.off == off) then d
    else
      match ((List.range 7).map (· + 1)).find? fun i => !used.any fun e => e.1 == i with
      | none => d.bump Reg.FRM_HUNT_CNT.DROPPED n
      | some i =>
        let l := stream.drop off
        let (fn, g) := ohNumbers (scramble (l.take 4096))
        if patternOk l none then d.setHunt n i ⟨off, 1, fn, g⟩ else d.bump Reg.FRM_HUNT_CNT.FALSE n) d

/-- Forme and galley alignment are gained, and FRAME is left (R168, R115). The winning forme's fields are the galley's (R162); the
galley is errored, since its formes before had no alignment (R180). (Log 56: DEDUCED) -/
def Dev.huntWon (d : Dev) (n : Nat) (oh : List Nat) : Dev :=
  let num := ohNumbers oh
  let d := (d.setB Reg.FRM_ALIGN_STAT.FA n true).setB Reg.FRM_ALIGN_STAT.GA n true
  let d := d.modFrm n fun f =>
    { f with slots := [], prev := [], fasRun := 0, misRun := 0, okRun := 0, expect := some (nextNumber num), fly := some (nextNumber num),
             copy := none, differ := false, bad := true, spoilt := [] }
  (((d.readGalley n num.2 num.1 oh).showCand n).enterLocked n)

/-- A decoded forme while the hunt runs. While MISMATCH is set the hunt is never won (R132). (Log 56: DEDUCED) -/
def Dev.huntForme (d : Dev) (n : Nat) (bytes : List Nat) : Dev :=
  let f := (d.le n).frm
  let oh := scramble (bytes.take 4096)
  let d := onlyIf (ohValid oh) (fun d => d.readNumbers n oh) d
  let d := if f.prev.isEmpty then d else d.huntPayloads n f.prev bytes
  let x := Store.get (fun _ => HuntSlot.reset) f.slots 0
  let num := ohNumbers oh
  let ok := patternOk bytes (if x.count = 0 then none else some (x.fnum, x.gnum)) && !(x.count == 2 && d.cannotPass n)
  if ok && x.count = 2 then d.huntWon n oh
  else
    let d := d.setHunt n 0 (if ok then ⟨0, x.count + 1, num.1, num.2⟩ else ⟨0, 0, 0, 0⟩)
    (d.modFrm n fun f => { f with prev := bytes }).showCand n

/-! ### Alignment held (R169, R170) -/

/-- Five errored FAS in a row end forme alignment, and LOCKED with cause 5 (R169, R117). (Log 58: DEDUCED) -/
def Dev.loseForme (d : Dev) (n : Nat) : Dev :=
  let d := (d.bump Reg.FRM_ALIGN_CNT.LOF n).modFrm n fun f => { f with bad := true }
  (d.dropAlignment n).loseLock n 5

/-- The numbering of a forme with a valid CRC against the expectation, and galley alignment (R170). `fly` is the number of the next
forme in the alignment held. (Log 58: DEDUCED) -/
def Dev.numberForme (d : Dev) (n : Nat) (num : Nat × Nat) : Dev :=
  let f := (d.le n).frm
  let ok := f.expect == some num
  let next := some (nextNumber num)
  let d := d.modFrm n fun f => { f with expect := next }
  if d.ga n then
    if ok then d.modFrm n fun f => { f with misRun := 0, fly := next }
    else if f.misRun + 1 = 8 then
      ((d.setB Reg.FRM_ALIGN_STAT.GA n false).bump Reg.FRM_ALIGN_CNT.LOM n).modFrm n fun f => { f with misRun := 0, okRun := 0, fly := none }
    else d.modFrm n fun f => { f with misRun := f.misRun + 1, fly := f.fly.map nextNumber }
  else if ok && f.okRun + 1 = 2 then
    (d.setB Reg.FRM_ALIGN_STAT.GA n true).modFrm n fun f => { f with okRun := 0, misRun := 0, fly := next }
  else d.modFrm n fun f => { f with okRun := if ok then f.okRun + 1 else 0 }

/-! ### A decoded forme (R169 to R171) -/

/-- Have the formes with these numbers been released already (R202)? -/
def Dev.wasReleased (d : Dev) (g fn : Nat) : Bool :=
  match d.path.released with
  | some (rg, rf) =>
    let ahead := (g * 16 + fn + pow2 36 - (rg * 16 + rf)) % pow2 36
    decide (ahead = 0 ∨ pow2 35 ≤ ahead)
  | none => false

/-- The cells of sorts that wait behind the verdict are marked errored. (Log 59: DEDUCED) -/
def Dev.spoilHeld (d : Dev) (p : Nat → Bool) : Dev :=
  let mark (h : Nat × Nat × Cell) : Nat × Nat × Cell := if p h.2.1 then (h.1, h.2.1, { h.2.2 with errored := true }) else h
  { d with vault := { d.vault with flows := d.vault.flows.map fun e => (e.1, { e.2 with held := e.2.held.map mark }) } }

/-- Carrier sorts that FEC has spoilt: every cell that they carry in galley `g` and that the part still holds is marked errored, in
formes held for deskew and behind the verdict (R139, R143). (Log 59: DEDUCED) -/
def Dev.spoilSorts (d : Dev) (n g : Nat) (spoilt : List Nat) : Dev :=
  if spoilt.isEmpty then d
  else
    let d := d.modFrm n fun f => { f with spoilt := insertAll spoilt f.spoilt }
    let d := d.modPath fun x =>
      { x with rxFormes := x.rxFormes.map fun e => if e.le = n ∧ e.gnum = g then { e with bad := insertAll spoilt e.bad } else e }
    if d.vault.rxGalley = some g then d.spoilHeld fun s => s / 128 == n && spoilt.contains (s % 128) else d

/-- A forme passed to CYP and FMX, where its carrier is a member and the forme has not been released already (R171, R202); not where it
was decoded without its predecessor block (R145). -/
def Dev.passForme (d : Dev) (n g fn : Nat) (m : Decoded) (payload : List Nat) : Dev :=
  if !d.member n || d.wasReleased g fn || !m.joined then d
  else d.modPath fun x => { x with rxFormes := x.rxFormes ++ [⟨n, g, fn, d.now, m.first, m.bank, payload, (d.le n).frm.spoilt⟩] }

/-- The overhead of a forme while forme alignment is held: valid, or CRC-errored. (Log 57: DEDUCED) -/
def Dev.alignedOverhead (d : Dev) (n : Nat) (oh : List Nat) : Dev :=
  if ohValid oh then (d.readNumbers n oh).numberForme n (ohNumbers oh)
  else (d.bump Reg.FRM_OH_CRC.ERR n).modFrm n fun f => { f with expect := f.expect.map nextNumber, fly := f.fly.map nextNumber }

/-- The number of a forme in the alignment held: its own where it is as expected, else the one that the alignment gives it. -/
def ownNumber (f : Frm) (oh : List Nat) : Option (Nat × Nat) :=
  if ohValid oh && f.expect == some (ohNumbers oh) then f.expect else f.fly

/-- A forme while forme alignment is held. Galley alignment at its start decides whether its payload is passed, whatever the forme
itself then does to alignment (R169, R171); in PRBS mode 1 the checker sees it (R124). -/
def Dev.alignedForme (d : Dev) (n : Nat) (m : Decoded) : Dev :=
  let clear := scramble m.bytes
  let oh := clear.take 4096
  let ok := ohValid oh
  let held := d.ga n
  let own := ownNumber (d.le n).frm oh
  let run := if 5 ≤ fasErrors m.bytes then (d.le n).frm.fasRun + 1 else 0
  let d := (d.alignedOverhead n oh).modFrm n fun f => { f with fasRun := run }
  let spans := d.badSpans n m
  let spoilt := (List.range (d.sortsOf n)).filter fun k => sortSpoilt (d.sortsOf n) k spans
  let d := d.modFrm n fun f => { f with bad := f.bad || !ok || !held || !spans.isEmpty }
  let d :=
    match held, own with
    | true, some (fn, g) =>
      let d := if ok then d.readGalley n g fn oh else if fn = 0 then d.handTags n g none else d
      let d := (d.spoilSorts n g spoilt).passForme n g fn m (clear.drop 4096)
      if d.get Reg.LE_RX_PRBS.MODE n = 1 then d.rxPrbs n 0 ((clear.drop 4096).flatMap bitsMSB) else d
    | _, _ =>
      match ok && d.ga n, (ohNumbers oh) with
      | true, (fn, g) => d.readGalley n g fn oh
      | false, _ => d
  if run = 5 then d.loseForme n else d

/-- A decoded forme reaches the framer. -/
def Dev.formeDecoded (d : Dev) (n : Nat) (m : Decoded) : Dev :=
  let d := (d.fecForme n m).setB Reg.LE_FEC_STAT.RUN n true
  let d :=
    if d.rxState n = 8 then d.huntForme n m.bytes
    else if d.fa n then d.alignedForme n m
    else d
  d.defSync n

/-- The number of the galley that has just been completed: the flywheel stands at forme 0 of the next. -/
def Dev.completedGalley (d : Dev) (n : Nat) : Option Nat :=
  if d.ga n then
    match (d.le n).frm.fly with
    | some (0, g) => some ((g + pow2 32 - 1) % pow2 32)
    | _ => none
  else none

/-- The framer completes a galley: a galley without a valid copy is LOST (R162), and PM counts it (R179, R180). -/
def Dev.frmGalley (d : Dev) (n : Nat) (g : Option Nat) : Dev :=
  let f := (d.le n).frm
  let d := match g, f.copy with
    | some g, none => (d.bump Reg.FRM_OH_GAL.LOST n).handCopy n g none
    | _, _ => d
  let bad := f.bad || g.isNone
  let d := d.modFrm n fun f =>
    { f with copy := none, differ := false, bad := false, spoilt := [], pm := { f.pm with gal := f.pm.gal + 1, eg := f.pm.eg + b1 bad } }
  d.set Reg.FRM_PM_NOW.EG n (capN 0xFFFF (d.le n).frm.pm.eg)

end Sys2Proof.Machine
end

