-- ==== Sys2Proof/Machine/Mapper.lean ====
section
/-! DEFINITION. The subcarriers of a carrier: grid, pulse and mask (R52 to R54, R69, R70, R100), dealing and mapping with pilots
and powers (R57, R58, R61, R62, R66, R67, R72), and the demapper's soft metrics (R146). -/

namespace Sys2Proof.Machine

/-! ### The subcarrier grid (R52 to R54, R100) -/

/-- The symbol rate of a data subcarrier in Hz, a sixteenth of the carrier's (R52). -/
def dscRate (code : Nat) : Nat := gbd code * 62500000

/-- The subcarrier spacing in Hz: the subcarrier's rate times 1 + ρ, with ρ in steps of 0.5 % (R52, R91). -/
def dscSpacing (code rolloff : Nat) : Nat := gbd code * 312500 * (200 + rolloff)

/-- The centre of data subcarrier `d` in Hz about the carrier centre, with the central guard of 0.25 GHz; the chime channel lies at
the centre itself (R53). -/
def dscCentre (code rolloff d : Nat) : Int :=
  (2 * (d : Int) - 15) * (dscSpacing code rolloff : Int) / 2 + (if d < 8 then -125000000 else 125000000)
def chimeCentre : Int := 0

/-- The occupied width of a carrier in Hz (R54). -/
def occupiedWidth (code rolloff : Nat) : Nat := 16 * dscSpacing code rolloff + 250000000

/-- The power spectrum of the root-raised-cosine pulse at `x` Hz from a subcarrier's centre, in 1/65,535: flat, then a raised
cosine over ρ times the symbol rate, then nothing (R52). (Log 173: DESIGN CHOICE) -/
def pulsePower (code rolloff x : Nat) : Nat :=
  let flat := dscRate code * (200 - rolloff) / 400
  let edge := dscRate code * (200 + rolloff) / 400
  if x ≤ flat then 65535 else if edge ≤ x then 0 else raisedCosine.getD (63 * (edge - x) / (edge - flat)) 0

/-- The symbols and the pilots of a forme on a subcarrier (R54, R66). -/
def formeSymbols (code : Nat) : Nat := 80 * gbd code
def formePilots (code : Nat) : Nat := formeSymbols code / 32

/-- The symbol of a forme that data symbol `j` is: symbols 0, 32, 64, … are pilots (R66). -/
def dataSymbolAt (j : Nat) : Nat := j / 31 * 32 + j % 31 + 1

/-- The front end's sampling rate in Hz (R100). -/
def frontEndRate (code : Nat) : Nat := gbd code * 1250000000

/-- The passband edge and the stopband edge of the front-end filters in MHz, and their taps (R100). -/
def frontEndFilter (code filt : Nat) : Nat × Nat × Nat :=
  if filt = 0 then (560 * gbd code, 620 * gbd code, 96) else (530 * gbd code, 560 * gbd code, 192)

/-! ### Constellations (R56, R57, R94) -/

/-- The point of a label, and the points of a uniform constellation of `b` bits. -/
def labelPoint (const label : Nat) : Int × Int :=
  let w := Config.constLabel (64 * const + label)
  (sgn 8 (bitsOf w 8 8), sgn 8 (bitsOf w 0 8))
def labelPoints (const b : Nat) : List (Int × Int) := (List.range (pow2 b)).map (labelPoint const)

/-- Is a constellation shaped? -/
def isShaped (w : Nat) : Bool := constOf w == 6 || constOf w == 7

/-- The composition of a shaped constellation from its table entries: counts at levels 1, 3 and, for PS-64QAM, 5 and 7
(R57, R94). -/
def compositionOf (const nbits : Nat) : List Nat :=
  let c := if const = 7 then 1 else 0
  let e (h : Nat) : Nat := trunc 32 (Config.composition (256 * c + 128 * h + nbits))
  let low := [bitsOf (e 0) 0 16, bitsOf (e 0) 16 16]
  if const = 7 then low ++ [bitsOf (e 1) 0 16, bitsOf (e 1) 16 16] else low

/-- The square of a point's size. -/
def pointPower (p : Int × Int) : Nat := (p.1 * p.1 + p.2 * p.2).toNat

/-- The mean energy of a subcarrier's data symbols on the unnormalised grid, as a sum over so many. -/
def meanEnergy (w : Nat) : Nat × Nat :=
  if isShaped w then
    let cnt := compositionOf (constOf w) (nbitsOf w)
    (2 * ((List.range cnt.length).map fun l => cnt.getD l 0 * (2 * l + 1) ^ 2).sum, 620)
  else
    let pts := labelPoints (constOf w) (nbitsOf w / 16)
    ((pts.map pointPower).sum, pts.length)

/-! ### Dealing and mapping (R58, R61, R66, R67) -/

/-- The place where a subcarrier's segment begins among the dealt bits, for bank entries in order (R61). -/
def segmentStart (code : Nat) (bank : List Nat) (d : Nat) : Nat := bankCapacity code (bank.take d)

/-- A subcarrier's segment of the coded bits; positions past them are pad bits of value 0 (R61). -/
def segmentOf (code : Nat) (bank : List Nat) (coded : Array Bool) (d : Nat) : List Bool :=
  let s := segmentStart code bank d
  (List.range (dscCapacity code (bank.getD d 0))).map fun x => coded.getD (s + x) false

/-- The bits of a block of a shaped subcarrier, and those of them that the matcher takes (R58). -/
def blockBits (nbits : Nat) : Nat := 310 * nbits / 16
def matcherBits (nbits : Nat) : Nat := blockBits nbits - 620

/-- The 620 signed amplitudes of a block of bits under a composition: the first bits rank the amplitudes, the last 620 are
their signs (R58). -/
def shapedBlock (cnt : List Nat) (nbits : Nat) (bits : List Bool) : List Int :=
  let amps := unrank 620 cnt (ofBits (bits.take (matcherBits nbits)))
  (amps.zip (bits.drop (matcherBits nbits))).map fun p => if p.2 then -(p.1 : Int) else p.1

/-- The data symbols of a subcarrier, X and Y, from the bits of its segment (R58, R61). -/
def mapSegment (code w : Nat) (bits : List Bool) : List ((Int × Int) × (Int × Int)) :=
  if constOf w = 0 then []
  else if isShaped w then
    let W := blockBits (nbitsOf w)
    let cnt := compositionOf (constOf w) (nbitsOf w)
    (List.range (dataSymbols code / 155)).flatMap fun k =>
      let a := (shapedBlock cnt (nbitsOf w) (slice bits (W * k) W)).toArray
      (List.range 155).map fun j => ((a.getD (4 * j) 0, a.getD (4 * j + 1) 0), (a.getD (4 * j + 2) 0, a.getD (4 * j + 3) 0))
  else
    let b := nbitsOf w / 16
    let label (x : Nat) : Int × Int := labelPoint (constOf w) (ofBits (slice bits x b))
    (List.range (dataSymbols code)).map fun j => (label (2 * b * j), label (2 * b * j + b))

/-- The symbols of a forme on one polarisation of a subcarrier: a pilot's in-phase and quadrature signs at every 32nd, +1 for a bit
of 0 and −1 for a bit of 1, and data in time order between (R66, R67). -/
def withPilots (code d p : Nat) (data : Array (Int × Int)) : List (Int × Int) :=
  let sign := (prbs15 (2 * formePilots code) (pilotSeed d p)).toArray
  let s (i : Nat) : Int := if sign.getD i false then -1 else 1
  (List.range (formeSymbols code)).map fun k =>
    if isPilot k then (s (k / 16), s (k / 16 + 1)) else data.getD (k / 32 * 31 + k % 32 - 1) (0, 0)

/-! ### Powers (R62, R67, R72) -/

/-- The power of each subcarrier after the gains, in 2^-256 of the power it has without them: together they are scaled so that
the data power of the carrier is unchanged (R62). (Log 173: DESIGN CHOICE) -/
def dscPowers (bank : List Nat) : List Nat :=
  let g := bank.map fun w => if constOf w = 0 then 0 else dbPower (10 * gainOf w)
  let active := (bank.filter fun w => constOf w != 0).length
  g.map fun x => x * active * one256 / g.sum

/-- The power of polarisation `p` (0 X, 1 Y) at a Y gain in 0.05 dB, in 2^-256: Y relative to X, their sum constant (R72). -/
def polPower (gain : Int) (p : Nat) : Nat :=
  let y := dbPower (5 * gain)
  2 * one256 * (if p = 0 then one256 else y) / (one256 + y)

/-- A subcarrier's polarisation of a forme: its symbols with the powers of a step of the grid of data and of pilots. The mean data
symbol has the subcarrier's power, and a pilot that power raised by BOOST, in 0.25 dB (R62, R67, R72). -/
def subForme (code boost : Nat) (gain : Int) (bank : List Nat) (data : Array ((Int × Int) × (Int × Int))) (d p : Nat) : TxSub :=
  let w := bank.getD d 0
  if constOf w = 0 then TxSub.reset
  else
    let e := meanEnergy w
    let power := (dscPowers bank).getD d 0 * polPower gain p / one256
    ⟨withPilots code d p (data.map fun s => if p = 0 then s.1 else s.2), power * e.2 / e.1, power * dbPower (25 * boost) / one256 / 2⟩

/-- A forme of a carrier at the mapper's output: subcarrier by subcarrier, X before Y (R56 to R67). -/
def mapForme (code boost : Nat) (gain : Int) (bank : List Nat) (coded : List Bool) : List TxSub :=
  (List.range 16).flatMap fun d =>
    let data := (mapSegment code (bank.getD d 0) (segmentOf code bank coded.toArray d)).toArray
    [subForme code boost gain bank data d 0, subForme code boost gain bank data d 1]

/-! ### The mask (R69, R70) -/

/-- The gain of the mask at `f` Hz from the carrier centre, in 0.01 dB: bins of 2 GHz, linear between bin centres, of which the first
lies at −127 GHz; beyond the outer centres the outer bins hold. (Log 173: DESIGN CHOICE) -/
def maskAt (bin : Nat → Int) (f : Int) : Int :=
  let x := f + 127000000000
  if x ≤ 0 then bin 0
  else
    let i := (x / 2000000000).toNat
    let r := x % 2000000000
    if 127 ≤ i then bin 127 else (bin i * (2000000000 - r) + bin (i + 1) * r) / 2000000000

/-- The scale that keeps the power in the occupied width, in 0.01 dB: the carrier's power over its power through the mask, summed
at 64 frequencies across each subcarrier's pulse. (Log 173: DESIGN CHOICE) -/
def maskNorm (code rolloff : Nat) (bank : List Nat) (bin : Nat → Int) : Int :=
  let step := dscSpacing code rolloff
  let powers := dscPowers bank
  let parts := (List.range 16).flatMap fun d => (List.range 64).map fun (j : Nat) =>
    let x := (2 * (j : Int) - 63) * (step : Int) / 128
    let p := powers.getD d 0 * pulsePower code rolloff x.natAbs
    (p, p * dbPower (maskAt bin (dscCentre code rolloff d + x)) / one256)
  let after := (parts.map (·.2)).sum
  if after = 0 then 0 else dbOf (parts.map (·.1)).sum after

/-! ### Soft metrics (R146) -/

/-- A squared distance in 2^-16 of the grid as a log ratio to base 2, in 2^-16, at an SNR in 0.01 dB and a mean energy.
(Log 154: DESIGN CHOICE) -/
def noiseMetric (snr : Nat) (e : Nat × Nat) (dist : Int) : Int :=
  Int.tdiv (dist * (dbPower snr * e.2 * 94548 : Nat)) (e.1 * one256 * 65536 : Nat)

/-- The least of some numbers. -/
def leastOf : List Nat → Nat
  | [] => 0
  | x :: rest => rest.foldl min x
def greatestOf : List Int → Int
  | [] => 0
  | x :: rest => rest.foldl max x

/-- A ratio quantised to 6 bits, saturating (R146). (Log 154: DESIGN CHOICE) -/
def quantRatio (v : Int) : Int := clampI (-31) 31 (Int.tdiv v (max 1 Config.ratioUnit : Nat))

/-- The max-log ratio of bit `i` of a symbol of `b` bits received at `y`, in 2^-8 of the grid. -/
def symbolRatio (pts : List (Int × Int)) (e : Nat × Nat) (b snr : Nat) (y : Int × Int) (i : Nat) : Int :=
  let near (v : Bool) : Nat := leastOf (((List.range pts.length).filter fun l => bitOf l (b - 1 - i) == v).map fun l =>
    let p := pts.getD l (0, 0)
    pointPower (y.1 - 256 * p.1, y.2 - 256 * p.2))
  quantRatio (noiseMetric snr e ((near true : Int) - (near false : Int)))

/-- How well a signed level explains an axis received at `y`, with the composition's distribution as the a priori probability. -/
def axisMetric (cnt : List Nat) (e : Nat × Nat) (snr : Nat) (y : Int) (neg : Bool) (l : Nat) : Int :=
  let v : Int := if neg then -(2 * (l : Int) + 1) else 2 * (l : Int) + 1
  (log2of (cnt.getD l 0) : Int) - noiseMetric snr e ((y - 256 * v) ^ 2)

/-- The levels that a composition uses. -/
def levelsOf (cnt : List Nat) : List Nat := (List.range cnt.length).filter fun l => cnt.getD l 0 != 0

/-- The likeliest level of an axis: the lowest of the best. (Log 154: DESIGN CHOICE) -/
def axisLevel (cnt : List Nat) (e : Nat × Nat) (snr : Nat) (y : Int) : Nat :=
  let m (l : Nat) : Int := max (axisMetric cnt e snr y false l) (axisMetric cnt e snr y true l)
  ((levelsOf cnt).find? fun l => m l == greatestOf ((levelsOf cnt).map m)).getD 0

/-- The rank of a sequence of levels under a composition; none where the counts differ (R58). -/
def rankOf : List Nat → List Nat → Option Nat
  | [], cnt => if cnt.all (· == 0) then some 0 else none
  | l :: rest, cnt =>
    if cnt.getD l 0 = 0 then none
    else
      let before := (((List.range l).filter fun k => cnt.getD k 0 != 0).map fun k => multinomial (cnt.set k (cnt.getD k 0 - 1))).sum
      (rankOf rest (cnt.set l (cnt.getD l 0 - 1))).map (before + ·)

/-- The ratio of matcher bit `k` of `n`: where the likeliest levels are a sequence of the composition, the bit of its rank gives the
sign; the size, and the whole ratio elsewhere, is the decoder's own. (Log 154: DESIGN CHOICE) -/
def matcherRatio (axes : List Int) (rank : Option Nat) (n k : Nat) : Int :=
  let free := Config.matcherRatio axes k
  match rank with
  | some u => if u < pow2 n then (if bitOf u (n - 1 - k) then -(1 + (free % 31 : Nat) : Int) else 1 + (free % 31 : Nat)) else (free % 63 : Nat) - 31
  | none => (free % 63 : Nat) - 31

/-- The ratios of a block of a shaped subcarrier from its 620 axes: the matcher's bits, then the signs (R58). -/
def blockRatios (w snr0 snr1 : Nat) (axes : List Int) : List Int :=
  let cnt := compositionOf (constOf w) (nbitsOf w)
  let e := meanEnergy w
  let snr (a : Nat) : Nat := if a / 2 % 2 = 0 then snr0 else snr1
  let rank := rankOf ((List.range 620).map fun a => axisLevel cnt e (snr a) (axes.getD a 0)) cnt
  let sign (a : Nat) : Int :=
    let best (neg : Bool) : Int := greatestOf ((levelsOf cnt).map (axisMetric cnt e (snr a) (axes.getD a 0) neg))
    quantRatio (best false - best true)
  (List.range (matcherBits (nbitsOf w))).map (matcherRatio axes rank (matcherBits (nbitsOf w))) ++ (List.range 620).map sign

/-- The ratios of a subcarrier's segment from its received symbols, X and Y, and their SNR. -/
def segmentRatios (code w snr0 snr1 : Nat) (x y : Array (Int × Int)) : List Int :=
  let at_ (s : Array (Int × Int)) (j : Nat) : Int × Int := s.getD (dataSymbolAt j) (0, 0)
  if constOf w = 0 then []
  else if isShaped w then
    (List.range (dataSymbols code / 155)).flatMap fun k =>
      blockRatios w snr0 snr1 ((List.range 155).flatMap fun i =>
        [(at_ x (155 * k + i)).1, (at_ x (155 * k + i)).2, (at_ y (155 * k + i)).1, (at_ y (155 * k + i)).2])
  else
    let b := nbitsOf w / 16
    let pts := labelPoints (constOf w) b
    (List.range (dataSymbols code)).flatMap fun j =>
      (List.range b).map (symbolRatio pts (meanEnergy w) b snr0 (at_ x j)) ++ (List.range b).map (symbolRatio pts (meanEnergy w) b snr1 (at_ y j))

/-- The ratios of a forme in dealing order, by subcarrier. -/
def dealtRatios (code : Nat) (bank : List Nat) (syms : List (List (Int × Int))) (snr : List Nat) : List (List Int) :=
  (List.range 16).map fun d =>
    segmentRatios code (bank.getD d 0) (snr.getD (2 * d) 0) (snr.getD (2 * d + 1) 0)
      (syms.getD (2 * d) []).toArray (syms.getD (2 * d + 1) []).toArray

/-! ### Where a bit lies in time (R39, R67) -/

/-- The coded bit that carries framed bit `x`, in the modes of `code` with `units` codewords (R136, R137, R141, R142). -/
def codedPosition (code units x : Nat) : Nat :=
  if code = 2 then stairCoded (x / 494 * 528 + x % 494) else x % ldpcK code * units + x / ldpcK code

/-- The symbol of a forme that carries a coded bit: a matcher bit is carried by the whole of its block. (Log 177: DEDUCED) -/
def symbolOfCoded (code : Nat) (bank : List Nat) (x : Nat) : Nat :=
  let d := ((List.range 16).find? fun d => decide (x < segmentStart code bank (d + 1))).getD 15
  let w := bank.getD d 0
  let r := x - segmentStart code bank d
  dataSymbolAt <|
    if isShaped w then
      let W := blockBits (nbitsOf w)
      155 * (r / W) + (if r % W < matcherBits (nbitsOf w) then 154 else (r % W - matcherBits (nbitsOf w)) / 4)
    else r / (2 * (nbitsOf w / 16))

end Sys2Proof.Machine
end

