-- ==== Sys2Proof/Machine/Sending.lean ====
section
/-! DEFINITION. The cell path from FMX to the line: cells dealt, formes framed, coded and mapped
(R17, R39, R40, R46, R52 to R67, R90, R130 to R142, R155 to R165, R192 to R200, R324). -/

namespace Sys2Proof.Machine

/-- The 2,000 payload bytes of a carrier sort (R156). -/
def sortBytes (S k : Nat) (payload : List Nat) : List Nat :=
  (List.range 125).flatMap fun row => slice payload ((row * S + k) * 16) 16

/-! ### Sending (R197, R199, R200, R324) -/

/-- An idle line cell. -/
def idleCell : List Nat := List.replicate 250 0

/-- Does this device set FAIS for flow `f` (R197)? -/
def Dev.faisTx (d : Dev) (f : Nat) : Bool := !(d.fmx.tx.sortsOf f).isEmpty && (!d.flowEn f || !d.delivers f)

/-- What a transmit galley says of its flows, fixed at its start: those that send FAIS, and those that are cipher-blank (R159,
R163, R197). -/
def Dev.galleyStat (d : Dev) : Dev :=
  let l := d.fmx.tx.flows
  d.modPath fun x => { x with fais := l.filter d.faisTx, blank := l.filter fun f => decide (2 ≤ d.txCipher f) }

/-- Do the sorts of flow `f` carry cells: no FAIS in this galley, and not cipher-blank (R197, R337)? -/
def Dev.carries (d : Dev) (f : Nat) : Bool := !d.path.fais.contains f && decide (d.txCipher f ≤ 1)

/-- The last payload bit of line cell `q` of carrier sort `k`, as a framed bit (R156, R199). -/
def cellEnd (S k q : Nat) : Nat := 8 * payloadByte S k (250 * q + 249) + 7

/-- The ADC or DAC samples, 256 in each ns, from the start of a forme of line engine `n` to the symbol that carries framed bit `x`
under a bank, at a symbol-rate code: a symbol of a subcarrier lasts 16 / B ns. (Log 60: DEDUCED) -/
def Dev.samplesToBit (d : Dev) (n code : Nat) (bank : List Nat) (x : Nat) : Nat :=
  4096 * symbolOfCoded code bank (codedPosition (d.get Reg.LE_FEC_CFG.CODE n) (d.unitsOf n) x) / gbd code

/-- The moment of the DAC sample scheduled for the last payload bit of line cell `q` of sort `s`, in the forme that starts at
`start` (R39, R40). (Log 60: DEDUCED) -/
def Dev.cellSent (d : Dev) (s q start : Nat) : Nat :=
  let n := s / 128
  start + d.samplesToBit n (d.get Reg.LE_TX_CFG.SYM_RATE n) (d.txBank n (d.txActive n)) (cellEnd (d.sortsOf n) (s % 128) q) / 256

/-- A cell takes its line header: LSEQ, and LATE by its residence up to the DAC sample at `edge` (R46, R199). The answer is the
250 bytes. (Log 60: DEDUCED) -/
def Dev.lineCell (d : Dev) (c : Cell) (edge : Nat) : List Nat × Dev :=
  let seq := Store.get (fun _ => 0) d.fmx.lseqTx c.flow
  let late := decide (bitsOf (d.localWord c.flow 1) 0 16 < edge - c.edge)
  let d := d.modFmx fun x => { x with lseqTx := Store.set (fun _ => 0) x.lseqTx c.flow ((seq + 1) % 256) }
  let d := d.flowCount64 c.flow 0
  let d := if late then d.flowCount c.flow 4 else d
  (bytesBE 2 (lineHeader true c.ptp late c.gap c.errored seq) ++ c.payload, d)

/-- Waiting cells of flow `f` become line cells, in order, at the positions of its member sorts `l` (R200). -/
def Dev.takeCells (d : Dev) (f : Nat) (l : List Nat) (start : Nat) : List (List Nat) × Dev :=
  let n := l.length
  let q := Store.get (fun _ => []) d.path.toLine f
  let d := d.modPath fun x => { x with toLine := Store.set (fun _ => []) x.toLine f (q.drop (8 * n)) }
  (q.take (8 * n)).foldl (fun (acc : List (List Nat) × Dev) c =>
    let (k, m) := cellPosition n acc.1.length
    let (bytes, d) := acc.2.lineCell c (acc.2.cellSent (l.getD m 0) k start)
    (acc.1 ++ [bytes], d)) ([], d)

/-- The cells that wait for a flow that sends none are discarded: DROP, and the next cell of the flow carries GAP (R199, R337). -/
def Dev.dropWaiting (d : Dev) (f : Nat) : Dev :=
  let q := Store.get (fun _ => []) d.path.toLine f
  let d := d.modPath fun x =>
    { x with toLine := Store.set (fun _ => []) x.toLine f [], gapNext := if q.isEmpty then x.gapNext else insertUp f x.gapNext }
  q.foldl (fun d _ => d.flowCount f 7) d

/-- The payload of member `i`'s sort: its eight line cells with the cell payloads as the cipher leaves them (R324). -/
def Dev.sortPayload (d : Dev) (f g r n : Nat) (cells : List (List Nat)) (i : Nat) : List Nat × Dev :=
  let mine := (List.range 8).map fun q => cells.getD (q * n + i) idleCell
  let (ct, d) := d.sealForme f g i r (mine.flatMap fun c => c.drop 2)
  (((List.range 8).flatMap fun q => (mine.getD q []).take 2 ++ slice ct (248 * q) 248), d)

/-- A sort's bytes put into the forme of its carrier. -/
def Dev.putSort (d : Dev) (s : Nat) (bytes : List Nat) : Dev :=
  d.modPath fun x =>
    let t := Store.get (fun _ => TxForme.reset) x.txFormes (s / 128)
    { x with txFormes := Store.put x.txFormes (s / 128) { t with sorts := Store.put t.sorts (s % 128) bytes } }

/-- A flow's cells dealt over its sorts in forme `r` of galley `g` (R200). -/
def Dev.dealFlow (d : Dev) (f g r start : Nat) : Dev :=
  let sorts := d.fmx.tx.sortsOf f
  let n := sorts.length
  let byMember := (insertAll (sorts.map fun s => memberOf (d.fmx.tx.word s) * 1024 + s) []).map (· % 1024)
  let (cells, d) := if d.carries f then d.takeCells f byMember start else ([], d.dropWaiting f)
  (List.range n).foldl (fun d i =>
    let (bytes, d) := d.sortPayload f g r n cells i
    d.putSort (byMember.getD i 0) bytes) d

/-- SORT_STAT of carrier `n`, one in every forme of a galley (R159, R163). -/
def Dev.sortStat (d : Dev) (n : Nat) : List Nat :=
  (List.range 128).map fun k =>
    let w := d.fmx.tx.word (n * 128 + k)
    if usedBit w then 0x80 + b1 (d.path.fais.contains (flowOf w)) * 0x40 + b1 (d.path.blank.contains (flowOf w)) * 0x20 else 0

/-- The tags area of carrier `n` (R164, R332). -/
def Dev.tagsArea (d : Dev) (n : Nat) : List Nat :=
  (List.range 128).flatMap fun k =>
    let t := Store.get (fun _ => []) d.vault.tagsOut (n * 128 + k)
    if t.isEmpty then List.replicate 16 0 else t

/-- The first `n` of some bytes, zeros after them where they are fewer. -/
def padTo (n : Nat) (l : List Nat) : List Nat := (l ++ List.replicate n 0).take n

/-- The overhead of forme `r` of galley `g` on carrier `n` (R158, R159). -/
def Dev.overhead (d : Dev) (n g r : Nat) : List Nat :=
  let (bdi, cause) := d.bdiNow n
  let body :=
    [(15 - r) * 16 + r, 1] ++ bytesBE 4 g ++ [b1 bdi * 128 + cause * 16, 0] ++ padTo 32 d.fmx.bsig ++ padTo 32 d.vault.ksig ++
    List.replicate 48 0 ++ d.sortStat n ++ List.replicate 768 0 ++
    (if r = 0 then d.tagsArea n else List.replicate 2048 0) ++ List.replicate 1022 0
  fas ++ body ++ bytesBE 2 (crc16 body)

/-- The bytes that carrier sorts put on the line, row by row (R156). -/
def TxForme.payload (t : TxForme) (S : Nat) : List Nat :=
  (List.range 125).flatMap fun row => (List.range S).flatMap fun k =>
    let b := Store.get (fun _ => []) t.sorts k
    if b.isEmpty then List.replicate 16 0 else slice b (16 * row) 16

/-- The framed bytes of a built forme as they are sent (R157). -/
def TxForme.wire (t : TxForme) (S : Nat) : List Nat := scramble (t.overhead ++ t.payload S)

/-- Does carrier `n` send data subcarriers: in ON, or in a ramp that takes them in (R75, R76)? -/
def Dev.sendsData (d : Dev) (n : Nat) : Bool := d.txState n == 4 || ((d.txState n == 3 || d.txState n == 5) && (d.le n).tx.rampData)

/-- Does forme 0 of the galley that has just begun carry the intensity pattern on carrier `n`: a sample galley of a TXPATH
calibration that measures there (R394)? -/
def Dev.patternOn (d : Dev) (n : Nat) : Bool :=
  d.get Reg.CAL_CMD_STAT.KIND 0 == 3 && d.get Reg.CAL_CMD_STAT.LE 0 == n && decide (d.calRun.sample = some d.tgrid)

/-- The framer opens a carrier's forme: overhead first, its sorts still empty. In PRBS mode 2 no framing is present (R90). A carrier
that sends no forme sends no BDI. (Log 176: DEDUCED) -/
def Dev.openForme (d : Dev) (n g r : Nat) : Dev :=
  let d := d.set Reg.FRM_GNUM_TX.GNUM n g
  if d.sendsData n then
    let (bdi, cause) := d.bdiNow n
    let d := (d.setB Reg.FRM_BDI_CTRL.TX n bdi).set Reg.FRM_BDI_CTRL.CAUSE n cause
    let oh := if d.get Reg.LE_TX_PRBS.MODE n = 2 then [] else d.overhead n g r
    d.modPath fun x => { x with txFormes := Store.put x.txFormes n { TxForme.reset with gnum := g, fnum := r, overhead := oh, pattern := r == 0 && d.patternOn n } }
  else
    let d := (d.setB Reg.FRM_BDI_CTRL.TX n false).set Reg.FRM_BDI_CTRL.CAUSE n 0
    (d.modPath fun x => { x with txFormes := Store.drop x.txFormes n }).modTx n fun t => { t with chain := [] }

/-- The next bits of a carrier's PRBS31 source (R90). (Log 175: DEDUCED) -/
def Dev.prbsBits (d : Dev) (n count : Nat) : List Bool × Dev :=
  let (l, r) := prbs31.bits count (d.le n).tx.prbs
  (l, d.modTx n fun t => { t with prbs := r })

/-- In PRBS mode 1 the source fills every sort of the forme, in the order of emission (R90). (Log 175: DEDUCED) -/
def Dev.prbsFill (d : Dev) (n : Nat) (t : TxForme) : TxForme × Dev :=
  let S := d.sortsOf n
  let (bits, d) := d.prbsBits n (16000 * S)
  let bytes := bytesOfBits bits
  ({ t with sorts := (List.range S).map fun k => (k, sortBytes S k bytes) }, d)

/-- The coded bits of a carrier's forme (R136, R137, R141, R142); the staircase's last block is kept for the next forme (R140). -/
def Dev.codeForme (d : Dev) (n : Nat) (framed : List Bool) : List Bool × Dev :=
  if d.trellis n then
    let blocks := stairForme (d.le n).tx.chain framed
    (trellisForme (stairOut blocks), d.modTx n fun t => { t with chain := blocks.getLast?.getD [] })
  else (ldpcForme (d.get Reg.LE_FEC_CFG.CODE n) (d.unitsOf n) framed, d)

/-- A forme whose sorts are filled goes on: coded, or replaced by the source in PRBS mode 2, and mapped onto the active bank (R17, R61,
R90). -/
def Dev.sendForme (d : Dev) (n : Nat) : Dev :=
  if d.sendsData n then
    let mode := d.get Reg.LE_TX_PRBS.MODE n
    let t := Store.get (fun _ => TxForme.reset) d.path.txFormes n
    let (t, d) := if mode = 1 then d.prbsFill n t else (t, d)
    let (coded, d) := if mode = 2 then d.prbsBits n (d.reqBits n) else d.codeForme n ((t.wire (d.sortsOf n)).flatMap bitsMSB)
    let subs := mapForme (d.get Reg.LE_TX_CFG.SYM_RATE n) (d.get Reg.LE_TX_PILOT.BOOST n) (sgn 8 (d.le n).tx.yEff) (d.txBank n (d.txActive n)) coded
    d.modPath fun x => { x with txFormes := Store.put x.txFormes n { t with coded := coded, subs := subs } }
  else d

/-- The power fraction at which a carrier leaves in this forme is kept; none while its DACs are squelched. -/
def Dev.keepFrac (d : Dev) (n : Nat) : Dev :=
  if d.flag Reg.LE_DAC_STAT.SQUELCH n then (if (d.le n).tx.fracs.isEmpty then d else d.modTx n fun t => { t with fracs := [] })
  else d.modTx n fun t => { t with fracs := (d.get Reg.LE_TX_STAT.POWER n :: t.fracs).take 32 }

/-- The policing buckets refilled (R243). -/
def Dev.refill (d : Dev) : Dev :=
  d.over d.fmx.tx.flows fun f d =>
    let n := (d.fmx.tx.sortsOf f).length
    d.modPath fun x => { x with bucket := Store.set (fun _ => 0) x.bucket f (min (128 * n) (Store.get (fun _ => 0) x.bucket f + 8 * n)) }

/-- Forme `r` of the open galley, which starts at `start`: ramps step, every carrier's forme is built, the tags that
forme 0 carries are gone (R164), the flows are dealt, the formes are coded and mapped, and the buckets refilled. (Log 60: DEDUCED) -/
def Dev.buildForme (d : Dev) (r start : Nat) : Dev :=
  let g := d.gnum
  let d := d.over allLe fun n d => if d.txState n = 3 || d.txState n = 5 then d.rampTo n start else d
  let d := onlyIf (r == 0) Dev.galleyStat d
  let d := d.over allLe fun n d => d.openForme n g r
  let d := onlyIf (r == 0) (fun d => d.modVault fun v => { v with tagsOut := [] }) d
  let d := d.over d.fmx.tx.flows fun f d => d.dealFlow f g r start
  (d.over allLe fun n d => (d.sendForme n).keepFrac n).refill

end Sys2Proof.Machine
end

