-- ==== Sys2Proof/Machine/Delivery.lean ====
section
/-! DEFINITION. The cell path from the line to FMX: formes released, decryption and verdicts
(R46, R192 to R203, R324 to R338, R353, R356). -/

namespace Sys2Proof.Machine

/-! ### Counts of a flow's delivery -/

/-- Has the galley in delivery released its last forme, so that it has been counted? -/
def Dev.galleyClosed (d : Dev) : Bool :=
  match d.path.released, d.vault.rxGalley with
  | some (g, r), some p => g == p && r == 15
  | _, _ => false

/-- The galley in delivery is errored for flow `f`; where it has been counted already, the errored galley is added (R180).
(Log 178: DEDUCED) -/
def Dev.flowBad (d : Dev) (f : Nat) : Dev :=
  if d.path.badFlows.contains f then d
  else
    let d := d.modPath fun x => { x with badFlows := insertUp f x.badFlows }
    if d.galleyClosed then d.modFpm f fun p => { p with eg := p.eg + 1 } else d

/-- The next delivered cell of flow `f` carries GAP (R201). -/
def Dev.gapAhead (d : Dev) (f : Nat) : Dev := d.modPath fun x => { x with gapOut := insertUp f x.gapOut }

/-- Cells discarded by CYP, counted in DISCARD (R334, R338, R355, R356). -/
def Dev.cypDiscard (d : Dev) (f n : Nat) : Dev := d.modCyp f fun x => { x with discard := capN 0xFFFFFFFF (x.discard + n) }

/-- A cell leaves CYP for FMX: nothing is delivered while dFAIS is declared (R197), which leaves a gap (R201); a delivery with GAP
makes the galley errored (R180). (Log 70: DEDUCED) -/
def Dev.passCell (d : Dev) (c : Cell) : Dev :=
  if (d.fdef c.flow 0).decl then d.gapAhead c.flow
  else
    let d := if c.gap || d.path.gapOut.contains c.flow then d.flowBad c.flow else d
    d.deliverCell c

/-! ### Verdicts on receive (R326 to R334, R338, R353, R356) -/

/-- The copy of galley `g`'s tag of flow `f`: from the lowest-numbered carrier whose TAGS area is VALID (R333). (Log 104: DEDUCED) -/
def Dev.tagCopy (d : Dev) (f g : Nat) : Option (List Nat) :=
  (tagPlacesOf (d.cyp f).rxSorts).findSome? fun p =>
    match (d.le (p / 128)).frm.tags.find? (fun (e : Nat × Option (List Nat)) => e.1 == g) with
    | some (_, some area) => some (slice area (16 * (p % 128)) 16)
    | _ => none

/-- Does the tag of galley `g` verify, over every sort-forme or over those of formes 0 to r − 1 (R327, R333, R355)? (Log 104: DEDUCED) -/
def Dev.tagVerifies (d : Dev) (f g : Nat) (formes : Nat) : Bool :=
  let x := d.cyp f
  match d.activeRx f, d.tagCopy f g with
  | some s, some t =>
    let k := d.slot s
    let tags := (x.rxTags.filter fun e => decide (e.1 % 16 < formes)).map (·.2)
    decide (tags.length = formes * x.rxN) && (formes < 16 || !x.rxAbsent) && d.vault.voidGalley != some g &&
      gcmTag (roundKeys k.key) (ivOf k.salt (x.rxCtr + 16 * x.rxN)) (aadGalley g f x.rxN tags) [] == t
  | _, _ => false

/-- A missing tag or a tag failure (R333). -/
def Dev.tagFailed (d : Dev) (f : Nat) : Dev :=
  let d := d.modCyp f fun x => { x with tagFail := capN 0xFFFFFFFF (x.tagFail + 1) }
  let d := d.flowBad f
  if since (d.cyp f).failAt d.now (sec 1) then (d.modCyp f fun x => { x with failAt := some d.now }).raise Ev.tagFail 0 0 f
  else d

/-- The cells held in verify-first leave after the verdict: those of formes below `formes` where it is good (R334, R356). -/
def Dev.freeHeld (d : Dev) (f : Nat) (ok : Bool) (formes : Nat) : Dev :=
  let l := (d.cyp f).held
  let d := d.modCyp f fun x => { x with held := [] }
  let good := if ok then l.filter fun e => decide (e.1 < formes) else []
  let d := d.cypDiscard f (l.length - good.length)
  let d := if l.length ≠ good.length then d.gapAhead f else d
  good.foldl (fun d e => d.passCell e.2.2) d

/-- Any SORT_STAT byte of some sorts in galley `g` has bit `b`; none where every carrier's copy is lost (R162, R163). -/
def Dev.statBit (d : Dev) (sorts : List Nat) (g b : Nat) : Option Bool :=
  let bits := sorts.filterMap fun s =>
    match (d.le (s / 128)).frm.copies.find? fun e => e.1 == g with
    | some (_, some c) => some (bitOf (c.sortStat.getD (s % 128) 0) b)
    | _ => none
  if bits.isEmpty then none else some (bits.any id)

/-- The sorts of flow `f` in the galley in delivery. (Log 182: DEDUCED) -/
def Dev.sortsIn (d : Dev) (f : Nat) : List Nat := let l := (d.cyp f).rxSorts; if l.isEmpty then d.fmx.rx.sortsOf f else l

/-- The verdict on galley `g` of flow `f` (R333, R334), and a received ERASE for it (R356). (Log 182: DEDUCED) -/
def Dev.verdict (d : Dev) (f g : Nat) : Dev :=
  let x := d.cyp f
  let part := match x.eraseAt with | some (eg, r) => if eg = g then some r else none | none => none
  let unkeyed := d.statBit (d.sortsIn f) g 5
  let blank := unkeyed.getD false && (part.isNone || part == some 0)
  let formes := part.getD 16
  let d :=
    if !d.policyRx f || x.rxN = 0 || (d.activeRx f).isNone || blank then d.freeHeld f false 16
    else if d.tagVerifies f g formes then
      ((d.modCyp f fun x => { x with tagOk := capN 0xFFFFFFFF (x.tagOk + 1) }).freeHeld f true formes)
    else (d.tagFailed f).freeHeld f false formes
  let failed := decide ((d.cyp f).tagFail ≠ x.tagFail)
  let raw := unkeyed.getD false || failed || (d.policyRx f && (d.activeRx f).isNone) || x.keySig || x.mismatch
  let ran := d.policyRx f && x.rxN != 0 && (d.activeRx f).isSome && !blank
  let d := d.modCyp f fun x =>
    { x with keyRaw := raw, keySig := false, rxTags := [], rxAbsent := false, eraseAt := none
             rxCtr := if ran then x.rxCtr + 16 * x.rxN + 1 else x.rxCtr }
  let d := match part, d.activeRx f with
    | some _, some s => (d.emptySlot s).modCyp f fun x => { x with stop := true, keySig := true }
    | _, _ => d
  if unkeyed.isNone && !raw then d.flowSkip f 1 else d.flowRaw f 1 raw

/-- The receive switches and adoptions due at galley `g` (R350, R353). (Log 101: DEDUCED) -/
def Dev.rxSwitchDue (d : Dev) (g : Nat) : Dev :=
  let due := d.vault.rxSw.filter fun e => e.galley == g
  let d := d.modVault fun v => { v with rxSw := v.rxSw.filter fun e => e.galley != g }
  due.foldl (fun d e =>
    let d := match d.activeRx e.flow with | some s => d.emptySlot s | none => d
    let s := rxSlot e.flow e.bank
    let ready := e.ready && (d.slot s).state == 3
    let d := if ready then d.setSlot s { d.slot s with state := 4, switchAt := 0 } else d
    let d := d.modCyp e.flow fun x => { x with rxCtr := 0, rxBank := e.bank, stop := false, mismatch := !ready }
    d.setB Reg.CYP_STAT.PEER_ALARM 0 false) d

/-- A checkpoint of the galley in delivery: where its counter or bank differs, they are adopted, counted and reported
(R350). (Log 99: DEDUCED, 101: DEDUCED) -/
def Dev.adoptCkpt (d : Dev) (f ctr bank : Nat) : Dev :=
  let s := rxSlot f bank
  let st := (d.slot s).state
  let fits := st = 2 || st = 3 || st = 4
  if (d.cyp f).rxCtr = ctr && d.activeRx f == some s then d.modCyp f fun x => { x with adopt := none }
  else
    let d := match d.activeRx f with | some o => if o = s then d else d.emptySlot o | none => d
    let d := if st = 2 || st = 3 then d.setSlot s { d.slot s with state := 4, switchAt := 0 } else d
    let d := d.modCyp f fun x => { x with rxCtr := ctr, rxBank := bank, adopt := none, mismatch := !fits, stop := x.stop && !fits }
    (d.bump Reg.CYP_CKPT_CNT.RESYNC 0).raise Ev.ckptResync 0 0 f

/-- Is MAX_NS below the skew between the carriers of flow `f` (R203)? -/
def Dev.skewOver (d : Dev) (f : Nat) : Bool := decide (1000 * d.fmx.maxNs < d.skewSpread (d.fmx.rx.carriersOf f))

/-- The raw FAIS and DESKEW conditions and the performance of flow `f` for galley `g` (R172, R180, R203). A flow without a receive sort
has neither condition. -/
def Dev.closeFlow (d : Dev) (f g : Nat) : Dev :=
  let sorts := d.fmx.rx.sortsOf f
  if sorts.isEmpty then (d.flowRaw f 0 false).flowRaw f 2 false
  else
    let d := match d.statBit sorts g 6 with
      | some b => d.flowRaw f 0 b
      | none => d.flowSkip f 0
    let d := d.flowRaw f 2 (d.path.overFlows.contains f || d.skewOver f)
    d.modFpm f fun p => { p with gal := p.gal + 1, eg := p.eg + b1 (d.path.badFlows.contains f) }

/-- Galley `g` has been delivered: every flow with a receive sort or a condition is counted. (Log 178: DEDUCED) -/
def Dev.closeFlows (d : Dev) (g : Nat) : Dev :=
  d.over (insertAll (d.flowDef.map fun e => e.1 / 3) d.fmx.rx.flows) fun f d => d.closeFlow f g

/-- `k` whole galleys of flow `f` passed without a forme: each is an errored galley (R180). (Log 178: DEDUCED) -/
def Dev.flowAbsent (d : Dev) (f k : Nat) : Dev := onlyIf (k != 0) (fun d => d.modFpm f fun p => { p with gal := p.gal + k, eg := p.eg + k }) d

/-- Whole galleys of flow `f` of which nothing arrived: the counter advances for each, and each tag is missing (R328,
R333). -/
def Dev.galleysMissed (d : Dev) (f k : Nat) : Dev :=
  let x := d.cyp f
  if k = 0 || !d.policyRx f || x.rxN = 0 || (d.activeRx f).isNone then d
  else
    let d := d.modCyp f fun x =>
      { x with rxCtr := x.rxCtr + k * (16 * x.rxN + 1), tagFail := capN 0xFFFFFFFF (x.tagFail + k - 1) }
    d.tagFailed f

/-- Delivery moves to galley `g`: the verdicts of the galley before, then switches, counters and members of this one. -/
def Dev.rxGalleyTo (d : Dev) (g : Nat) : Dev :=
  if d.vault.rxGalley = some g then d
  else
    let d := match d.vault.rxGalley with
      | some p =>
        let l := insertAll (d.vault.flows.map fun (e : Nat × CypFlow) => e.1) d.fmx.rx.flows
        let k := (g + pow2 32 - p) % pow2 32 - 1
        let d := d.over l fun f d => (d.verdict f p).galleysMissed f k
        let d := if d.galleyClosed then d else d.closeFlows p
        d.over d.fmx.rx.flows fun f d => d.flowAbsent f k
      | none => d
    let d := (d.modPath fun x => { x with badFlows := [], overFlows := [] }).rxSwitchDue g
    let d := d.over (insertAll (d.vault.flows.map fun (e : Nat × CypFlow) => e.1) (d.fmx.rx.flows.filter d.policyRx)) fun f d =>
      let sorts := d.fmx.rx.sortsOf f
      let d := d.modCyp f fun x => { x with rxN := sorts.length, rxSorts := sorts }
      match (d.cyp f).adopt with
      | some (ag, ctr, bank) => if ag = g then d.adoptCkpt f ctr bank else d
      | none => d
    d.modVault fun v => { v with rxGalley := some g, voidGalley := none }

/-! ### Release (R201, R202) -/

/-- The held forme of carrier `n` with these numbers. -/
def Dev.heldForme (d : Dev) (n g r : Nat) : Option RxForme :=
  d.path.rxFormes.find? fun e => e.le == n && e.gnum == g && e.fnum == r

/-- A member's sort-forme through CYP (R324, R334, R338): its eight cells as header and payload; none where it is absent.
(Log 59: DEDUCED) -/
def Dev.openForme8 (d : Dev) (f g r i s : Nat) : Option (List (Nat × List Nat) × RxForme) × Dev :=
  match d.heldForme (s / 128) g r with
  | none => (none, d.modCyp f fun x => { x with rxAbsent := x.rxAbsent || x.rxN != 0 })
  | some m =>
    let bytes := sortBytes (d.sortsOf (s / 128)) (s % 128) m.payload
    let hdr (q : Nat) : Nat := ofBytesBE (slice bytes (250 * q) 2)
    let body := (List.range 8).flatMap fun q => slice bytes (250 * q + 2) 248
    match d.policyRx f, d.activeRx f with
    | true, some k =>
      let key : KeySlot := d.slot k
      let v := (d.cyp f).rxCtr + 16 * i + r
      let (pt, tag) := gcmOpen key.key (ivOf key.salt v) (aadForme g f i r) body
      (some ((List.range 8).map fun q => (hdr q, slice pt (248 * q) 248), m),
        d.modCyp f fun x => { x with rxTags := Store.put x.rxTags (16 * i + r) tag })
    | _, _ => (some ((List.range 8).map fun q => (hdr q, slice body (248 * q) 248), m), d)

/-- The moment of the ADC sample that carries the last payload bit of line cell `q` of sort `s` in a received forme (R39, R46).
(Log 60: DEDUCED) -/
def Dev.cellHeard (d : Dev) (m : RxForme) (s q : Nat) : Nat :=
  let n := s / 128
  match (d.le n).rx.indexAt with
  | some t => t + (m.first + d.samplesToBit n (d.get Reg.LE_RX_CFG.SYM_RATE n) m.bank (cellEnd (d.sortsOf n) (s % 128) q)) / 256
  | none => m.at_

/-- One position of a flow, on sort `s` (R201): an absent one makes a gap, an idle one nothing, a VALID one a cell. A cell that CYP
discards leaves a gap, and an errored one makes the galley errored wherever it ends (R180). (Log 59: DEDUCED, 70: DEDUCED) -/
def Dev.rxCell (d : Dev) (f g r s : Nat) (x : Option (Nat × List Nat × Nat × Bool)) : Dev :=
  match x with
  | none => (d.gapAhead f).flowBad f
  | some (h, payload, edge, spoilt) =>
    if !bitOf h 15 then d
    else
      let seq := h % 256
      let e := Store.get (fun _ => 0) d.fmx.lseqRx f
      let gap := bitOf h 12 || (e != 0 && e != seq + 1)
      let d := d.modFmx fun y => { y with lseqRx := Store.set (fun _ => 0) y.lseqRx f ((seq + 1) % 256 + 1) }
      let keyed := d.policyRx f
      let cut := match (d.cyp f).eraseAt with | some (eg, er) => decide (eg = g ∧ er ≤ r) | none => false
      let c : Cell := ⟨f, 0, bitOf h 14, bitOf h 13, gap, bitOf h 11 || spoilt || d.fmx.badMap == some g, keyed && !d.verifyFirst f, payload, edge⟩
      let d := if c.errored then d.flowBad f else d
      if keyed && ((d.activeRx f).isNone || (d.cyp f).stop || cut) then (d.cypDiscard f 1).gapAhead f
      else if keyed && d.verifyFirst f then d.modCyp f fun y => { y with held := y.held ++ [(r, s, c)] }
      else d.passCell c

/-- The cells of flow `f` in forme `r` of galley `g`, in the order of positions. -/
def Dev.releaseFlow (d : Dev) (f g r : Nat) : Dev :=
  if !d.rxInService f then d.modFmx fun x => { x with lseqRx := Store.set (fun _ => 0) x.lseqRx f 0 }
  else
    let sorts := d.fmx.rx.sortsOf f
    let n := sorts.length
    let byMember := (insertAll (sorts.map fun s => memberOf (d.fmx.rx.word s) * 1024 + s) []).map (· % 1024)
    let (got, d) := (List.range n).foldl (fun (acc : List (Option (List (Nat × List Nat) × RxForme)) × Dev) i =>
      let (x, d) := acc.2.openForme8 f g r i (byMember.getD i 0)
      (acc.1 ++ [x], d)) ([], d)
    d.over (List.range (8 * n)) fun c d =>
      let s := byMember.getD (c % n) 0
      match got.getD (c % n) none with
      | none => d.rxCell f g r s none
      | some (cells, m) =>
        let (h, p) := cells.getD (c / n) (0, [])
        d.rxCell f g r s (some (h, p, d.cellHeard m s (c / n), m.bad.contains (s % 128)))

/-- The carriers that hold a sort in the receive applied map. -/
def Dev.rxCarriers (d : Dev) : List Nat := allLe.filter fun n => d.fmx.rx.map.any fun e => usedBit e.2 && e.1 / 128 == n

/-- When the first forme with these numbers arrived. -/
def Dev.firstArrival (d : Dev) (g r : Nat) : Option Nat :=
  match (d.path.rxFormes.filter fun e => e.gnum == g && e.fnum == r).map (·.at_) with
  | [] => none
  | t :: rest => some (rest.foldl min t)

/-- The formes with numbers `g` and `r` are released to reassembly; how long they were held is shown (R225). With the galley's last
forme its flows are counted, and the carriers are noted that did not deliver it (R179, R210). (Log 178: DEDUCED) -/
def Dev.release (d : Dev) (g r : Nat) : Dev :=
  let hold := match d.firstArrival g r with | some t => d.now - t | none => 0
  let d := (d.set Reg.FMX_DSK_HOLD.NOW_NS 0 (capN 0xFFFF hold)).set Reg.FMX_DSK_HOLD.PEAK_NS 0
    (max (d.get Reg.FMX_DSK_HOLD.PEAK_NS 0) (capN 0xFFFF hold))
  let d := d.rxGalleyTo g
  let d := d.over d.fmx.rx.flows fun f d => d.releaseFlow f g r
  let gone := (allLe.filter fun n => (d.heldForme n g r).isNone).map fun n => (g, n)
  let d := onlyIf (r == 15) (fun d => (d.closeFlows g).modPath fun x => { x with missed := (gone ++ x.missed).take 32 }) d
  d.modPath fun x =>
    { x with rxFormes := x.rxFormes.filter (fun e => !(e.gnum == g && e.fnum == r)), released := some (g, r) }

/-- Every carrier that holds a sort has delivered the forme: it is released. -/
def Dev.deskewRelease (d : Dev) (g r : Nat) : Dev :=
  let l := d.rxCarriers
  if !l.isEmpty && l.all fun n => (d.heldForme n g r).isSome then d.release g r else d

/-- The carriers whose forme has not come although they are aligned and without a defect. -/
def Dev.deskewLate (d : Dev) (g r : Nat) : List Nat :=
  (d.rxCarriers.filter fun n => (d.heldForme n g r).isNone).filter fun n => d.ga n && !d.anyDefect n

/-- A forme of galley `g` is late: its flows are marked, and the galley is counted in OVER once. -/
def Dev.deskewOver (d : Dev) (g r : Nat) : Dev :=
  let late := d.deskewLate g r
  let flows := late.foldl (fun l n => insertAll (d.fmx.rx.flowsOn n) l) []
  let first := !late.isEmpty && (d.path.overFlows.isEmpty || d.vault.rxGalley != some g)
  let d := d.rxGalleyTo g
  let d := if first then d.bump Reg.FMX_DSK_ERR.OVER 0 else d
  d.modPath fun x => { x with overFlows := insertAll flows x.overFlows }

/-- MAX_NS has passed since the first forme with these numbers arrived: it is released without those that are missing. A
carrier that is not excused makes raw DESKEW for the flows it carries (R202). -/
def Dev.deskewTimeout (d : Dev) (g r : Nat) : Dev :=
  match d.firstArrival g r with
  | none => d
  | some t => ((d.until (t + d.fmx.maxNs)).deskewOver g r).release g r

end Sys2Proof.Machine
end

