-- ==== Sys2Proof/Machine/Remap.lean ====
section
/-! DEFINITION. Bundle signalling: announcements, map switches in both directions, joining, planned switches, returns and
departures (R209 to R221). -/

namespace Sys2Proof.Machine

/-! ### Offers and identities (R207, R211) -/

/-- The number of the transmit galley that starts next. -/
def Dev.nextGnum (d : Dev) : Nat := if d.galleys = 0 then d.gnum else (d.gnum + 1) % pow2 32

/-- Is a bit-loading bank switch of carrier `n` pending in either direction? -/
def Dev.switchPending (d : Dev) (n : Nat) : Bool :=
  d.flag Reg.LE_TX_BL_CTRL.SWITCH n || d.flag Reg.LE_RX_BL_CTRL.SWITCH n || (d.le n).tx.switchAt.isSome || (d.le n).rx.switchAt.isSome

/-- Is the identity received on carrier `n` the bundle partner's? -/
def Dev.partnerOn_ (d : Dev) (n : Nat) : Bool :=
  !d.bit Reg.FMX_BND_STAT.FOREIGN 0 n && (d.le n).partner

/-- Does this device offer carrier `n` (R211)? A departure's withdrawal holds until the carrier's transmit leaves ON or its
receive side loses alignment. (Log 65: DEDUCED) -/
def Dev.offers (d : Dev) (n : Nat) : Bool :=
  d.ga n && d.partnerOn_ n && !d.switchPending n && !bitOf d.fmx.withdrawn n

/-- A mask of the carriers with a property. -/
def maskOfLe (p : Nat → Bool) : Nat := allLe.foldl (fun m n => m + b1 (p n) * pow2 n) 0

/-- The identity of an applied map under a home bank (R207). -/
def Dev.identOf (d : Dev) (bank : Nat) (m : PlacedMap) : Nat := mapId (d.homeId bank) m.map
def Dev.txIdent (d : Dev) : Nat := d.identOf d.homeTx d.fmx.tx

/-- Is a planned switch pending (R215)? -/
def Dev.plannedPending (d : Dev) : Bool := d.flag Reg.FMX_MAP_CTRL.COMMIT 0

/-- The bank that a planned switch makes home. -/
def Dev.plannedBank (d : Dev) : Nat := if d.plannedPending then d.fmx.plannedBank else d.shadow

/-- A planned switch ends with a result other than pending (R215). -/
def Dev.plannedEnd (d : Dev) (result : Nat) : Dev :=
  let d := ((d.set Reg.FMX_MAP_CTRL.RESULT 0 result).setB Reg.FMX_MAP_CTRL.COMMIT 0 false).modFmx fun x =>
    { x with plannedAt := none, plannedSaid := false }
  d.raise Ev.mapSwitched 0 0 result

/-- Both homes name the bank of the planned switch: it is done. (Log 68: DEDUCED) -/
def Dev.plannedCheck (d : Dev) : Dev :=
  if d.plannedPending && d.homeTx == d.fmx.plannedBank && d.homeRx == d.fmx.plannedBank then d.plannedEnd 1 else d

/-! ### Computation and announcement (R206, R212) -/

/-- PLACE runs on the changed inputs, and its result waits for the next freeze. A change during a countdown supersedes the
announcement before. -/
def Dev.placeCompute (d : Dev) : Dev :=
  match d.fmx.job with
  | none => d
  | some j =>
    let bank := if j.reason = reasonPlanned then d.plannedBank else d.homeTx
    let p := d.placed bank d.members d.fmx.excl
    d.modFmx fun x => { x with job := none, ann := some ⟨j.reason, p, j.since, none⟩ }

/-- SWITCH_IN of the announcement in galley `g`: 2 in galley A, 1 in galley A + 1, then 0. -/
def switchIn (a : Announce) (g : Nat) : Nat :=
  match a.galleyA with
  | none => 2
  | some A => if (g + pow2 32 - A) % pow2 32 = 0 then 2 else if (g + pow2 32 - A) % pow2 32 = 1 then 1 else 0

/-- The pending planned switch is announced once the partner is ready with the same shadow and no other announcement is
made or counts down (R215). -/
def Dev.plannedStart (d : Dev) : Dev :=
  if d.plannedPending && d.flag Reg.FMX_MAP_CTRL.PEER_READY 0 && d.homeTx != d.fmx.plannedBank &&
      d.get Reg.FMX_SHADOW_ID_PEER.ID 0 == d.homeId d.fmx.plannedBank && d.fmx.job.isNone && d.fmx.ann.isNone then
    d.startJob reasonPlanned
  else d

/-- The home identity of the shadow bank; while a planned switch is pending, of the bank that it makes home (R209, R215). -/
def Dev.shadowIdent (d : Dev) : Nat := d.homeId d.plannedBank

/-- The 32 bytes of BSIG for galley `g` (R209). -/
def Dev.bsigBytes (d : Dev) (g : Nat) : List Nat :=
  let own := d.txIdent
  let shadowId := d.shadowIdent
  let offers := maskOfLe d.offers
  let (members, excl, reason, sw, map, next, home) :=
    match d.fmx.ann with
    | some a =>
      let sw := switchIn a g
      if sw = 0 then (a.placed.members, a.placed.excl, 0, 0, a.placed.ident, a.placed.ident, d.homeId a.placed.home)
      else (a.placed.members, a.placed.excl, a.reason, sw, own, a.placed.ident, d.homeId d.homeTx)
    | none => (d.fmx.tx.members, d.fmx.tx.excl, 0, 0, own, own, d.homeId d.homeTx)
  [1, members, offers, excl, reason * 16 + sw, d.get Reg.FMX_BND_SW.TXN_TX 0, b1 d.plannedPending, 0] ++
    bytesBE 4 home ++ bytesBE 4 map ++ bytesBE 4 next ++ bytesBE 4 shadowId ++ List.replicate 8 0

/-- BSIG of galley `g` freezes: a new announcement begins here as galley A with the next TXN (R212), and one whose galley A + 2 this
is will switch there, whatever is computed until then; what is sent now is shown; a departure's withdrawal that has done its part ends.
(Log 64: DEDUCED, 181: DEDUCED) -/
def Dev.bsigFreeze (d : Dev) (g : Nat) : Dev :=
  let d := d.plannedStart
  let w := maskOfLe fun n => bitOf d.fmx.withdrawn n && d.txState n == 4 && d.ga n
  let d := d.modFmx fun x => { x with withdrawn := w }
  let d := match d.fmx.ann with
    | some a =>
      if a.galleyA.isNone then
        let d := d.set Reg.FMX_BND_SW.TXN_TX 0 (d.get Reg.FMX_BND_SW.TXN_TX 0 + 1)
        d.modFmx fun x => { x with ann := some { a with galleyA := some g }, plannedSaid := x.plannedSaid || a.reason == reasonPlanned }
      else d
    | none => d
  let b := d.bsigBytes g
  let due := match d.fmx.ann with | some a => if switchIn a g = 0 then some a else none | none => none
  let d := d.modFmx fun x => { x with bsig := b, switching := due }
  (d.set Reg.FMX_BND_SW.REASON_TX 0 (b.getD 4 0 / 16)).set Reg.FMX_BND_SW.SW_IN_TX 0 (b.getD 4 0)

/-- The flows newly shed, and those served again, under a new map. -/
def newlyShed (old new : PlacedMap) : List Nat := insertAll (new.shed.filter fun f => !old.shed.contains f) []

/-- The announced map becomes the transmit map (R216, R217). -/
def Dev.txMapTake (d : Dev) (a : Announce) : Dev :=
  let newly := newlyShed d.fmx.tx a.placed
  let d := d.modFmx fun x =>
    { x with tx := a.placed, ann := if x.ann == some a then none else x.ann, switching := none
             departs := x.departs.map fun e => if bitOf a.placed.excl e.1 && e.2.txAt.isNone then (e.1, { e.2 with txAt := some d.now }) else e }
  let d := if a.reason = reasonPlanned then d.set Reg.FMX_MAP_CTRL.HOME_TX 0 a.placed.home else d
  let d := d.set Reg.FMX_BND_STAT.EXCL_TX 0 a.placed.excl
  ((d.set Reg.FMX_REMAP_LAST.REASON 0 a.reason).set Reg.FMX_REMAP_LAST.SHED 0 newly.length).set
    Reg.FMX_REMAP_LAST.LEARN_US 0 (capN 0xFFFF ((d.now - a.since) / 1000))

/-- What a transmit map switch reports: the remap, the flows shed and served again, and the bundle up again (R218, R220). -/
def Dev.txMapSay (d : Dev) (old : PlacedMap) (a : Announce) : Dev :=
  let d := (d.bump Reg.FMX_REMAP_CNT.SWITCHES 0).raise Ev.remap 0 0 (a.reason * 256 + a.placed.excl)
  let d := d.over (newlyShed old a.placed) fun f d => d.raise Ev.shed 0 0 (0x8000 + f)
  let d := d.over (newlyShed a.placed old) fun f d => d.raise Ev.shed 0 0 f
  if d.fmx.down && !a.placed.map.isEmpty then (d.modFmx fun x => { x with down := false }).raise Ev.bundleDown 0 0 0 else d

/-- Under a new transmit map the flows with a policy have new sorts in the galley that starts (R325). -/
def Dev.txMapCyp (d : Dev) : Dev := d.over d.txPolicyFlows fun f d => d.txGalleyBegin f d.gnum

/-- Galley A + 2: FMX deals under the announced map (R212, R216, R218, R220). (Log 45: DESIGN CHOICE, 181: DEDUCED) -/
def Dev.txMapSwitch (d : Dev) : Dev :=
  match d.fmx.switching with
  | none => d
  | some a =>
    match a.galleyA with
    | none => d
    | some A =>
      if d.gnum ≠ (A + 2) % pow2 32 then d else ((d.txMapTake a).txMapCyp.txMapSay d.fmx.tx a).plannedCheck.recheckBounds

/-! ### Receiving BSIG (R210, R211, R213 to R215, R220) -/

/-- The BSIG copy of galley `g` on carrier `n`; none where it is LOST or has not been taken. -/
def Dev.bsigOn (d : Dev) (n g : Nat) : Option (List Nat) :=
  match (d.le n).frm.copies.find? fun e => e.1 == g with
  | some (_, some c) => some c.bsig
  | _ => none

/-- Does carrier `n`'s copy of galley `g` count as lost: marked LOST, or released without (R210)? -/
def Dev.copyLost (d : Dev) (n g : Nat) : Bool :=
  match (d.le n).frm.copies.find? fun e => e.1 == g with
  | some (_, c) => c.isNone
  | none => d.path.missed.contains (g, n)

/-- Does a BSIG carry a BVER that this device reads (R209)? -/
def bsigKnown (b : List Nat) : Bool := b.getD 0 0 == 1

/-- The fields of a BSIG. -/
def bsigWord (b : List Nat) (i : Nat) : Nat := ofBytesBE (slice b i 4)

/-- `FMX:MAP_MISMATCH` code 3, once for each change of the received HOME_ID (R220). -/
def Dev.homeMismatch (d : Dev) (id : Nat) : Dev :=
  if id = d.homeId d.homeRx then d.modFmx fun x => { x with badHome := none }
  else if d.fmx.badHome = some id then d
  else (d.modFmx fun x => { x with badHome := some id }).raise Ev.mapMismatch 0 0 3

/-- The EXCL bits of a received announcement are folded into the own mask (R205, R214, R218). (Log 66: DEDUCED) -/
def Dev.foldExcl (d : Dev) (reason excl : Nat) : Dev :=
  d.over allLe fun n d =>
    let own := bitOf d.fmx.excl n
    if (reason = reasonFail || reason = reasonLeave) && bitOf excl n && !own then d.carrierExcluded n reason
    else if (reason = reasonReturn || reason = reasonJoin) && !bitOf excl n && own && d.member n then
      (d.setExcl n false).startJob reason
    else d

/-- A received announcement is judged: its map computed and the switch armed, or `FMX:MAP_MISMATCH` code 1 (R213). -/
def Dev.judgeAnnounce (d : Dev) (g reason sw members excl next : Nat) : Dev :=
  let planned := reason == reasonPlanned
  let p := d.placed (if planned then d.plannedBank else d.homeRx) members excl
  let d := if planned then d.modFmx fun x => { x with plannedSaid := true } else d
  if p.ident = next then d.modFmx fun x => { x with arm := some ⟨(g + sw) % pow2 32, p, planned⟩ }
  else (d.modFmx fun x => { x with arm := none }).raise Ev.mapMismatch 0 0 1

/-- The map that is applied to received galley `g`. -/
def Dev.rxMapAt (d : Dev) (g : Nat) : PlacedMap × Bool :=
  match d.fmx.arm with
  | some a => if a.galley = g then (a.placed, a.planned) else (d.fmx.rx, false)
  | none => (d.fmx.rx, false)

/-- The MAP_ID check of galley `g` (R213). -/
def Dev.checkMapId (d : Dev) (g members excl id : Nat) : Dev :=
  let (m, planned) := d.rxMapAt g
  let own := d.identOf (if planned then d.plannedBank else d.homeRx) m
  let d := d.set Reg.FMX_MAP_ID_RX.ID 0 own
  if own = id then d
  else
    let d := if d.vault.rxGalley = some g then d.spoilHeld fun _ => true else d
    let d := ((d.modFmx fun x => { x with badMap := some g }).bump Reg.FMX_REMAP_CNT.MISMATCH 0).raise Ev.mapMismatch 0 0 2
    let p := d.placed d.homeRx members excl
    let q := d.placed d.plannedBank members excl
    let next := (g + 1) % pow2 32
    if p.ident = id then d.modFmx fun x => { x with arm := some ⟨next, p, false⟩ }
    else if (d.plannedPending || d.fmx.plannedSaid) && q.ident = id then d.modFmx fun x => { x with arm := some ⟨next, q, true⟩ }
    else d

/-- READY and SHADOW_ID of the partner (R215). -/
def Dev.peerReady (d : Dev) (ready : Bool) (shadowId : Nat) : Dev :=
  let d := (d.setB Reg.FMX_MAP_CTRL.PEER_READY 0 ready).set Reg.FMX_SHADOW_ID_PEER.ID 0 shadowId
  if d.plannedPending && ready && !d.fmx.plannedSaid && shadowId != d.homeId d.fmx.plannedBank then d.plannedEnd 2 else d

/-- The partner's JOIN bits on the members: two galleys in a row at 0 are a failure (R211, R218). -/
def Dev.countJoin (d : Dev) (join : Nat) : Dev :=
  d.over allLe fun n d =>
    if !d.member n then d
    else
      let k := if bitOf join n then 0 else Store.get (fun _ => 0) d.fmx.joinZero n + 1
      let d := d.modFmx fun x => { x with joinZero := Store.set (fun _ => 0) x.joinZero n k }
      if k = 2 then d.memberFail n else d

/-- A carrier that is offered and not yet a member, by the BSIG read on itself (R211). -/
def Dev.tryJoin (d : Dev) (n g : Nat) : Dev :=
  match d.bsigOn n g with
  | some b =>
    if bsigKnown b && !d.member n && d.offers n && bitOf (b.getD 2 0) n then
      if bsigWord b 8 = d.homeId d.homeRx then d.joinBundle n else d.homeMismatch (bsigWord b 8)
    else d
  | none => d

/-- A received galley applied under a map that excludes a departing carrier has arrived (R217). -/
def Dev.departArrived (d : Dev) (g : Nat) : Dev :=
  let excl := (d.rxMapAt g).1.excl
  d.modFmx fun x => { x with departs := x.departs.map fun e => if bitOf excl e.1 then (e.1, { e.2 with rxDone := true }) else e }

/-- What a BSIG of received galley `g` says is acted on (R210 to R215, R220). -/
def Dev.bsigTake (d : Dev) (g : Nat) (b : List Nat) : Dev :=
  let reason := b.getD 4 0 / 16
  let sw := b.getD 4 0 % 16
  let txn := b.getD 5 0
  let d := ((d.set Reg.FMX_BND_SW.TXN_RX 0 txn).set Reg.FMX_BND_SW.REASON_RX 0 reason).set Reg.FMX_BND_SW.SW_IN_RX 0 sw
  let d := d.modFmx fun x => { x with peer := some ⟨b.getD 1 0, b.getD 2 0, b.getD 3 0, bsigWord b 8, bsigWord b 12⟩ }
  let d := d.homeMismatch (bsigWord b 8)
  let d := d.peerReady (bitOf (b.getD 6 0) 0) (bsigWord b 20)
  let d :=
    if sw = 0 || d.fmx.annTxn = some txn then d
    else
      let d := d.modFmx fun x => { x with annTxn := some txn }
      (d.judgeAnnounce g reason sw (b.getD 1 0) (b.getD 3 0) (bsigWord b 16)).foldExcl reason (b.getD 3 0)
  let d := d.checkMapId g (b.getD 1 0) (b.getD 3 0) (bsigWord b 12)
  (d.departArrived g).countJoin (b.getD 2 0)

/-- The members' copies of galley `g` in hand that have not been compared yet: each that differs from the one taken is counted
(R210). -/
def Dev.bsigCompare (d : Dev) (copies : List (Nat × List Nat)) : Dev :=
  let new := copies.filter fun e => !d.fmx.bsigSeen.contains e.1
  let differ := (new.filter fun e => maskBytes bsigMask e.2 != maskBytes bsigMask d.fmx.bsigGot).length
  let d := if differ = 0 then d else d.addSat Reg.FMX_BSIG_CNT.DIFF 0 differ
  d.modFmx fun x => { x with bsigSeen := new.map (·.1) ++ x.bsigSeen }

/-- BSIG of received galley `g` is taken from the lowest-numbered member whose copy is there (R210). The galley's BSIG is lost once
every member's copy counts as lost, or with a BVER that is not read (R209); copies that come later are compared. Carriers that are
offered are read for the join rule. (Log 64: DEDUCED) -/
def Dev.bsigReceive (d : Dev) (g : Nat) : Dev :=
  let members := allLe.filter d.member
  let copies := members.filterMap fun n => (d.bsigOn n g).map fun b => (n, b)
  let d :=
    if members.isEmpty then d
    else if d.fmx.bsigAt = some g then (if d.fmx.bsigGot.isEmpty then d else d.bsigCompare copies)
    else
      match copies with
      | [] =>
        if members.all fun n => d.copyLost n g then
          (d.modFmx fun x => { x with bsigAt := some g, bsigGot := [], bsigSeen := [] }).bump Reg.FMX_BSIG_CNT.LOST 0
        else d
      | (n, b) :: _ =>
        let d := (d.modFmx fun x => { x with bsigAt := some g, bsigGot := b, bsigSeen := [n] }).bsigCompare copies
        if bsigKnown b then d.bsigTake g b else d.bump Reg.FMX_BSIG_CNT.LOST 0
  d.over allLe fun n d => d.tryJoin n g

/-- The armed map becomes the receive map of received galley `g` (R213, R217). -/
def Dev.rxMapTake (d : Dev) (a : RxArm) (g : Nat) : Dev :=
  let d := d.modFmx fun x => { x with rx := a.placed, arm := none }
  let d := if a.planned then d.set Reg.FMX_MAP_CTRL.HOME_RX 0 a.placed.home else d
  (d.set Reg.FMX_BND_STAT.EXCL_RX 0 a.placed.excl).departArrived g

/-- The flows of the old and of the present receive map take up what the carriers that carry them now say (R176, R181). -/
def Dev.rxMapReports (d : Dev) (old : PlacedMap) : Dev :=
  d.over (insertAll old.flows d.fmx.rx.flows) fun f d => (d.fdefReports f).flowPmMark f

/-- The armed switch takes effect on received galley `g` (R213, R215). -/
def Dev.rxMapSwitch (d : Dev) (g : Nat) : Dev :=
  match d.fmx.arm with
  | none => d
  | some a =>
    if a.galley ≠ g then d
    else ((d.watchRx d.fmx.rx.flows fun d => d.rxMapTake a g).rxMapReports d.fmx.rx).plannedCheck.recheckBounds

/-! ### Software's requests (R208, R215, R216, R221) -/

/-- The checks of a planned switch (R208): the lane-group rule takes in that a pair of groups begins at an even one. -/
def Dev.commitErrs (d : Dev) : List Err :=
  let b := d.shadow
  let named (f : Nat) : Nat := (d.membersOf b f).length
  failIf (allFlows.any fun f => usedBit (d.flowWord b f) && named f != nsortOf (d.flowWord b f)) .inconsistent ++
  failIf (allSorts.any fun s => usedBit (d.sortWord b s) && !usedBit (d.flowWord b (flowOf (d.sortWord b s)))) .inconsistent ++
  failIf (allFlows.any fun f => d.flowEn f && !usedBit (d.flowWord b f)) .state ++
  failIf (d.groupsOverfull b 1024 0 false || allFlows.any fun f => d.flowEn f && d.flowGroup f % 2 == 1 && decide (64 < nsortOf (d.flowWord b f)))
    .capacity ++
  failIf d.plannedPending .busy

/-- COMMIT: the shadow bank is locked and READY goes out. -/
def Dev.commitPlanned (d : Dev) : Dev :=
  let b := d.shadow
  ((d.setB Reg.FMX_MAP_CTRL.COMMIT 0 true).set Reg.FMX_MAP_CTRL.RESULT 0 4).modFmx fun x =>
    { x with plannedAt := some d.now, plannedSaid := false, plannedBank := b }

/-- The checks of CANCEL. (Log 68: DEDUCED) -/
def Dev.cancelErrs (d : Dev) : List Err := failIf (!d.plannedPending || d.fmx.plannedSaid) .state

/-- Ten seconds without READY (R215). (Log 68: DEDUCED) -/
def Dev.plannedTimeout (d : Dev) : Dev :=
  match d.fmx.plannedAt with
  | some t => if d.plannedPending && !d.fmx.plannedSaid then (d.until (t + sec 10)).plannedEnd 3 else d
  | none => d

/-- The checks of RETURN (R216, R221). -/
def Dev.returnErrs (d : Dev) (mask : Nat) : List Err :=
  failIf (mask != 0 && allLe.any fun n => bitOf mask n && !d.member n) .state ++
  failIf (mask != 0 && (match d.fmx.ann with | some a => a.galleyA.isSome | none => false)) .busy

/-- RETURN clears EXCL bits and starts an announcement. -/
def Dev.returnCarriers (d : Dev) (mask : Nat) : Dev :=
  if mask = 0 then d
  else (d.over (allLe.filter fun n => bitOf mask n) fun n d => d.setExcl n false).startJob reasonReturn

/-- The flows of a trial map whose sorts differ from those of the applied map, the shed ones apart. (Log 67: DEDUCED) -/
def movedFlows (old new : PlacedMap) : List Nat :=
  (insertAll new.flows old.flows).filter fun f => !new.shed.contains f && old.sortsOf f != new.sortsOf f

/-- PLACE_TRY (R221): PLACE against EXCL_TX or MASK. (Log 67: DEDUCED) -/
def Dev.placeTry (d : Dev) (mask : Nat) : Dev :=
  let p := d.placed d.homeTx d.members ((d.fmx.tx.excl) ||| mask)
  let d := (d.set Reg.FMX_PLACE_TRY.MASK 0 mask).setB Reg.FMX_PLACE_RES.DONE 0 true
  (d.set Reg.FMX_PLACE_RES.SHED 0 p.shed.length).set Reg.FMX_PLACE_RES.MOVED 0 (movedFlows d.fmx.tx p).length

/-- A departure completes when both its conditions hold (R217). -/
def Dev.departComplete (d : Dev) (n : Nat) : Dev :=
  if d.isDeparting n && d.departureMet n then d.completeDeparture n else d

/-- The receive condition is unmet 100 ms after the transmit switch: the departure completes (R217). -/
def Dev.departForced (d : Dev) (n : Nat) : Dev :=
  let x := Store.get (fun _ => (⟨none, false⟩ : Depart)) d.fmx.departs n
  match x.txAt with
  | some t =>
    if d.isDeparting n && !x.rxDone then ((d.until (t + ms 100)).completeDeparture n).raise Ev.departForced 0 n 0 else d
  | none => d

end Sys2Proof.Machine
end

