-- ==== Sys2Proof/Machine/Tympan.lean ====
section
/-! DEFINITION. Tympan: sources, servo and holdover, inputs and outputs, steps, the two-way exchange, asymmetry and the
span-transparent clock (R262 to R300). -/

namespace Sys2Proof.Machine

/-! ### Time and its frequency (R263, R264) -/

/-- The nominal INCR and its range. -/
def incrNominal : Nat := 0x2000000000
def incrMin : Nat := 137411465682
def incrMax : Nat := 137466441262

/-- The SEQ of the HDM time window advances (R294). -/
def Dev.windowSeq (d : Dev) : Dev := d.modTym fun x => { x with seq := (x.seq + 1) % pow2 32 }

/-- A new INCR waits for the next galley start, and the registers show it. -/
def Dev.setIncr (d : Dev) (v : Nat) : Dev :=
  (d.set64 Reg.TYM_INCR_LO.INCR_LO Reg.TYM_INCR_HI.INCR_HI 0 v).modTym fun x => { x with incrNext := some v }

/-- A log of changes, newest first, back to the value that was in force at moment `t`. -/
def keepSince (t : Nat) : List (Nat × Nat) → List (Nat × Nat)
  | [] => []
  | e :: rest => if e.1 ≤ t then [e] else e :: keepSince t rest

/-- The waiting INCR takes effect at a galley start; the values applied are kept for the mean of R271, which reaches back at most
3,610 s from the last exit from LOCKED. -/
def Dev.applyIncr (d : Dev) : Dev :=
  match d.tym.incrNext with
  | none => d
  | some v =>
    let back := d.tym.lockOut.getD d.now - sec 3610
    { d with incr := v, tym := { d.tym with incrNext := none, incrLog := (d.now, v) :: keepSince back d.tym.incrLog } }

/-- The fractional frequency of INCR in 2^-64. -/
def fracOfIncr (v : Nat) : Int := ((v : Int) - (incrNominal : Int)) * (pow2 27 : Int)

/-- A frequency offset in 2^-64 as 0.001 ppb. -/
def ppbOf (y : Int) : Int := y * 1000000000000 / (pow2 64 : Int)

/-! ### States and sources (R268, R269, R271) -/

/-- The source: 0 FREE, 1 EXT, 2 SPAN. -/
def Dev.src (d : Dev) : Nat := d.get Reg.TYM_CTRL.SRC 0
def Dev.tymState (d : Dev) : Nat := d.get Reg.TYM_STAT.STATE 0

/-- Is the selected source valid? -/
def Dev.srcValid (d : Dev) : Bool :=
  match d.src with
  | 1 => d.flag Reg.TYM_PPS_IN_STAT.PPS_OK 0
  | 2 => d.flag Reg.TYM_SPAN_STAT.VALID 0 && !d.flag Reg.TYM_STAT.ROLE_CONFLICT 0
  | _ => false

/-- The time-weighted sum of the INCR values applied from moment `a` to moment `b`, by the log of changes, newest first.
(Log 78: DEDUCED) -/
def incrArea (a : Nat) : Nat → List (Nat × Nat) → Nat
  | _, [] => 0
  | b, (t, v) :: rest => if b ≤ a then 0 else v * (b - max a (min t b)) + incrArea a (min t b) rest

/-- The mean INCR at which holdover freezes (R271): over AVG_S up to 10 s before the loss or up to the last exit from
LOCKED, within the locked time; the last INCR where less than 10 s of locked time lies before that. (Log 78: DEDUCED) -/
def Dev.holdoverIncr (d : Dev) : Nat :=
  let stop := match d.tym.lockOut with
    | some t => min t (d.now - sec 10)
    | none => d.now - sec 10
  let start := max d.tym.lockIn (stop - sec (d.get Reg.TYM_HOLD.AVG_S 0))
  let log := d.tym.incrLog ++ [(0, incrNominal)]
  if stop < d.tym.lockIn + sec 10 then d.tym.incrNext.getD d.incr else incrArea start stop log / (stop - start)

/-- The seconds spent in HOLDOVER since it was entered, and HOLD_S as it shows: those, or those of the last HOLDOVER (R271).
(Log 163: DESIGN CHOICE) -/
def Dev.holdSeconds (d : Dev) : Nat := capN 0xFFFFFFFF ((d.now - d.tym.holdAt) / sec 1)
def Dev.holdShown (d : Dev) : Nat := if d.tymState = 3 then d.holdSeconds else d.get Reg.TYM_HOLD_STAT.HOLD_S 0

/-- Tympan enters state `st`: `TYM:STATE` on a change; ACQUIRE takes the integral term from INCR; HOLDOVER freezes the
mean INCR (R269 to R271). -/
def Dev.enterTym (d : Dev) (st : Nat) : Dev :=
  let old := d.tymState
  if st = old then d
  else
    let d := if old = 2 then d.modTym fun x => { x with lockOut := some d.now } else d
    let d := if old = 3 then d.set Reg.TYM_HOLD_STAT.HOLD_S 0 d.holdSeconds else d
    let d := d.set Reg.TYM_STAT.STATE 0 st
    let d :=
      match st with
      | 1 => d.modTym fun x => { x with integ := fracOfIncr d.incr, lockRun := 0 }
      | 2 => d.modTym fun x => { x with everLocked := true, lockIn := d.now, lockOut := none }
      | 3 =>
        ((d.setIncr d.holdoverIncr).modTym fun x => { x with holdAt := d.now, holdSaid := false }).setS Reg.TYM_FREQ.PPB 0
          (ppbOf (fracOfIncr d.holdoverIncr))
      | _ => d
    (d.raise Ev.tymState 0 0 st).windowSeq

/-- The source's validity may have changed. (Log 77: DEDUCED) -/
def Dev.checkSource (d : Dev) : Dev :=
  let d := d.setB Reg.TYM_STAT.SRC_VALID 0 d.srcValid
  let st := d.tymState
  if d.srcValid then (if st = 0 ∨ st = 3 then d.enterTym 1 else d)
  else if st = 1 ∨ st = 2 then d.enterTym (if d.tym.everLocked then 3 else 0)
  else d

/-- Role conflict: both ends SPAN (R268). -/
def Dev.showRole (d : Dev) : Dev :=
  let both := d.src == 2 && d.get Reg.TYM_STAT.PEER_SRC 0 == 2 && d.tym.peerKnown
  if both = d.flag Reg.TYM_STAT.ROLE_CONFLICT 0 then d
  else (d.setB Reg.TYM_STAT.ROLE_CONFLICT 0 both).raise Ev.roleConflict 0 0 (b1 both)

/-- The role is judged anew, and the source's validity with it. -/
def Dev.checkRole (d : Dev) : Dev := d.showRole.checkSource

/-- A write of SRC took effect (R269): ACQUIRE for a valid source, else HOLDOVER from LOCKED and FREERUN otherwise; SRC 0
leaves FREERUN. `was` is the state before. (Log 77: DEDUCED) -/
def Dev.srcWritten (d : Dev) (was : Nat) : Dev :=
  let d := (d.modTym fun x => { x with everLocked := false, lockRun := 0, ppsNew := false }).windowSeq
  let d := d.showRole
  let d := d.setB Reg.TYM_STAT.SRC_VALID 0 d.srcValid
  if d.src = 0 then d.enterTym 0
  else if d.srcValid then
    (if was = 1 then (d.modTym fun x => { x with integ := fracOfIncr d.incr, lockRun := 0 }) else d).enterTym 1
  else d.enterTym (if was = 2 then 3 else 0)

/-- A write of `TYM_INCR_LO` applies it with the last INCR_HI (R295); a sum outside R264's range is rejected by the
caller. (Log 87: DEDUCED) -/
def Dev.incrWritten (d : Dev) : Dev :=
  let v := d.get64 Reg.TYM_INCR_LO.INCR_LO Reg.TYM_INCR_HI.INCR_HI 0
  (d.modTym fun x => { x with incrNext := some v }).setS Reg.TYM_FREQ.PPB 0 (ppbOf (fracOfIncr v))

/-! ### Steps (R275) -/

/-- The number of the galley in progress on the transmit grid. -/
def Dev.galleyNow (d : Dev) : Nat := d.galleys - 1

/-- A step by `delta` (2^-16 ns) is requested at galley `g`. -/
def Dev.requestStep (d : Dev) (g : Nat) (delta : Int) : Dev :=
  ((d.modTym fun x => { x with step := some ⟨g, delta⟩ }).setB Reg.TYM_STAT.STEP_PEND 0 true |>.setB Reg.TYM_ADJ_CMD.PEND 0 true).set
    Reg.TYM_STEP_GNUM.GNUM 0 g

/-- The first galley at which a step requested now can be made. -/
def Dev.stepGalley (d : Dev) : Nat := d.galleyNow + 4096

/-- The time in the ADJ registers, in 2^-16 ns. -/
def Dev.adjValue (d : Dev) : Int :=
  let s := d.get Reg.TYM_ADJ_SEC_LO.SEC_LO 0 + pow2 32 * d.get Reg.TYM_ADJ_SEC_HI.SEC_HI 0
  ((s * 1000000000 + d.get Reg.TYM_ADJ_NS.NS 0) * pow2 16 : Nat)

/-- The errors of a write of `TYM_ADJ_CMD`. -/
def Dev.adjErrs (d : Dev) (cmd : Nat) : List Err :=
  failIf (cmd == 3) .reserved ++ failIf (cmd != 0 && d.src != 0) .state ++
  failIf (cmd != 0 && d.tym.step.isSome) .busy

/-- An accepted SET or STEP (R275, R297). -/
def Dev.adjust (d : Dev) (cmd : Nat) : Dev :=
  let g := d.stepGalley
  if cmd = 1 then d.requestStep g (d.adjValue - stamp (d.timeAt (d.galleyAt g)))
  else if cmd = 2 then d.requestStep g (if d.flag Reg.TYM_ADJ_SEC_HI.SIGN 0 then -d.adjValue else d.adjValue)
  else d

/-- Device time moved by `delta` 2^-16 ns; it never falls below 0. -/
def Dev.shiftTime (d : Dev) (delta : Int) : Dev :=
  { d with dt := ((d.dt : Int) + delta * (pow2 16 : Int)).toNat }

/-- What is stored of a carrier in own time moves with a step of own time: m_rx by Δ and m_tx by −Δ, as R280 forms them
(R282). (Log 90: DEDUCED) -/
def SpanCar.shift (c : SpanCar) (delta : Int) : SpanCar :=
  { c with
    txMarks := c.txMarks.map fun e => (e.1, e.2 + delta)
    txOpen := c.txOpen.map fun e => (e.1, e.2 + delta)
    rxMarks := c.rxMarks.map fun e => (e.1, e.2.map (· + delta))
    mrx := c.mrx.map fun e => (e.1 + delta, e.2 + delta)
    mtx := c.mtx.map fun e => (e.1 + delta, e.2 - delta) }

/-- A step of own time moves θ with it, the times stored of the exchange and of the skews, and what 1PPS_IN expects
(R272, R282). (Log 90: DEDUCED) -/
def Dev.shiftStored (d : Dev) (delta : Int) : Dev :=
  let d := d.over allLe fun n d => d.modCar n fun c => c.shift delta
  let d := d.modTym fun x =>
    { x with
      thetas := x.thetas.map fun e => (e.1 + delta, e.2 + delta)
      peer := x.peer.map fun p => { p with at_ := p.at_ + delta }
      tcalAt := x.tcalAt.map (· + delta)
      ppsExp := x.ppsExp.map (· + delta)
      ppsCap := x.ppsCap.map (· + delta)
      ppsPrev := x.ppsPrev.map (· + delta) }
  d.modFmx fun x => { x with balls := x.balls.map fun b => (b.1, b.2.1, b.2.2.map (· + delta * 65536)) }

/-- The step is made at the start of its galley: device time, STEP_EPOCH, `TYM:STEP` and the window's SEQ. A galley
start already recorded at that instant takes the new time. -/
def Dev.makeStep (d : Dev) : Dev :=
  match d.tym.step with
  | none => d
  | some r =>
    let d := d.until (d.galleyAt r.galley)
    let at_ := d.galleyAt r.galley == d.now && d.galleys == r.galley + 1
    let d := (d.shiftTime r.delta).shiftStored r.delta
    let moved (t : Nat) : Nat := ((t : Int) + r.delta * (pow2 16 : Int)).toNat
    let d := if at_ then
        { d with
          tgrid := moved d.tgrid
          grid := match d.grid with | (start, t, v) :: rest => (start, moved t, v) :: rest | [] => [] }
      else d
    let d := { d.modTym fun x => { x with step := none, secAt := secOf d.time, ppsNew := false } with chime := { d.chime with noticeAt := 0 } }
    let d := (d.setB Reg.TYM_STAT.STEP_PEND 0 false).setB Reg.TYM_ADJ_CMD.PEND 0 false
    let e := (d.get Reg.TYM_STAT.STEP_EPOCH 0 + 1) % 256
    ((d.set Reg.TYM_STAT.STEP_EPOCH 0 e).raise Ev.tymStep 0 0 e).windowSeq

/-! ### Line fits -/

/-- `a / b` rounded to the nearest, halves up. (Log 83: DESIGN CHOICE) -/
def divNear (a b : Int) : Int := (2 * a + b) / (2 * b)


/-- The value at `x` of the straight line fitted to points (R281); the mean where all points share one abscissa. -/
def lineFitAt (pts : List (Int × Int)) (x : Int) : Int :=
  match pts with
  | [] => 0
  | (x0, y0) :: _ =>
    let n : Int := pts.length
    let p := pts.map fun q => (q.1 - x0, q.2 - y0)
    let sx := p.foldl (fun a q => a + q.1) 0
    let sy := p.foldl (fun a q => a + q.2) 0
    let sxx := p.foldl (fun a q => a + q.1 * q.1) 0
    let sxy := p.foldl (fun a q => a + q.1 * q.2) 0
    let den := n * sxx - sx * sx
    if den = 0 then y0 + sy / n
    else y0 + (sy * den + (n * sxy - sx * sy) * (n * (x - x0) - sx)) / (n * den)

/-- The slope of that line, as numerator and denominator. -/
def lineSlope (pts : List (Int × Int)) : Int × Int :=
  match pts with
  | [] => (0, 1)
  | (x0, y0) :: _ =>
    let n : Int := pts.length
    let p := pts.map fun q => (q.1 - x0, q.2 - y0)
    let sx := p.foldl (fun a q => a + q.1) 0
    let sy := p.foldl (fun a q => a + q.2) 0
    let sxx := p.foldl (fun a q => a + q.1 * q.1) 0
    let sxy := p.foldl (fun a q => a + q.1 * q.2) 0
    if n * sxx - sx * sx = 0 then (0, 1) else (n * sxy - sx * sy, n * sxx - sx * sx)

/-- θ predicted at a time (R281). -/
def Dev.thetaAt (d : Dev) (t : Int) : Int := lineFitAt d.tym.thetas t

/-! ### The servo (R270) -/

/-- π as 314159265358979323846 / 10^20. (Log 76: DESIGN CHOICE) -/
def pi20 : Int := 314159265358979323846

/-- The integral increment ki·x·T and the proportional term kp·x in 2^-64, for BW in 10 mHz, the offset in 2^-16 ns and T
in tenths of a second. (Log 76: DESIGN CHOICE) -/
def kiTerm (bw x tenths : Int) : Int :=
  4 * pi20 * pi20 * bw * bw * x * (pow2 48 : Int) * tenths / (10 ^ 40 * 10 ^ 4 * 10 ^ 9 * 10)
def kpTerm (bw x : Int) : Int := 28 * pi20 * bw * x * (pow2 48 : Int) / (10 ^ 20 * 10 ^ 3 * 10 ^ 9)

/-- One slew of the servo with offset `x` (2^-16 ns). (Log 76: DESIGN CHOICE) -/
def Dev.slew (d : Dev) (x tenths : Int) : Dev :=
  let bw : Int := d.get Reg.TYM_SERVO.BW 0
  let lim : Int := (d.get Reg.TYM_SERVO.SLEW_PPM 0 : Int) * (pow2 64 : Int) / 1000000
  let useF10 := d.src == 1 && d.flag Reg.TYM_EXT_CTRL.F10_EN 0 && d.flag Reg.TYM_PPS_IN_STAT.F10_OK 0
  let i := if useF10 then clampI (-lim) lim (-(d.tym.f10.getD 0 * (pow2 64 : Int) / 1000000000000))
    else clampI (-lim) lim (d.tym.integ - kiTerm bw x tenths)
  let y := clampI (-lim) lim (i - kpTerm bw x)
  let incr := clampI incrMin incrMax ((incrNominal : Int) + (y + (pow2 26 : Int)) / (pow2 27 : Int))
  ((d.modTym fun z => { z with integ := i }).setIncr incr.toNat).setS Reg.TYM_FREQ.PPB 0 (ppbOf y)

/-- The offset of device time from the source now, in 2^-16 ns: under EXT that of the last accepted edge (R270). -/
def Dev.servoOffset (d : Dev) : Int :=
  if d.src = 1 then
    let t := (d.tym.ppsCap.getD 0) - ofPs (d.get Reg.TYM_PPS_IN_DLY.PS 0)
    let s : Int := 1000000000 * (pow2 16 : Int)
    t - (t + s / 2) / s * s
  else d.thetaAt d.stampNow

/-- May the servo update (R270): in ACQUIRE or LOCKED, with no step pending, and under EXT with an edge accepted since the last
update? -/
def Dev.servoReady (d : Dev) : Bool :=
  (d.tymState == 1 || d.tymState == 2) && d.tym.step.isNone && ((d.src == 1 && d.tym.ppsNew) || d.src == 2)

/-- One servo update (R269, R270). -/
def Dev.servo (d : Dev) : Dev :=
  if d.servoReady then
    let x := d.servoOffset
    let d := d.modTym fun z => { z with ppsNew := false }
    let d := d.setS Reg.TYM_OFS.PS 0 (clampI (-2147483648) 2147483647 (toPs x))
    if (d.get Reg.TYM_SERVO.STEP_NS 0 : Int) * 65536 < x.natAbs then
      ((d.requestStep d.stepGalley (-x)).modTym fun z => { z with lockRun := 0 }).enterTym 1
    else
      let d := d.slew x (if d.src = 1 then 10 else 1)
      let near := decide (x.natAbs * 125 ≤ d.get Reg.TYM_LOCK.LOCK_PS 0 * 8192)
      let run := if near then d.tym.lockRun + 1 else 0
      let d := d.modTym fun z => { z with lockRun := run }
      if d.tymState = 1 ∧ 16 ≤ run then d.enterTym 2 else d
  else d

/-- HOLD_S reaches the limit, once in a HOLDOVER (R271). (Log 163: DESIGN CHOICE) -/
def Dev.holdExpired (d : Dev) : Dev :=
  if d.tymState == 3 && !d.tym.holdSaid then
    ((d.until (d.tym.holdAt + sec (60 * d.get Reg.TYM_HOLD.LIMIT_MIN 0))).modTym fun x => { x with holdSaid := true }).raise
      Ev.holdExpired 0 0 0
  else d

/-! ### Inputs (R272, R273) -/

/-- One second and the window of 1 µs, in 2^-16 ns. -/
def second16 : Int := 1000000000 * 65536
def window16 : Int := 1000 * 65536

/-- A capture written to a group of four registers. -/
def Dev.setCapture (d : Dev) (lo hi ns frac : Fld) (t : Int) : Dev :=
  let t := t.toNat
  let s := t / pow2 16 / 1000000000
  (((d.set lo 0 s).set hi 0 (s / pow2 32)).set ns 0 (t / pow2 16 % 1000000000)).set frac 0 (t % pow2 16)

/-- A fault of 1PPS_IN: counted and raised; the second in a row makes it, and the EXT source, invalid. (Log 79: DEDUCED) -/
def Dev.ppsFault (d : Dev) : Dev :=
  let d := (d.bump Reg.TYM_PPS_IN_STAT.FAULTS 0).raise Ev.ppsInFault 0 0 0
  let n := d.tym.ppsFaults + 1
  let d := d.modTym fun x => { x with ppsFaults := n }
  if 2 ≤ n then ((d.setB Reg.TYM_PPS_IN_STAT.PPS_OK 0 false).modTym fun x => { x with ppsRun := 0, ppsPrev := none }).checkSource
  else d

/-- Does `t` lie within 1 µs of one second after `a`? -/
def inWindow (a t : Int) : Bool := decide ((t - a - second16).natAbs ≤ window16.natAbs)

/-- A 1PPS_IN edge captured at `t` (2^-16 ns). (Log 79: DEDUCED) -/
def Dev.ppsEdge (d : Dev) (t : Int) : Dev :=
  let d := d.setCapture Reg.TYM_PPS_IN_CAP_SEC_LO.SEC_LO Reg.TYM_PPS_IN_CAP_SEC_HI.SEC_HI Reg.TYM_PPS_IN_CAP_NS.NS
    Reg.TYM_PPS_IN_CAP_FRAC.FRAC t
  let d := d.modTym fun x => { x with ppsCount := (x.ppsCount + 1) % 65536 }
  if d.flag Reg.TYM_PPS_IN_STAT.PPS_OK 0 then
    if inWindow (d.tym.ppsExp.getD t) t then
      d.modTym fun x => { x with ppsExp := some t, ppsCap := some t, ppsNew := true, ppsFaults := 0 }
    else d.ppsFault
  else
    let run := match d.tym.ppsPrev with
      | some a => if inWindow a t then d.tym.ppsRun + 1 else 1
      | none => 1
    let d := d.modTym fun x => { x with ppsPrev := some t, ppsRun := run }
    if 3 ≤ run then
      ((d.modTym fun x => { x with ppsExp := some t, ppsCap := some t, ppsNew := true, ppsFaults := 0 }).setB Reg.TYM_PPS_IN_STAT.PPS_OK 0 true).checkSource
    else d

/-- A window of 1PPS_IN passes without an edge: a fault, and the expectation advances by 1 s. (Log 79: DEDUCED) -/
def Dev.ppsWindow (d : Dev) : Dev :=
  if d.flag Reg.TYM_PPS_IN_STAT.PPS_OK 0 then
    let left := d.tym.ppsExp.getD d.stampNow + second16 + window16 - d.stampNow
    let d := d.wait (left / 65536 + 1).toNat
    (d.modTym fun x => { x with ppsExp := x.ppsExp.map (· + second16) }).ppsFault
  else d

/-- A ToD message (R272). -/
def Dev.todMessage (d : Dev) (m : TodMessage) : Dev :=
  if !m.sumOk then d.bump Reg.TYM_PPS_IN_STAT.TOD_ERR 0
  else if !m.timeEvent then d
  else
    let d := (d.modTym fun x => { x with todAt := d.now, todSaid := false }).setB Reg.TYM_PPS_IN_STAT.TOD_OK 0 true
    if d.flag Reg.TYM_EXT_CTRL.TOD_EN 0 && d.src == 1 then
      let cap := d.tym.ppsCap.getD d.stampNow
      let edge := (cap + second16 / 2) / second16 + (if d.flag Reg.TYM_EXT_CTRL.REFERS 0 then 1 else 0)
      let diff := (m.seconds : Int) - edge
      if diff = 0 then d.modTym fun x => { x with todDiff := 0 }
      else
        let n := d.tym.todDiff + 1
        if n < 3 then d.modTym fun x => { x with todDiff := n }
        else
          let d := (d.modTym fun x => { x with todDiff := 0 }).raise Ev.todFault 0 0 2
          if d.tym.step.isNone then d.requestStep d.stepGalley (diff * second16) else d
    else d

/-- No time event message for 3 s: `TYM:TOD_FAULT` code 1. -/
def Dev.todMissing (d : Dev) : Dev :=
  if d.flag Reg.TYM_EXT_CTRL.TOD_EN 0 && !d.tym.todSaid then
    let d := (d.until (d.tym.todAt + sec 3)).modTym fun x => { x with todSaid := true }
    (d.setB Reg.TYM_PPS_IN_STAT.TOD_OK 0 false).raise Ev.todFault 0 0 1
  else d

/-- The measurement of 10MHZ_IN over a second: `ppb3` is the oscillator's offset from it in 0.001 ppb. -/
def Dev.f10Measured (d : Dev) (ppb3 : Int) : Dev :=
  let ok := decide (ppb3.natAbs ≤ 10000000)
  let was := d.flag Reg.TYM_PPS_IN_STAT.F10_OK 0
  let d := (d.modTym fun x => { x with f10 := some ppb3 }).setB Reg.TYM_PPS_IN_STAT.F10_OK 0 ok
  if ok = was then d else d.raise Ev.f10Lost 0 0 (b1 was)

/-- A rising edge at TIMECAL_IN at `t`: captured and counted, or lost within 1 µs of the edge before (R273). -/
def Dev.timecal (d : Dev) (t : Int) : Dev :=
  let lost := match d.tym.tcalAt with | some a => decide (t < a + window16) | none => false
  let d := d.modTym fun x => { x with tcalAt := some t }
  if lost then d.bump Reg.TYM_TCAL_CNT.LOST 0
  else (d.setCapture Reg.TYM_TCAL_CAP_SEC_LO.SEC_LO Reg.TYM_TCAL_CAP_SEC_HI.SEC_HI Reg.TYM_TCAL_CAP_NS.NS
    Reg.TYM_TCAL_CAP_FRAC.FRAC t).bump Reg.TYM_TCAL_CNT.EDGES 0

/-! ### Outputs and the device second (R274) -/

/-- Is an output enabled and not squelched? -/
def Dev.outOn (d : Dev) (f : Fld) : Bool :=
  d.flag f 0 && !(d.flag Reg.TYM_OUT_CTRL.SQUELCH 0 && d.tymState == 0)

/-- Seconds of device time in 2^-32 ns. -/
def devSec (s : Nat) : Nat := s * 1000000000 * pow2 32

/-- Time runs on until device time reaches `goal`, in 2^-32 ns, and to the next whole second of device time. -/
def Dev.untilTime (d : Dev) (goal : Nat) : Dev :=
  if goal ≤ d.time then d
  else
    let d1 := d.wait (ceilDiv ((goal - d.time) * beatNs) d.incr)
    if d1.time < goal then d1.wait 1 else d1
def Dev.untilSecond (d : Dev) : Dev := d.untilTime (devSec (secOf d.time + 1))

/-- The time message of TOD_OUT that belongs to a second's edge of 1PPS_OUT0, at `edge`: after it, or before the next one where REFERS is
1, with its seconds, the UTC offset and its start (R274). -/
def Dev.todOut (d : Dev) (s : Nat) (edge : Int) : TodOut :=
  let utc := d.get Reg.TYM_UTC.UTC_OFS 0
  if d.flag Reg.TYM_EXT_CTRL.REFERS 0 then ⟨s + 1, utc, edge + second16 / 2⟩ else ⟨s, utc, edge + second16 / 10⟩

/-- What Tympan does at a whole second: the outputs' edges, the time message and vector 22. Time runs on to it, unless
it has been passed already. (Log 88: DEDUCED) -/
def Dev.tymSecond (d : Dev) : Dev :=
  let d := if d.tym.secAt < secOf d.time then d else d.untilSecond
  let d := d.modTym fun x => { x with secAt := secOf d.time }
  let s : Int := secOf d.time
  let edge (f : Fld) : Int := s * second16 - ofPs (d.getS f 0)
  let d := if d.outOn Reg.TYM_OUT_CTRL.PPS0 then d.modTym fun x => { x with pps0 := some (edge Reg.TYM_PPS_OUT0_OFS.OFS_PS) } else d
  let d := if d.outOn Reg.TYM_OUT_CTRL.PPS1 then d.modTym fun x => { x with pps1 := some (edge Reg.TYM_PPS_OUT1_OFS.OFS_PS) } else d
  let d := if d.outOn Reg.TYM_OUT_CTRL.TOD then d.modTym fun x => { x with tod := some (d.todOut s.toNat (edge Reg.TYM_PPS_OUT0_OFS.OFS_PS)) } else d
  d.sendVector 22

/-! ### The two-way exchange (R276 to R282) -/

/-- A delay term of carrier `n` (0 DAC, 1 TXB, 2 ADC, 3 RXB); none where unset (R299). (Log 17: DESIGN CHOICE) -/
def Dev.delayTerm (d : Dev) (n w : Nat) : Option Int :=
  let v := d.tab 0x42 0x01 n w
  if v = 0xFFFFFFFF then none else some v

/-- The transmit marker time of the galley now starting on carrier `n` (R276); none where a term is unset. -/
def Dev.txMarkTime (d : Dev) (n : Nat) : Option Int :=
  match d.delayTerm n 0, d.delayTerm n 1 with
  | some a, some b => some (stamp d.tgrid + ofPs (6000 + a + b))
  | _, _ => none

/-- At a galley start: the open marker of carrier `n` is judged by the galley that has ended, and a sample galley opens
the next (R278, R279); none is valid while a calibration holds the transmit side (R391). -/
def Dev.txMarker (d : Dev) (n gnum : Nat) : Dev :=
  let on := d.txState n == 4 && d.get Reg.LE_TX_PRBS.MODE n != 2 && !(d.le n).tx.calHold
  let c := d.car n
  let c := match c.txOpen with
    | some m => { c with txOpen := none, txMarks := if on then (m :: c.txMarks).take 32 else c.txMarks }
    | none => c
  let c := if gnum % 256 = 0 && on then { c with txOpen := (d.txMarkTime n).map fun t => (gnum, t) } else c
  d.modCar n fun _ => c

/-- The value kept for galley `g` in a list of markers. -/
def markOf (l : List (Nat × Int)) (g : Nat) : Option Int := (l.find? fun e => e.1 == g).map (·.2)

/-- A receive marker of partner galley `gnum` on carrier `n`, at `t` where its record is valid: one of a sample galley is
kept, without a time where R278 makes it invalid, and a valid one enters m_rx when the partner's TX_TIME is there. (Log 89: DEDUCED) -/
def Dev.rxMarker (d : Dev) (n gnum : Nat) (t : Option Int) : Dev :=
  if gnum % 256 = 0 then
    let good := (d.delayTerm n 2).isSome && (d.delayTerm n 3).isSome && !d.bit Reg.FMX_BND_STAT.FOREIGN 0 n
    let t := if good then t else none
    d.modCar n fun c =>
      { c with
        rxMarks := ((gnum, t) :: c.rxMarks).take 32
        mrx := match t, c.peerTx.find? fun e => e.2.1 == gnum with | some t, some e => (t, t - e.2.2) :: c.mrx | _, _ => c.mrx }
  else d

/-- The step of the partner takes hold of the series and of θ once its instant has come (R282). (Log 90: DEDUCED) -/
def Dev.applyPeerStep (d : Dev) : Dev :=
  match d.tym.peer with
  | none => d
  | some p =>
    if p.done || decide (d.stampNow < p.at_) then d
    else
      let d := d.over allLe fun n d => d.modCar n fun c =>
        { c with
          mrx := c.mrx.map fun e => (e.1, e.2 - p.delta)
          mtx := c.mtx.map fun e => (e.1, e.2 + p.delta)
          peerTx := c.peerTx.map fun e => (e.1, e.2.1, e.2.2 + p.delta) }
      d.modTym fun x => { x with peer := some { p with done := true }, thetas := x.thetas.map fun e => (e.1, e.2 - p.delta) }

/-- A servo update, under SPAN on the partner's scale now in force (R270, R282). -/
def Dev.servoUpdate (d : Dev) : Dev := (if d.src = 2 then d.applyPeerStep else d).servo

/-- θ is invalid and shown so (R298). -/
def Dev.thetaInvalid (d : Dev) : Dev :=
  let d := d.setB Reg.TYM_SPAN_STAT.VALID 0 false
  ((d.set Reg.TYM_SPAN_OFS_HI.THETA 0 0x80000000).set Reg.TYM_SPAN_OFS_LO.THETA 0 0).modTym fun x => { x with contribRun := 0 }

/-- The series of carrier `n` discarded. -/
def Dev.clearSeries (d : Dev) (n : Nat) : Dev :=
  d.modCar n fun c => { c with mrx := [], mtx := [], peerTx := [], rxMarks := [] }

/-- All exchange history discarded, with `TYM:SPAN_RESTART` (R282). -/
def Dev.spanRestart (d : Dev) : Dev :=
  let d := d.over allLe fun n d => d.clearSeries n
  let d := (d.modTym fun x => { x with thetas := [], peer := none, contribAt := none }).thetaInvalid
  (d.raise Ev.spanRestart 0 0 1).checkSource

/-- A step notice: galley `g`, Δ and the epoch after it (R282). -/
def Dev.peerNotice (d : Dev) (g : Nat) (delta : Int) (epoch : Nat) : Dev :=
  if d.tym.peer.any fun p => p.epoch == epoch then d
  else
    let d := d.applyPeerStep
    let recent := (allLe.flatMap fun n => (d.car n).peerTx).filter fun e => decide (d.now ≤ e.1 + sec 1)
    if recent.length < 2 then
      (d.spanRestart).modTym fun x => { x with peer := some ⟨d.stampNow, 0, epoch, true⟩ }
    else
      let at_ := lineFitAt (recent.map fun e => (sgn 32 ((e.2.1 + pow2 32 - g) % pow2 32), e.2.2)) 0 + d.thetaAt d.stampNow
      d.modTym fun x => { x with peer := some ⟨at_, delta, epoch, false⟩ }

/-- a_user in force in ps (R285). -/
def Dev.asymUser (d : Dev) : Int :=
  if d.tym.mismatch && d.src == 2 then -d.getS Reg.TYM_ASYM_PEER.PS 0 else d.getS Reg.TYM_ASYM_USER.PS 0

/-- ASYM_USER of the two ends compared: a mismatch is raised when it begins. -/
def Dev.checkAsym (d : Dev) : Dev :=
  let bad := d.tym.peerKnown && decide (d.getS Reg.TYM_ASYM_USER.PS 0 + d.getS Reg.TYM_ASYM_PEER.PS 0 ≠ 0)
  let was := d.tym.mismatch
  let d := d.modTym fun x => { x with mismatch := bad }
  if bad && !was then d.raise Ev.asymMismatch 0 0 0 else d

/-- Does carrier `n` meet the test of R281? -/
def Dev.contributes (d : Dev) (n : Nat) : Bool :=
  decide (2 ≤ (d.car n).mrx.length) && decide (2 ≤ (d.car n).mtx.length) && (d.car n).adisp.isSome

/-- Insertion into a rising list of integers, and the median. -/
def insertInt (x : Int) : List Int → List Int
  | [] => [x]
  | a :: rest => if x ≤ a then x :: a :: rest else a :: insertInt x rest
def medianInt (l : List Int) : Int :=
  let s := l.foldl (fun a x => insertInt x a) []
  let n := s.length
  if n % 2 = 1 then s.getD (n / 2) 0 else (s.getD (n / 2 - 1) 0 + s.getD (n / 2) 0) / 2

/-- The mean of integers. -/
def meanInt (l : List Int) : Int := if l.isEmpty then 0 else l.foldl (· + ·) 0 / l.length

/-- One carrier's θ and mean path delay at the interval's midpoint. -/
def Dev.carrierTheta (d : Dev) (n : Nat) (mid : Int) : Int × Int :=
  let c := d.car n
  let r := lineFitAt c.mrx mid
  let t := lineFitAt c.mtx mid
  ((r - t) / 2 + (ofPs d.asymUser + c.adisp.getD 0) / 2, (r + t) / 2)

/-- A 64-bit signed value clamped and written to a LO and HI pair. -/
def Dev.setPair (d : Dev) (lo hi : Fld) (v : Int) : Dev :=
  d.set64 lo hi 0 (unsgn 64 (clampI (-(2 ^ 63 - 1)) (2 ^ 63 - 1) v))

/-- A carrier rejected in an interval: counted, and raised at most once per minute. (Log 81: DEDUCED) -/
def Dev.rejectCarrier (d : Dev) (n : Nat) : Dev :=
  let w := d.tab 0x42 0x02 n 4
  let d := d.setTab 0x42 0x02 n 4 (capN 65535 (w / pow2 16 + 1) * pow2 16 + 2)
  if since (d.car n).rejectAt d.now (sec 60) then
    (d.modCar n fun c => { c with rejectAt := some d.now }).raise Ev.carReject 0 n 0
  else d

/-- The interval's result with the mean θ_i of the carriers kept (R281). (Log 82: DEDUCED) -/
def Dev.intervalResult (d : Dev) (mid th md : Int) (kept : List Nat) : Dev :=
  let run := d.tym.contribRun + 1
  let d := d.modTym fun x =>
    { x with thetas := ((mid, th) :: x.thetas).filter (fun e => decide (mid - second16 < e.1)), contribAt := some d.now, contribRun := run, mpd := md }
  let d := d.set Reg.TYM_SPAN_STAT.CONTRIB 0 (maskOf fun n => kept.contains n)
  let d := d.setPair Reg.TYM_SPAN_MPD_LO.MPD Reg.TYM_SPAN_MPD_HI.MPD md
  if d.flag Reg.TYM_SPAN_STAT.VALID 0 || decide (10 ≤ run) then
    let d := d.setB Reg.TYM_SPAN_STAT.VALID 0 true
    let d := d.setPair Reg.TYM_SPAN_OFS_LO.THETA Reg.TYM_SPAN_OFS_HI.THETA (d.thetaAt d.stampNow)
    let (a, b) := lineSlope d.tym.thetas
    d.setS Reg.TYM_SPAN_RATE.PPB 0 (clampI (-2147483648) 2147483647 (a * 1000000000000 / b))
  else d

/-- The loss of θ: no contributor within LOSS_MS. -/
def Dev.thetaLoss (d : Dev) : Dev :=
  match d.tym.contribAt with
  | some t => if t + ms (d.get Reg.TYM_SPAN_CTRL.LOSS_MS 0) < d.now && d.flag Reg.TYM_SPAN_STAT.VALID 0 then d.thetaInvalid else d
  | none => d

/-- One 100 ms interval (R281): its samples are those whose own time lies in it. (Log 82: DEDUCED) -/
def Dev.spanInterval (d : Dev) : Dev :=
  let d := (d.until (d.tym.intervalAt + ms 100)).applyPeerStep
  let lo := d.stampNow - second16 / 10
  let d := d.over allLe fun n d => d.modCar n fun c =>
    { c with mrx := c.mrx.filter fun e => decide (lo ≤ e.1), mtx := c.mtx.filter fun e => decide (lo ≤ e.1) }
  let mid := d.stampNow - second16 / 20
  let met := allLe.filter d.contributes
  let th := met.map fun n => (n, d.carrierTheta n mid)
  let med := medianInt (th.map (·.2.1))
  let lim := ofPs (d.get Reg.TYM_SPAN_CTRL.REJECT_PS 0)
  let bad := (th.filter fun e => decide (lim < ((e.2.1 - med).natAbs : Int))).map (·.1)
  let kept := met.filter fun n => !bad.contains n
  let d := d.over allLe fun n d => d.setTab 0x42 0x02 n 4 (d.tab 0x42 0x02 n 4 / pow2 16 * pow2 16 + b1 (kept.contains n))
  let d := d.over bad fun n d => d.rejectCarrier n
  let d := d.set Reg.TYM_SPAN_STAT.REJECTED 0 (maskOf fun n => bad.contains n)
  let good := th.filter fun e => kept.contains e.1
  let thi := meanInt (good.map (·.2.1))
  let d := if kept.isEmpty then ((d.set Reg.TYM_SPAN_STAT.CONTRIB 0 0).modTym fun x => { x with contribRun := 0 }).thetaLoss
    else d.intervalResult mid thi (meanInt (good.map (·.2.2))) kept
  let d := d.over good.unzip.1 fun n d =>
    d.setTab 0x42 0x02 n 0 (unsgn 32 (toPs ((d.carrierTheta n mid).1 - thi)))
  let d := d.over allLe fun n d => d.modCar n fun c => { c with mrx := [], mtx := [] }
  (d.modTym fun x => { x with intervalAt := d.now }).checkSource

/-! ### Asymmetry (R283, R284) -/

/-- The wavelength of a frequency in MHz, in 10^-6 nm, less 1,550 nm. -/
def lambdaU (mhz : Nat) : Int := (299792458000000000 / mhz : Nat) - 1550000000

/-- The least-squares fit of order 1 or 2 to points (u, D) by Cramer's rule; a zero determinant is no fit. (Log 83: DESIGN CHOICE) -/
def polyFit (order : Nat) (p : List (Int × Int)) : AsymFit :=
  let s (k : Nat) : Int := p.foldl (fun a q => a + q.1 ^ k) 0
  let t (k : Nat) : Int := p.foldl (fun a q => a + q.1 ^ k * q.2) 0
  if order = 1 then
    ⟨s 0 * s 2 - s 1 * s 1, t 0 * s 2 - s 1 * t 1, s 0 * t 1 - s 1 * t 0, 0⟩
  else
    let det3 (a b c e f g h i j : Int) : Int := a * (f * j - g * i) - b * (e * j - g * h) + c * (e * i - f * h)
    ⟨det3 (s 0) (s 1) (s 2) (s 1) (s 2) (s 3) (s 2) (s 3) (s 4),
     det3 (t 0) (s 1) (s 2) (t 1) (s 2) (s 3) (t 2) (s 3) (s 4),
     det3 (s 0) (t 0) (s 2) (s 1) (t 1) (s 3) (s 2) (t 2) (s 4),
     det3 (s 0) (s 1) (t 0) (s 1) (s 2) (t 1) (s 2) (s 3) (t 2)⟩

/-- The integral of the fit from `a` to `b` (10^-6 nm from 1,550 nm), in 2^-16 ns: D is in 0.01 ps/nm. (Log 83: DESIGN CHOICE) -/
def AsymFit.integral (f : AsymFit) (a b : Int) : Int :=
  let n := 6 * f.c0 * (b - a) + 3 * f.c1 * (b ^ 2 - a ^ 2) + 2 * f.c2 * (b ^ 3 - a ^ 3)
  n * 8192 / (6 * f.det * 100000000 * 125)

/-- A second enters a point's history, with its value or none; a change of frequency restarts it (R284). -/
def pointNext (h : List (Option Int)) (sameF : Bool) (v : Nat) (avg : Nat) : List (Option Int) :=
  ((if v = 0x80000000 then none else some (sgn 32 v)) :: if sameF then h else []).take avg

/-- A point of the fit: a wavelength and the mean of its history's values; none where the frequency is not known or no value is. -/
def pointOf (f : Nat) (h : List (Option Int)) : Option (Int × Int) :=
  let vs := h.filterMap id
  if f = 0 ∨ vs.isEmpty then none else some (lambdaU f, meanInt vs)

/-- The dispersion term of carrier `n` under a fit: 0 within 1 GHz without a fit (R283). -/
def Dev.dispTerm (d : Dev) (n : Nat) (f : Option AsymFit) : Option Int :=
  let own := d.get Reg.LE_RX_FREQ.FREQ_MHZ n
  let peer := d.tab 0x42 0x02 n 3
  if own = 0 ∨ peer = 0 then none
  else if ((own : Int) - (peer : Int)).natAbs ≤ 1000 then some 0
  else f.map fun f => f.integral (lambdaU own) (lambdaU peer)

/-- The number of distinct values of a list. -/
def distinct (l : List Int) : Nat := (l.foldl (fun a x => if a.contains x then a else x :: a) []).length

/-- The once-per-second fit (R284). (Log 82: DEDUCED) -/
def Dev.asymFit (d : Dev) : Dev :=
  let avg := d.get Reg.TYM_ASYM_CTRL.AVG_S 0
  let d := d.over allLe fun n d =>
    let own := d.get Reg.LE_RX_FREQ.FREQ_MHZ n
    let peer := d.tab 0x42 0x02 n 3
    d.modCar n fun c =>
      { c with
        ownD := pointNext c.ownD (own == c.ownF) (d.get Reg.LE_CDE_EST.D_EST n) avg
        peerD := if d.tym.peerKnown then pointNext c.peerD (peer == c.peerF) (d.tab 0x42 0x02 n 2) avg else c.peerD
        ownF := own
        peerF := peer }
  let ownPts := allLe.filterMap fun n => pointOf (d.car n).ownF (d.car n).ownD
  let peerPts := allLe.filterMap fun n => pointOf (d.car n).peerF (d.car n).peerD
  let order := d.get Reg.TYM_ASYM_CTRL.ORDER 0
  let f := polyFit order (ownPts ++ peerPts)
  let ok := decide (order + 1 ≤ distinct (ownPts.map (·.1))) && decide (order + 1 ≤ distinct (peerPts.map (·.1))) && f.det != 0
  let d :=
    if ok then
      let d := d.modTym fun x => { x with fit := some f }
      let d := (d.setB Reg.TYM_SPAN_STAT.FIT_VALID 0 true).setS Reg.TYM_FIT_C0.C0 0 (divNear f.c0 f.det)
      let d := (d.setS Reg.TYM_FIT_C1.C1 0 (divNear (f.c1 * 100000000) f.det)).setS Reg.TYM_FIT_C2.C2 0 (divNear (f.c2 * 10 ^ 16) f.det)
      if d.flag Reg.TYM_SPAN_STAT.ASYM_STALE 0 then (d.setB Reg.TYM_SPAN_STAT.ASYM_STALE 0 false).raise Ev.asymStale 0 0 0 else d
    else if d.flag Reg.TYM_SPAN_STAT.ASYM_STALE 0 then d
    else (d.setB Reg.TYM_SPAN_STAT.ASYM_STALE 0 true).raise Ev.asymStale 0 0 1
  d.over allLe fun n d =>
    let a := d.dispTerm n d.tym.fit
    (d.modCar n fun c => { c with adisp := a }).setTab 0x42 0x02 n 1 (unsgn 32 (toPs (a.getD 0)))

/-! ### The span-transparent clock (R255, R267, R287 to R291) -/

/-- What the parser makes of a frame (R288): unparsed, passed, or an event message with the places of its PTP header and
of its UDP checksum. -/
inductive PtpKind where
  | unparsed
  | passed
  | event (ptp : Nat) (udp : Option Nat)
deriving DecidableEq, Repr

/-- Two bytes of a frame, most significant first. -/
def be16 (f : List Nat) (i : Nat) : Nat := f.getD i 0 * 256 + f.getD (i + 1) 0

/-- Is this the TPID of a VLAN tag? -/
def isTag (t : Nat) : Bool := t == 0x8100 || t == 0x88A8 || t == 0x9100

/-- The PTP header at `p`, with the frame's FCS in its last four bytes. -/
def ptpAt (f : List Nat) (p : Nat) (udp : Option Nat) : PtpKind :=
  if f.getD (p + 1) 0 % 16 ≠ 2 ∨ 1 < f.getD (p + 1) 0 / 16 ∨ f.length < p + be16 f (p + 2) + 4 then .unparsed
  else if f.getD p 0 % 16 ≤ 3 then .event p udp
  else .passed

/-- The UDP header at `u`. -/
def udpAt (f : List Nat) (u : Nat) : PtpKind :=
  if be16 f (u + 2) = 319 then ptpAt f (u + 8) (some (u + 6))
  else if be16 f (u + 2) = 320 then .passed
  else .unparsed

/-- The parser of R288. (Log 84: PRESUMED) -/
def ptpParse (f : List Nat) : PtpKind :=
  let o := if isTag (be16 f 12) then (if isTag (be16 f 16) then 20 else 16) else 12
  let t := be16 f o
  let ip := o + 2
  if t = 0x88F7 then ptpAt f ip none
  else if t = 0x0800 then
    if f.getD ip 0 / 16 = 4 ∧ 5 ≤ f.getD ip 0 % 16 ∧ be16 f (ip + 6) % 16384 = 0 ∧ f.getD (ip + 9) 0 = 17 then
      udpAt f (ip + 4 * (f.getD ip 0 % 16))
    else .unparsed
  else if t = 0x86DD then
    if f.getD ip 0 / 16 = 6 ∧ f.getD (ip + 6) 0 = 17 then udpAt f (ip + 40) else .unparsed
  else .unparsed

/-- The correctionField of the PTP header at `p`, signed. -/
def corrField (f : List Nat) (p : Nat) : Int := sgn 64 (ofBytesBE (slice f (p + 8) 8))

/-- Bytes of a list replaced from place `i`. -/
def patch (f : List Nat) (i : Nat) (b : List Nat) : List Nat := f.take i ++ b ++ f.drop (i + b.length)

/-- A 16-bit one's complement sum folded. -/
def fold16 (s : Nat) : Nat := let a := s % 65536 + s / 65536; a % 65536 + a / 65536

/-- The UDP checksum updated for a change of four words; 0 stays 0 (R290). (Log 84: PRESUMED) -/
def udpUpdate (hc : Nat) (old new : List Nat) : Nat :=
  if hc = 0 then 0
  else
    let s := (65535 - hc) + ((List.range 4).foldl (fun a k => a + (65535 - be16 old (2 * k)) + be16 new (2 * k)) 0)
    let r := 65535 - fold16 (fold16 s)
    if r = 0 then 65535 else r

/-- The frame with a new correctionField, its UDP checksum updated, and its FCS correct if and only if it was (R290). -/
def withCorr (f : List Nat) (p : Nat) (udp : Option Nat) (cf : Int) : List Nat :=
  let old := slice f (p + 8) 8
  let new := bytesBE 8 (unsgn 64 cf)
  let g := patch f (p + 8) new
  let g := match udp with
    | some u => patch g u (bytesBE 2 (udpUpdate (be16 f u) old new))
    | none => g
  let n := f.length - 4
  let fcs := ofBytesLE (f.drop n) ^^^ crc32 (f.take n) ^^^ crc32 (g.take n)
  g.take n ++ bytesLE 4 fcs

/-- The modulus of the edited correctionField, 2^14 s in 2^-16 ns (R289), and M(t). -/
def corrModulus : Int := 2 ^ 14 * 10 ^ 9 * 2 ^ 16
def corrM (t : Int) : Int := t % corrModulus

/-- The payloads of the cells that carry a frame (R255). -/
def framePayloads : Nat → List Nat → Bool → List (List Nat)
  | 0, _, _ => []
  | fuel + 1, f, first =>
    if f.length ≤ 246 then
      [bytesBE 2 (b1 first * pow2 15 + pow2 14 + (f.length - 1)) ++ f ++ List.replicate (246 - f.length) 0]
    else (bytesBE 2 (b1 first * pow2 15 + 245) ++ f.take 246) :: framePayloads fuel (f.drop 246) false

def frameCells (f : List Nat) : List (List Nat) := framePayloads (f.length / 246 + 1) f true

/-- Cells of flow `f` whose payloads are `old`, in a row among the flow's cells, edited by `edit` at their place in the
frame; a removed cell leaves GAP to the flow's next. (Log 86: DESIGN CHOICE) -/
def editRun (f : Nat) (old : List (List Nat)) (edit : Nat → Cell → Option Cell) (l : List Cell) : List Cell :=
  let mine := l.filter fun c => c.flow == f
  match (List.range mine.length).find? fun i => ((mine.drop i).take old.length).map (·.payload) == old with
  | none => l
  | some i =>
    (l.foldl (fun (a : List Cell × Nat × Bool) c =>
      if c.flow ≠ f then (a.1 ++ [c], a.2)
      else
        let j := a.2.1
        if i ≤ j ∧ j < i + old.length then
          match edit (j - i) c with
          | some c' => (a.1 ++ [c'], j + 1, a.2.2)
          | none => (a.1, j + 1, true)
        else (a.1 ++ [{ c with gap := c.gap || a.2.2 }], j + 1, false)) ([], 0, false)).1

/-- Does removing a frame leave no later cell of the flow to carry GAP? (Log 86: DESIGN CHOICE) -/
def runIsLast (f : Nat) (old : List (List Nat)) (l : List Cell) : Bool :=
  let mine := l.filter fun c => c.flow == f
  (mine.drop (mine.length - old.length)).map (·.payload) == old

/-- A frame discarded by the transparent clock: the event at most once per second for each code (R291). -/
def Dev.tcDiscarded (d : Dev) (code : Nat) : Dev :=
  let last := Store.get (fun _ => 0) d.tym.tcDiscards code
  if last = 0 ∨ last + sec 1 ≤ d.now + 1 then
    (d.modTym fun x => { x with tcDiscards := Store.set (fun _ => 0) x.tcDiscards code (d.now + 1) }).raise Ev.tcDiscard 0 0 code
  else d

/-- Is flow `f` of TYPE 2, and the transparent clock enabled? -/
def Dev.tcOn (d : Dev) (f : Nat) : Bool := d.flag Reg.TYM_TC_CTRL.EN 0 && typeOf (d.flowWord d.homeTx f) == 2

/-- The first of the cells of flow `f` in a queue, in a row, whose payloads are `old`. -/
def runFirst (f : Nat) (old : List (List Nat)) (l : List Cell) : Option Cell :=
  let mine := l.filter fun c => c.flow == f
  ((List.range mine.length).find? fun i => ((mine.drop i).take old.length).map (·.payload) == old).bind fun i => mine[i]?

/-- The edge that the host lanes reported for a cell of flow `f`, received or sent, and the group it was on (R255). -/
def Dev.ptpEdge (d : Dev) (sent : Bool) (f seq : Nat) : Option (Nat × PtpReport) :=
  (d.flowGroups f).findSome? fun g =>
    ((d.grp g).reports.find? fun r => r.sent == sent && r.flow == f && r.seq == seq).map fun r => (g, r)

/-- The plane times of an edge (R267): ingress before the receive delay, departure after the transmit delay. -/
def Dev.ingressTime (d : Dev) (e : Nat × PtpReport) : Int := e.2.time - ofPs (d.getJ Reg.HLN_LANE_DLY.RX_PS e.1 e.2.lane)
def Dev.departureTime (d : Dev) (e : Nat × PtpReport) : Int := e.2.time + ofPs (d.getJ Reg.HLN_LANE_DLY.TX_PS e.1 e.2.lane)

/-- A frame of flow `f` at ingress, its cells waiting for the line (R287 to R290). (Log 86: DESIGN CHOICE) -/
def Dev.ptpIngress (d : Dev) (f : Nat) (frame : List Nat) : Dev :=
  let old := frameCells frame
  let q := Store.get (fun _ => []) d.path.toLine f
  match runFirst f old q with
  | none => d
  | some first =>
    if !d.tcOn f || !first.ptp then d
    else
      match ptpParse frame, d.ptpEdge false f first.seq with
      | .unparsed, _ => d.bump Reg.TYM_TC_UNPARSED.FRAMES 0
      | .event p u, some e =>
        let cf := corrField frame p
        if 4096 * 1000000000 * 65536 ≤ cf.natAbs then
          let last := runIsLast f old q
          let d := d.modPath fun x =>
            { x with
              toLine := Store.set (fun _ => []) x.toLine f (editRun f old (fun _ _ => none) q)
              gapNext := if last then insertUp f x.gapNext else x.gapNext }
          (d.bump Reg.TYM_TC_DISC.RANGE 0).tcDiscarded 1
        else
          let new := frameCells (withCorr frame p u (cf - corrM (d.ingressTime e)))
          let q' := editRun f old (fun i c => some { c with payload := new.getD i c.payload }) q
          d.modPath fun x => { x with toLine := Store.set (fun _ => []) x.toLine f q' }
      | _, _ => d

/-- Does a departure at `t` fall within the guard after the partner's step (R291)? -/
def Dev.stepGuard (d : Dev) (t : Int) : Bool :=
  match d.tym.peer with
  | some p => decide (p.at_ ≤ t) && decide (t < p.at_ + d.tym.mpd + 100000 * 65536)
  | none => false

/-- The cells of flow `f` that wait for its groups' blocks, in SEQ order from cell `s` on as far as they follow. -/
def Dev.egressFrom (d : Dev) (f s n : Nat) : List Cell :=
  let mine := (d.flowGroups f).flatMap fun g => (Store.get (fun _ => []) d.path.toHost g).filter fun c => c.flow == f
  (List.range n).filterMap fun j => mine.find? fun c => c.seq == (s + j) % 65536

/-- The first cell of a frame of flow `f` at egress, its cells waiting on the flow's group or split between a pair's two (R244). -/
def Dev.egressFirst (d : Dev) (f : Nat) (old : List (List Nat)) : Option Cell :=
  let mine := (d.flowGroups f).flatMap fun g => (Store.get (fun _ => []) d.path.toHost g).filter fun c => c.flow == f
  mine.find? fun c => (d.egressFrom f c.seq old.length).map (·.payload) == old

/-- The `n` cells of flow `f` from SEQ `s` on, edited where they wait for a block, or removed; after a removal the flow's next cell
carries GAP. (Log 86: DESIGN CHOICE) -/
def Dev.editEgress (d : Dev) (f s n : Nat) (edit : Nat → Cell → Option Cell) : Dev :=
  let place (c : Cell) : Nat := (c.seq + 65536 - s) % 65536
  let gone := (edit 0 ⟨f, s, false, false, false, false, false, [], 0⟩).isNone
  let next := !(d.egressFrom f ((s + n) % 65536) 1).isEmpty
  let each (c : Cell) : Option Cell :=
    if c.flow ≠ f then some c
    else if place c < n then edit (place c) c
    else some { c with gap := c.gap || (gone && place c == n) }
  let d := d.over (d.flowGroups f) fun g d => d.modPath fun x =>
    { x with toHost := Store.set (fun _ => []) x.toHost g ((Store.get (fun _ => []) x.toHost g).filterMap each) }
  d.modPath fun x => { x with gapOut := if gone && !next then insertUp f x.gapOut else x.gapOut }

/-- A frame of flow `f` at egress, its cells waiting for blocks (R287, R289, R291). (Log 85: DESIGN CHOICE, 86: DESIGN CHOICE) -/
def Dev.ptpEgress (d : Dev) (f : Nat) (frame : List Nat) : Dev :=
  let old := frameCells frame
  match d.egressFirst f old with
  | none => d
  | some first =>
    if !d.tcOn f || !first.ptp then d
    else
      let d := d.applyPeerStep
      match ptpParse frame, d.ptpEdge true f first.seq with
      | .unparsed, _ => d.bump Reg.TYM_TC_UNPARSED.FRAMES 0
      | .event p u, some e =>
        let t := d.departureTime e
        let drop (d : Dev) : Dev := d.editEgress f first.seq old.length fun _ _ => none
        if !d.flag Reg.TYM_SPAN_STAT.VALID 0 then ((drop d).bump Reg.TYM_TC_DISC.NO_OFFSET 0).tcDiscarded 3
        else if d.stepGuard t then ((drop d).bump Reg.TYM_TC_DISC.STEP 0).tcDiscarded 2
        else
          let x := corrField frame p + corrM (t - d.thetaAt t)
          let x := if x < -(corrModulus / 2) then x + corrModulus else x
          let x := if corrModulus / 2 ≤ x then x - corrModulus else x
          let new := frameCells (withCorr frame p u x)
          let d := d.editEgress f first.seq old.length fun i c => some { c with payload := new.getD i c.payload }
          let d := d.set64 Reg.TYM_TC_CORR_LO.CORR Reg.TYM_TC_CORR_HI.CORR 0
            (d.get64 Reg.TYM_TC_CORR_LO.CORR Reg.TYM_TC_CORR_HI.CORR 0 + 1)
          (d.set Reg.TYM_TC_LAST.RES 0 d.fresh).drawn
      | _, _ => d

end Sys2Proof.Machine
end

