-- ==== Sys2Proof/Machine/Chime.lean ====
section
/-! DEFINITION. The chime channel: packets, preambles, lock, pending packets and their sending, hellos and partner absence
(R301 to R315, R319 to R323), and the identity rule (R21). -/

namespace Sys2Proof.Machine

/-! ### Packets (R303 to R311) -/

/-- The message types of R310. -/
def tyHello : Nat := 1
def tyReport : Nat := 2
def tyNotice : Nat := 3
def tyPropose : Nat := 4
def tyAnswer : Nat := 5
def tySnr : Nat := 6
def tyTransfer : Nat := 7
def tyReceipt : Nat := 8

/-- The bytes of a packet: header, payload and PCRC (R304). -/
def packetBytes (type le epoch seq : Nat) (payload : List Nat) : List Nat :=
  let h := [type, 0x10, le, epoch] ++ bytesBE 2 seq ++ bytesBE 2 payload.length
  let h := h ++ bytesBE 2 (crc16 h)
  h ++ payload ++ bytesBE 4 (crc32 (h ++ payload))

/-- Does the header decide for a reception: HCRC, CVER and LEN (R305)? -/
def headerOk (b : List Nat) : Bool :=
  decide (ofBytesBE (slice b 8 2) = crc16 (b.take 8)) && b.getD 1 0 / 16 == 1 && decide (ofBytesBE (slice b 6 2) ≤ 496)

/-- Is the packet whole, with PCRC holding (R305)? -/
def payloadOk (b : List Nat) : Bool :=
  let n := ofBytesBE (slice b 6 2)
  b.length == 14 + n && decide (ofBytesBE (slice b (10 + n) 4) = crc32 (b.take (10 + n)))

/-- The payload of a packet. -/
def payloadOf (b : List Nat) : List Nat := slice b 10 (ofBytesBE (slice b 6 2))

/-- The 24-bit number of a packet: epoch and SEQ (R309). -/
def packetNumber (b : List Nat) : Nat := ofBytesBE (slice b 3 3)

/-- The duration of a packet with `len` payload bytes, in ns (R303). -/
def packetNs (len : Nat) : Nat := 20480 + ((14 + len) * 8 + 6) * 100

/-- The order of priority of R311. -/
def chimeOrder : List Nat := [tyNotice, tyReport, tyAnswer, tyPropose, tyReceipt, tyTransfer, tyHello, tySnr]

/-- A packet becomes pending on line engine `n`; it replaces a pending one of its type. (Log 91: DEDUCED) -/
def Dev.chimePend (d : Dev) (n type : Nat) (payload : List Nat) : Dev :=
  d.modChm n fun c => { c with pend := Store.put c.pend type payload }

/-- A pending packet withdrawn. -/
def Dev.chimeDrop (d : Dev) (n type : Nat) : Dev := d.modChm n fun c => { c with pend := Store.drop c.pend type }

/-- The pending packet of highest priority; nothing but a HELLO before the first HELLO (R311, R313). -/
def LeChm.nextPacket (c : LeChm) : Option (Nat × List Nat) :=
  (chimeOrder.filter fun t => c.helloSent || t == tyHello).findSome? fun t => c.pend.find? fun e => e.1 == t

/-- The chime becomes free and the next packet begins: at least 2 µs after the packet before it (R303, R309, R311).
(Log 91: DEDUCED, 185: DESIGN CHOICE) -/
def Dev.chimeSend (d : Dev) (n : Nat) : Dev :=
  if !d.permits n then d
  else
    match (d.le n).chm.nextPacket with
    | none => d
    | some (type, payload) =>
      let d := d.until (d.le n).chm.freeAt
      let epoch := d.get Reg.LE_CHM_SEQ_TX.EPOCH n
      let seq := d.get Reg.LE_CHM_SEQ_TX.SEQ n
      let b := packetBytes type n epoch seq payload
      let d := (d.chimeDrop n type).modChm n fun c =>
        { c with
          helloSent := c.helloSent || type == tyHello
          idle := (c.idle + (d.now + 2000 - c.freeAt) / chipNs) % idlePeriod
          freeAt := d.now + packetNs payload.length + 2000
          sent := b
          chips := packetChips b }
      let d := (d.set Reg.LE_CHM_SEQ_TX.SEQ n (seq + 1)).set Reg.LE_CHM_SEQ_TX.EPOCH n (if seq = 65535 then epoch + 1 else epoch)
      let d := d.bump Reg.LE_CHM_TXCNT.SENT n
      if type = tyTransfer then
        { d with chime := { d.chime with xfers := match d.chime.xfers with
            | x :: rest => (if x.le = n then { x with sentAt := d.now } else x) :: rest
            | [] => [] } }
      else d

/-! ### Reception (R302, R305 to R309) -/

/-- Does the receiver demodulate the chime: SIGNAL or a later state? -/
def Dev.hears (d : Dev) (n : Nat) : Bool := decide (2 ≤ d.rxState n)

/-- A reception ends. -/
def Dev.heardNone (d : Dev) (n : Nat) : Dev := d.modChm n fun c => { c with heard := none }

/-- The number of a packet judged: accepted (with the packets missing before it counted) or stale (R309). (Log 92: DEDUCED) -/
def Dev.chimeNumber (d : Dev) (n num : Nat) (hello : Bool) : Dev × Bool :=
  let accept (d : Dev) : Dev :=
    ((d.modChm n fun c => { c with expected := some ((num + 1) % pow2 24) }).set Reg.LE_CHM_SEQ_RX.SEQ n num).set
      Reg.LE_CHM_SEQ_RX.EPOCH n (num / pow2 16)
  match (d.le n).chm.expected with
  | none => (accept d, true)
  | some e =>
    let k := (num + pow2 24 - e) % pow2 24
    if k < pow2 23 then (accept (d.addSat Reg.LE_CHM_LOSS.LOST n k), true)
    else if hello then (accept d, true)
    else (d.bump Reg.LE_CHM_DISC.STALE n, false)

/-- A reception that ends at its header or at PCRC; the number of a packet that fails PCRC counts as received (R305). (Log 92: DEDUCED) -/
def Dev.chimeFailed (d : Dev) (n : Nat) (b : List Nat) : Dev :=
  let d := d.heardNone n
  if !headerOk b then d.bump Reg.LE_CHM_ERR.HDR_ERR n
  else
    let d := d.bump Reg.LE_CHM_ERR.PAY_ERR n
    match (d.le n).chm.expected with
    | some e => if (packetNumber b + pow2 24 - e) % pow2 24 < pow2 23 then (d.chimeNumber n (packetNumber b) false).1 else d
    | none => d

/-- A preamble of the given metric (0.1 dB), followed by the bytes of a reception that ends in an error; no bytes where the
reception goes on to a valid packet (R306). (Log 185: DESIGN CHOICE) -/
def Dev.chimePreamble (d : Dev) (n metric : Nat) (b : List Nat) : Dev :=
  if !d.hears n || decide (metric < 100) then d
  else
    let start (d : Dev) : Dev :=
      let d := (d.set Reg.LE_CHM_METRIC.PRE_DB n (capN 0xFFFF metric)).modChm n fun c => { c with heard := some (metric, d.now + packetNs 496) }
      if b.isEmpty || (headerOk b && payloadOk b) then d else d.chimeFailed n b
    match (d.le n).chm.heard with
    | some (m, till) =>
      if till ≤ d.now then start d
      else if m + 60 ≤ metric then start (d.bump Reg.LE_CHM_LOSS.ABANDONED n)
      else d
    | none => start d

/-- Chime lock gained by a valid packet (R307); raw LOS keeps it cleared. -/
def Dev.chimeLocked (d : Dev) (n : Nat) : Dev :=
  let d := (d.bump Reg.LE_CHM_RXCNT.VALID n).modChm n fun c => { c with validAt := d.now }
  if d.flag Reg.LE_RX_STAT.CHIME n || d.flag Reg.LE_RX_STAT.LOS n then d
  else ((d.setB Reg.LE_RX_STAT.CHIME n true).setB Reg.LE_CHM_STAT.LOCK n true).raise Ev.chimeLock n n 1

/-- 300 ms without a valid packet (R307). -/
def Dev.chimeTimeout (d : Dev) (n : Nat) : Dev :=
  if d.flag Reg.LE_RX_STAT.CHIME n then (d.until ((d.le n).chm.validAt + ms 300)).chimeLost n else d

/-- A request that the device itself makes (R21, R319, R320): refused ones are dropped. The answer says if it was taken. -/
def Dev.ownRequest (d : Dev) (n kind : Nat) : Dev × Bool :=
  if (d.reqErrs n kind).isEmpty then (d.request n kind, true) else (d, false)

/-- BEACON requested for absence or a foreign identity, where the state is ON (R21, R319). -/
def Dev.beaconRequest (d : Dev) (n : Nat) : Dev :=
  if d.txState n = 4 then
    let (d, ok) := d.ownRequest n 2
    if ok then d.setB Reg.LE_CHM_STAT.BEACON_ABS n true else d
  else d

/-- START requested on the partner's return, where BEACON_ABS is 1 and AUTO_ON is 1 (R21, R320). -/
def Dev.returnRequest (d : Dev) (n : Nat) : Dev :=
  if d.flag Reg.LE_CHM_STAT.BEACON_ABS n && d.flag Reg.LE_CHM_CTRL.AUTO_ON n then
    ((d.setB Reg.LE_CHM_STAT.BEACON_ABS n false).ownRequest n 1).1
  else d

/-- A valid packet from the bundle partner: the absence timer starts anew, and absence ends (R319, R320). (Log 94: DEDUCED) -/
def Dev.partnerHeard (d : Dev) (n : Nat) : Dev :=
  let d := if squelchedIn (d.txState n) then d else d.modChm n fun c => { c with absFrom := some d.now }
  if d.flag Reg.LE_CHM_STAT.ABSENT n then
    ((d.setB Reg.LE_CHM_STAT.ABSENT n false).raise Ev.partnerAbsent 0 n 0).returnRequest n
  else d

/-- The absence timer reaches ABSENT_S (R319). (Log 94: DEDUCED) -/
def Dev.partnerAbsent (d : Dev) (n : Nat) : Dev :=
  match (d.le n).chm.absFrom with
  | none => d
  | some t =>
    if d.flag Reg.LE_CHM_STAT.ABSENT n then d
    else
      let d := d.until (t + sec (d.get Reg.LE_CHM_CTRL.ABSENT_S n))
      let d := (d.setB Reg.LE_CHM_STAT.ABSENT n true).raise Ev.partnerAbsent 0 n 1
      if d.flag Reg.LE_CHM_CTRL.ABSENT_EN n then d.beaconRequest n else d

/-! ### Hellos (R312 to R314) and the identity rule (R21) -/

/-- This device's RESET_ID, drawn at reset exit (R312). (Log 7: DESIGN CHOICE) -/
def Dev.resetId (d : Dev) : Nat := trunc 16 (Config.freeValue d.chime.resetDraw)

/-- FEATURES of this device. -/
def Dev.features (d : Dev) : Nat := b1 (!d.noCipher) + b1 (!d.trust.pairing.isEmpty) * 2

/-- The HELLO payload of line engine `n` (R312). -/
def Dev.helloPayload (d : Dev) (n : Nat) : List Nat :=
  let states := (List.range 8).foldl (fun a m => a + d.txState m * pow2 (4 * m)) 0
  d.ownIdent ++ bytesBE 2 d.resetId ++ [d.features, d.txState n * 16 + d.rxState n] ++
    bytesBE 4 states ++ (List.range 8).map d.modeByte ++ bytesBE 4 (d.get Reg.LE_CDE_EST.D_EST n)

/-- A HELLO falls due: at once after an entry to ON, RAMP_DOWN or BEACON, else at the end of the hello period (R313). -/
def Dev.helloDue (d : Dev) (n : Nat) : Dev :=
  if !d.permits n then d
  else
    let d := if (d.le n).helloNow then d else d.until ((d.le n).chm.helloAt + ms 100)
    let d := d.setLe n { d.le n with helloNow := false }
    (d.chimePend n tyHello (d.helloPayload n)).modChm n fun c => { c with helloAt := d.now }

/-- The bundle partner's identity, named by a HELLO, ends an exclusion (R21). -/
def Dev.foreignEnd (d : Dev) (n : Nat) : Dev :=
  let d := d.setLe n { d.le n with partner := true }
  if d.bit Reg.FMX_BND_STAT.FOREIGN 0 n then
    ((d.putBit Reg.FMX_BND_STAT.FOREIGN 0 n false).raise Ev.foreignCarrier 0 n 0).returnRequest n
  else d

/-- Any other identity excludes the carrier (R21). (Log 36: DEDUCED) -/
def Dev.foreignBegin (d : Dev) (n : Nat) : Dev :=
  let d := d.watchElig n fun d => d.setLe n { d.le n with partner := false }
  if d.bit Reg.FMX_BND_STAT.FOREIGN 0 n then d
  else ((d.putBit Reg.FMX_BND_STAT.FOREIGN 0 n true).raise Ev.foreignCarrier 0 n 1).beaconRequest n

/-- `CAR_PEER.PAIRED`: is a pairing record installed that names the bundle partner? -/
def Dev.showPaired (d : Dev) : Dev :=
  d.setB Reg.CAR_PEER.PAIRED 0 (match d.pairedIdent, d.partnerIdent with | some a, some b => a == b | _, _ => false)

/-- The pairing digest (R376, R377). (Log 111: DEDUCED) -/
def Dev.pairingDigest (d : Dev) : List Nat := sha256 d.trust.pairing

/-- A partner restart on carrier `n` (R199, R282, R309, R314): the event, the carrier's series, and once for each new
RESET_ID what concerns the whole device. (Log 96: DEDUCED) -/
def Dev.partnerRestart (d : Dev) (n id : Nat) : Dev :=
  let d := ((d.raise Ev.chimePeerReset n n id).clearSeries n)
  if d.trust.digestSent.contains id then d
  else
    let d := d.modFmx fun x => { x with lseqRx := [], annTxn := none, bsigAt := none }
    let d := (d.modPath fun x => { x with released := none, missed := [] }).modVault fun v => { v with rxGalley := none }
    let d := d.modTym fun x => { x with peerKnown := false, peer := none }
    { d with
      trust := { d.trust with digestSent := id :: d.trust.digestSent }
      chime := { d.chime with partials := [], verdicts := [] } }

end Sys2Proof.Machine
end

