-- ==== Sys2Proof/Machine/Transfer.lean ====
section
/-! DEFINITION. Reliable transfer over the chime channel: outgoing transfers, receipts, partial records and the owners' verdicts
(R318, R347, R348, R377). -/

namespace Sys2Proof.Machine

/-- The chime channel of the device changed. -/
def Dev.modChime (d : Dev) (f : Chime → Chime) : Dev := { d with chime := f d.chime }

/-- The number of fragments of a record, and a fragment. -/
def Xfer.nfrag (x : Xfer) : Nat := max 1 ((x.data.length + 479) / 480)
def Xfer.part (x : Xfer) (k : Nat) : List Nat := slice x.data (480 * k) 480

/-- The TRANSFER payload of the fragment in turn. -/
def Xfer.payload (x : Xfer) : List Nat := bytesBE 2 x.xid ++ [x.cls, x.frag, x.nfrag, 0, 0, 0] ++ x.part x.frag

/-- The first transfer in the queue changed. -/
def Dev.modXfer (d : Dev) (f : Xfer → Xfer) : Dev :=
  d.modChime fun c => { c with xfers := match c.xfers with | x :: rest => f x :: rest | [] => [] }

/-- The eligible carriers, rising. -/
def Dev.eligibles (d : Dev) : List Nat := allLe.filter d.eligible

/-- The next eligible carrier after `n` in ascending order, wrapping. -/
def Dev.eligibleAfter (d : Dev) (n : Nat) : Option Nat :=
  match d.eligibles.find? fun m => decide (n < m) with
  | some m => some m
  | none => d.eligibles.head?

/-- The fragment in turn goes to carrier `n`. -/
def Dev.sendFrag (d : Dev) (n : Nat) : Dev :=
  match d.chime.xfers with
  | [] => d
  | x :: _ =>
    let d := d.chimePend n tyTransfer x.payload
    d.modXfer fun x => { x with sends := x.sends + 1, le := n, sentAt := d.now }

/-- A fragment that no carrier could take yet goes to the lowest eligible one. -/
def Dev.xferKick (d : Dev) : Dev :=
  match d.chime.xfers with
  | x :: _ => if x.sends = 0 then (match d.eligibles.head? with | some n => d.sendFrag n | none => d) else d
  | [] => d

/-- A transfer is requested: it waits its turn (R318). The spec names no rule for XID: it is a free value. (Log 7: DESIGN CHOICE) -/
def Dev.transferStart (d : Dev) (cls : Nat) (data : List Nat) : Dev :=
  let x : Xfer := ⟨cls, data, trunc 16 d.fresh, 0, 0, 0, 0, d.now⟩
  (d.drawn.modChime fun c => { c with xfers := c.xfers ++ [x] }).xferKick

/-- The pairing digests were found equal, or not (R377). -/
def Dev.pairVerdict (d : Dev) (ok : Bool) : Dev :=
  if ok then d.setB Reg.CAR_TRUST_STAT.CONFIRMED 0 true
  else (d.setB Reg.CAR_TRUST_STAT.CONFIRMED 0 false).raise Ev.pairMismatch 0 0 0

/-- GENERATE ends by its transfer: with success the slot stays READY, else it is EMPTY again (R347). -/
def Dev.generateEnd (d : Dev) (result detail : Nat) : Dev :=
  if d.carOp ≠ 2 then d else (if detail = 0 then d else d.emptySlot d.vault.arg).carEnd result detail

/-- The first transfer ends: 0 accepted, 1 refused, 2 failed; the next one starts. -/
def Dev.xferEnd (d : Dev) (verdict : Nat) : Dev :=
  match d.chime.xfers with
  | [] => d
  | x :: rest =>
    let d := d.over allLe fun n d => d.chimeDrop n tyTransfer
    let d := d.modChime fun c => { c with xfers := rest.take 1 |>.map (fun y => { y with startAt := d.now }) |> (· ++ rest.drop 1) }
    let d :=
      if x.cls = 0x10 then
        if verdict = 0 then d.generateEnd 0 0
        else if verdict = 1 then d.generateEnd Err.auth.code 11
        else d.generateEnd Err.state.code 10
      else if verdict = 2 then d
      else d.pairVerdict (verdict == 0)
    d.xferKick

/-- A RECEIPT for the fragment in turn (R318). -/
def Dev.receipt (d : Dev) (p : List Nat) : Dev :=
  match d.chime.xfers with
  | [] => d
  | x :: _ =>
    if ofBytesBE (slice p 0 2) ≠ x.xid ∨ p.getD 2 0 ≠ x.frag ∨ x.sends = 0 then d
    else if p.getD 3 0 ≠ 0 then d.xferEnd 1
    else if x.frag + 1 = x.nfrag then d.xferEnd 0
    else
      let d := d.over allLe fun n d => d.chimeDrop n tyTransfer
      (d.modXfer fun x => { x with frag := x.frag + 1, sends := 0 }).xferKick

/-- When a carrier was last eligible, or the transfer started. -/
def Dev.lackSince (d : Dev) (x : Xfer) : Nat := allLe.foldl (fun t n => max t (d.le n).chm.lackFrom) x.startAt

/-- 100 ms without a receipt, or 1 s without an eligible carrier (R318). -/
def Dev.transferRetry (d : Dev) : Dev :=
  match d.chime.xfers with
  | [] => d
  | x :: _ =>
    if d.eligibles.isEmpty then (d.until (d.lackSince x + sec 1)).xferEnd 2
    else if x.sends = 0 then d.xferKick
    else
      let d := d.until (x.sentAt + ms 100)
      if 5 ≤ x.sends then d.xferEnd 2
      else match d.eligibleAfter x.le with
        | some n => (d.chimeDrop x.le tyTransfer).sendFrag n
        | none => d

/-! ### The receiver -/

/-- A RECEIPT becomes pending on carrier `n`. -/
def Dev.sendReceipt (d : Dev) (n xid frag status : Nat) : Dev := d.chimePend n tyReceipt (bytesBE 2 xid ++ [frag, status])

/-- The verdict kept for an XID, for 2 s. -/
def Dev.keptVerdict (d : Dev) (xid : Nat) : Option Nat :=
  (d.chime.verdicts.find? fun e => e.1 == xid && decide (d.now ≤ e.2.2 + sec 2)).map fun e => e.2.1

/-- The owner's verdict on a record: kept, and sent on the carrier of its last fragment. -/
def Dev.giveVerdict (d : Dev) (xid status : Nat) : Dev :=
  match d.chime.partials.find? fun p => p.xid == xid with
  | none => d
  | some p =>
    let d := d.modChime fun c =>
      { c with
        partials := c.partials.filter fun p => p.xid != xid
        verdicts := ((xid, status, d.now) :: c.verdicts.filter fun e => e.1 != xid && decide (d.now ≤ e.2.2 + sec 2)) }
    d.sendReceipt p.le xid (p.nfrag - 1) status

/-- The record of a complete partial. -/
def Partial.record (p : Partial) : List Nat :=
  (List.range p.nfrag).flatMap fun k => match p.frags.find? fun e => e.1 == k with | some e => e.2 | none => []

/-- A complete record goes to its owner: key transport waits for its checks; the pairing digest is compared at once; a class
without an owner is refused. (Log 93: DEDUCED) -/
def Dev.deliverRecord (d : Dev) (p : Partial) : Dev :=
  if p.cls = 0x10 then d.modVault fun v => { v with transport := some ⟨p.xid, p.record, d.pairedIdent.isSome⟩ }
  else if p.cls = 0x20 then
    let ok := !d.trust.pairing.isEmpty && p.record == d.pairingDigest
    (d.giveVerdict p.xid (b1 (!ok))).pairVerdict ok
  else d.giveVerdict p.xid 1

/-- A fragment of a partial record, received on carrier `n`: a new one is kept, with its time. -/
def Partial.add (p : Partial) (k n now : Nat) (data : List Nat) : Partial :=
  if p.frags.any fun e => e.1 == k then { p with le := n }
  else { p with frags := (k, data) :: p.frags, at_ := now, le := n }

/-- A TRANSFER fragment (R318). A fragment whose numbers do not fit together is discarded. (Log 93: DEDUCED) -/
def Dev.transfer (d : Dev) (n : Nat) (b : List Nat) : Dev :=
  let xid := ofBytesBE (slice b 0 2)
  let k := b.getD 3 0
  let nf := b.getD 4 0
  if nf = 0 ∨ 8 < nf ∨ nf ≤ k then d
  else
    let last := k + 1 == nf
    match last, d.keptVerdict xid with
    | true, some v => d.sendReceipt n xid k v
    | _, _ =>
      let p := match d.chime.partials.find? fun p => p.xid == xid with
        | some p => p
        | none => ⟨xid, b.getD 2 0, nf, [], d.now, n, false⟩
      if p.nfrag ≠ nf then d
      else if last && (List.range k).any fun j => !(p.frags.any fun e => e.1 == j) then d.sendReceipt n xid k 1
      else if p.checking then
        d.modChime fun c => { c with partials := c.partials.map fun q => if q.xid == xid then { q with le := n } else q }
      else
        let p := p.add k n d.now (b.drop 8)
        let p := { p with checking := last }
        let d := d.modChime fun c => { c with partials := p :: c.partials.filter fun q => q.xid != xid }
        if last then d.deliverRecord p else d.sendReceipt n xid k 0

/-- 2 s without a new fragment: the partial record is discarded (R318). -/
def Dev.partialExpired (d : Dev) (xid : Nat) : Dev :=
  match d.chime.partials.find? fun p => p.xid == xid with
  | some p =>
    if p.checking then d
    else (d.until (p.at_ + sec 2)).modChime fun c => { c with partials := c.partials.filter fun q => q.xid != xid }
  | none => d

/-! ### Key transport (R347, R348) -/

/-- The key and salt of a GENERATE are drawn and the transport record goes to the transfer. Wrapping and signing under the
identity keys use random values of the part: those bytes are free values. Without an identity key the command fails (R372).
(Log 7: DESIGN CHOICE, 103: DEDUCED, 164: DESIGN CHOICE) -/
def Dev.generateLoad (d : Dev) : Dev :=
  if d.carOp ≠ 2 || (d.slot d.vault.arg).state != 1 || d.keyFreeze then d
  else if d.idFault then d.generateEnd Err.state.code 10
  else if !d.idReady then d
  else
    let s := d.vault.arg
    let key := bytesBE 32 (trunc 256 d.fresh)
    let d := d.drawn
    let salt := trunc 32 d.fresh
    let d := d.drawn
    let head := [1, 2] ++ bytesBE 2 (s + 2) ++ bytesBE 8 d.vault.seqTx ++ (d.partnerIdent.getD []) ++ bytesBE 2 d.chime.peerReset ++ [0, 0]
    let rec_ := head ++ bytesBE 384 (trunc 3072 d.fresh)
    let d := d.drawn
    let rec_ := rec_ ++ bytesBE 384 (trunc 3072 d.fresh)
    let d := (d.drawn.loadSlot s true key salt).modVault fun v => { v with seqTx := v.seqTx + 1 }
    d.transferStart 0x10 rec_

/-- Does a transport record pass every check (R348)? `sigOk`: the signature verifies under the sender's identity key, of
which the spec gives this device no copy. (Log 97: DEDUCED) -/
def Dev.transportOk (d : Dev) (t : Transport) (sigOk : Bool) : Bool :=
  let r := t.record
  let s := recordSlot r
  r.length == 816 && r.getD 0 0 == 1 && r.getD 1 0 == 2 && slice r 12 32 == d.ownIdent && ofBytesBE (slice r 44 2) == d.resetId &&
    t.paired && decide (d.vault.seqRx < ofBytesBE (slice r 4 8)) && sigOk && (d.unwrap r).isSome && !isTxSlot s &&
    !(d.slot s).inUse && !d.flag Reg.CAR_ALARM.LOCK 0 && !d.noCipher

/-- The checks of a received transport record end (R348, R345). -/
def Dev.transportDone (d : Dev) (sigOk : Bool) : Dev :=
  match d.vault.transport with
  | none => d
  | some t =>
    if d.keyFreeze || (!d.idReady && !d.idFault) then d
    else
      let ok := d.transportOk t sigOk
      let s := recordSlot t.record
      let d := d.modVault fun v => { v with transport := none }
      let d :=
        if ok then
          match d.unwrap t.record with
          | some p =>
            let d := (d.loadSlot s false (p.take 32) (ofBytesBE (p.drop 32))).modVault fun v => { v with seqRx := ofBytesBE (slice t.record 4 8) }
            d.raise (Ev.carEvent 2) 0 0 s
          | none => d
        else d
      d.giveVerdict t.xid (b1 (!ok))

end Sys2Proof.Machine
end

