-- ==== Sys2Proof/Machine/ChimeMsg.lean ====
section
/-! DEFINITION. The messages of the chime channel: hellos and the identity rule, time reports, step notices, bit-loading
agreement, SNR reports (R21, R65, R279 to R282, R310, R314 to R317). -/

namespace Sys2Proof.Machine

/-- Is the payload length that of the type (R310)? (Log 92: DEDUCED) -/
def lenOk (type len : Nat) : Bool :=
  match type with
  | 1 => len == 52 | 2 => len == 46 | 3 => len == 17 | 4 => len == 72 | 5 => len == 8 | 6 => len == 64
  | 7 => decide (8 ≤ len ∧ len ≤ 488) | 8 => len == 4
  | _ => false

/-- A packet from a sender on another line engine (R308). -/
def Dev.miswired (d : Dev) (n le : Nat) : Dev :=
  let d := d.bump Reg.LE_CHM_DISC.MISWIRED n
  if since (d.le n).chm.miswireAt d.now (sec 1) then
    (d.modChm n fun c => { c with miswireAt := some d.now }).raise Ev.chimeMiswire n n le
  else d

/-! ### Hellos (R21, R314) -/

/-- A HELLO of the bundle partner is used (R314). -/
def Dev.helloUse (d : Dev) (n : Nat) (p : List Nat) : Dev :=
  let id := ofBytesBE (slice p 32 2)
  let restart := (d.le n).chm.resetSeen.any (· != id)
  let fresh := restart && !d.trust.digestSent.contains id
  let d := if restart then d.partnerRestart n id else d
  let d := (d.modChm n fun c => { c with resetSeen := some id }).modChime fun c => { c with peerReset := id }
  let d := (d.set Reg.LE_CHM_STAT.PEER_RESET_ID n id).foreignEnd n
  let d := d.partnerHeard n
  let d := d.over allLe fun m d => d.fecCompare m (p.getD (40 + m) 0)
  let f := p.getD 34 0
  let d := ((d.setB Reg.CAR_PEER.PEER_CIPHER 0 (bitOf f 0)).setB Reg.CAR_PEER.PEER_PAIRED 0 (bitOf f 1)).modVault fun v => { v with peerSeen := true }
  let tx := p.getD 35 0 / 16
  let d := if tx = 5 || tx = 6 then d.partnerBeacon n true else if tx = 4 then d.partnerOn n else d
  let est := ofBytesBE (slice p 48 4)
  let d := if est = 0x80000000 then d else d.seedArrives n (sgn 32 est)
  let d := d.showPaired
  let d := if fresh && !d.trust.pairing.isEmpty then d.transferStart 0x20 d.pairingDigest else d
  d.xferKick

/-- A received identity is judged against the bundle partner's; the device's own is foreign whoever the partner is (R21).
(Log 37: DEDUCED) -/
def Dev.judgeHello (d : Dev) (n : Nat) (p : List Nat) : Dev :=
  if p.take 32 = d.ownIdent then d.foreignBegin n
  else
    match d.partnerIdent with
    | some q => if p.take 32 = q then d.helloUse n p else d.foreignBegin n
    | none => d

/-- The first identity received since reset exit, the device's own apart, is kept: it is the bundle partner where no pairing
record names one (R21). -/
def Dev.keepFirst (d : Dev) (i : List Nat) : Dev :=
  if i = d.ownIdent then d
  else d.modTrust fun t => { t with partner := match t.partner with | some q => some q | none => some i }

/-- The end of a galley without a bundle partner: the lowest line engine that received another device's identity decides, and
the HELLOs of the galley are judged (R21). (Log 37: DEDUCED) -/
def Dev.judgeFirsts (d : Dev) : Dev :=
  let l := d.trust.firsts
  let first := allLe.findSome? fun n => l.find? fun e => e.1 == n && e.2.take 32 != d.ownIdent
  let d := d.modTrust fun t => { t with firsts := [] }
  let d := match first with | some e => d.keepFirst (e.2.take 32) | none => d
  l.foldl (fun d e => d.judgeHello e.1 e.2) d

/-- The identities last received are judged anew, after a change of the bundle partner (R21, R376). -/
def Dev.rejudge (d : Dev) : Dev :=
  match d.partnerIdent with
  | none => d
  | some q =>
    (d.over allLe fun n d =>
      match (d.le n).chm.ident with
      | some i => if i = q then d.foreignEnd n else d.foreignBegin n
      | none => d).showPaired

/-- A received packet under R305 and R308 to R310; `f` uses an accepted one. A packet of another type is none of this
command's. (Log 92: DEDUCED) -/
def Dev.packet (d : Dev) (n type : Nat) (b : List Nat) (f : Dev → List Nat → Dev) : Dev :=
  if !d.hears n then d
  else if !headerOk b || !payloadOk b then d.chimeFailed n b
  else if b.getD 0 0 ≠ type then d
  else
    let d := (d.heardNone n).chimeLocked n
    let le := b.getD 2 0 % 8
    if le ≠ n then d.miswired n le
    else
      let p := payloadOf b
      if type = tyHello then
        if !lenOk type p.length then (d.chimeNumber n (packetNumber b) true).1
        else
          let mine := decide (d.partnerIdent = some (p.take 32))
          let restart := mine && (d.le n).chm.resetSeen.any (· != ofBytesBE (slice p 32 2))
          let d := if restart then d.modChm n fun c => { c with expected := none } else d
          let d := (d.chimeNumber n (packetNumber b) true).1
          f (d.modChm n fun c => { c with ident := some (p.take 32) }) p
      else
        let partner := (d.le n).partner
        let d := if partner then d.partnerHeard n else d
        let (d, ok) := d.chimeNumber n (packetNumber b) false
        if !ok then d
        else if !partner then d.bump Reg.LE_CHM_DISC.FOREIGN n
        else if lenOk type p.length then f d p
        else d

/-- A HELLO (R314). Without a bundle partner it waits for the end of the galley (R21). -/
def Dev.hello (d : Dev) (n : Nat) (b : List Nat) : Dev :=
  d.packet n tyHello b fun d p =>
    if d.partnerIdent.isSome then (d.keepFirst (p.take 32)).judgeHello n p
    else d.modTrust fun t => { t with firsts := t.firsts ++ [(n, p)] }

/-! ### Time reports (R279, R280, R282, R285) -/

/-- A time in 2^-16 ns as the twelve bytes of a timestamp, and the time that they hold (R12): seconds, nanoseconds and fraction. A time
before second 0 has its seconds in two's complement. (Log 162: DESIGN CHOICE) -/
def timeBytes (t : Int) : List Nat :=
  let r := (t % second16).toNat
  bytesBE 6 (unsgn 48 (t / second16)) ++ bytesBE 4 (r / pow2 16) ++ bytesBE 2 (r % pow2 16)
def ofTimeBytes (b : List Nat) : Int :=
  sgn 48 (ofBytesBE (slice b 0 6)) * second16 + ofBytesBE (slice b 6 4) * 65536 + ofBytesBE (slice b 10 2)

/-- The sample galley reported: the last one to have started. (Log 89: DEDUCED) -/
def Dev.sampleGalley (d : Dev) : Nat := d.gnum - d.gnum % 256

/-- The time report of carrier `n` (R279). (Log 89: DEDUCED) -/
def Dev.reportPayload (d : Dev) (n : Nat) : List Nat :=
  let c := d.car n
  let g := d.sampleGalley
  let tx := markOf c.txMarks g
  let rx := c.rxMarks.head?
  let rxAt := rx.bind (·.2)
  let flags := b1 tx.isSome + b1 rxAt.isSome * 2 + d.src * 4 + d.tymState * 16
  bytesBE 4 g ++ timeBytes (tx.getD 0) ++ bytesBE 4 (rx.getD (0, none)).1 ++ timeBytes (rxAt.getD 0) ++
    [flags, d.get Reg.TYM_STAT.STEP_EPOCH 0] ++ bytesBE 4 (d.get Reg.LE_CDE_EST.D_EST n) ++
    bytesBE 4 (d.get Reg.LE_RX_FREQ.FREQ_MHZ n) ++ bytesBE 4 (d.get Reg.TYM_ASYM_USER.PS 0)

/-- A TIME_REPORT becomes pending on every carrier. -/
def Dev.timeReports (d : Dev) : Dev := d.over allLe fun n d => d.chimePend n tyReport (d.reportPayload n)

/-- The step epoch of a report: one that is new and came with no notice restarts the exchange (R282). (Log 90: DEDUCED) -/
def Dev.reportEpoch (d : Dev) (e : Nat) : Dev :=
  let old := d.get Reg.TYM_STAT.PEER_EPOCH 0
  if !d.tym.peerKnown then d.set Reg.TYM_STAT.PEER_EPOCH 0 e
  else if e = old || (e + 1) % 256 = old then d
  else
    let d := d.set Reg.TYM_STAT.PEER_EPOCH 0 e
    if d.tym.peer.any fun p => p.epoch == e then d else d.spanRestart

/-- A received report (R280, R285). Times of the partner's scale before its step are moved to the scale after it. (Log 90: DEDUCED) -/
def Dev.reportIn (d : Dev) (n : Nat) (p : List Nat) : Dev :=
  let flags := p.getD 32 0
  let e := p.getD 33 0
  let d := d.applyPeerStep.reportEpoch e
  let shift : Int := match d.tym.peer with | some s => if s.done && s.epoch != e then s.delta else 0 | none => 0
  let g := ofBytesBE (slice p 0 4)
  let tx := ofTimeBytes (slice p 4 12) + shift
  let r := ofBytesBE (slice p 16 4)
  let rx := ofTimeBytes (slice p 20 12) + shift
  let now := d.now
  let d := if bitOf flags 0 then
      d.modCar n fun c =>
        { c with
          peerTx := ((now, g, tx) :: c.peerTx).take 512
          mrx := match (c.rxMarks.find? fun e => e.1 == g).bind (·.2) with | some t => (t, t - tx) :: c.mrx | none => c.mrx }
    else d
  let d := if bitOf flags 1 then
      d.modCar n fun c => { c with mtx := match markOf c.txMarks r with | some t => (t, rx - t) :: c.mtx | none => c.mtx }
    else d
  let est := ofBytesBE (slice p 34 4)
  let d := if est = 0x80000000 then d else d.seedArrives n (sgn 32 est)
  let d := (d.setTab 0x42 0x02 n 2 est).setTab 0x42 0x02 n 3 (ofBytesBE (slice p 38 4))
  let d := (d.set Reg.TYM_STAT.PEER_SRC 0 (bitsOf flags 2 2)).set Reg.TYM_STAT.PEER_STATE 0 (bitsOf flags 4 2)
  let d := d.set Reg.TYM_ASYM_PEER.PS 0 (ofBytesBE (slice p 42 4))
  let d := d.modTym fun x => { x with peerKnown := true }
  d.checkRole.checkAsym

def Dev.timeReport (d : Dev) (n : Nat) (b : List Nat) : Dev := d.packet n tyReport b fun d p => d.reportIn n p

/-! ### Step notices (R275, R282, R315) -/

/-- A step notice goes out on every carrier that has chime lock and may send: at the request, then every 10 ms. -/
def Dev.noticeSend (d : Dev) : Dev :=
  match d.tym.step with
  | none => d
  | some s =>
    let d := if d.chime.noticeAt = 0 then d else d.until (d.chime.noticeAt + ms 10)
    let g := (d.gnum + (s.galley - d.galleyNow)) % pow2 32
    let p := bytesBE 4 g ++ bytesBE 12 (unsgn 96 s.delta) ++ [(d.get Reg.TYM_STAT.STEP_EPOCH 0 + 1) % 256]
    let d := d.over (allLe.filter fun n => d.permits n && d.flag Reg.LE_RX_STAT.CHIME n) fun n d => d.chimePend n tyNotice p
    d.modChime fun c => { c with noticeAt := d.now }

def Dev.stepNotice (d : Dev) (n : Nat) (b : List Nat) : Dev :=
  d.packet n tyNotice b fun d p => d.peerNotice (ofBytesBE (slice p 0 4)) (sgn 96 (ofBytesBE (slice p 4 12))) (p.getD 16 0)

/-! ### Bit-loading agreement (R64, R65, R122, R316) -/

/-- Has counter `g` reached galley `s`? -/
def reached (g s : Nat) : Bool := decide ((g + pow2 32 - s) % pow2 32 < pow2 31)

/-- The errors of a transmit bank switch request (R64). -/
def Dev.blErrs (d : Dev) (n : Nat) : List Err :=
  let b := 1 - d.txActive n
  let on := d.txState n == 3 || d.txState n == 4 || d.txState n == 5
  failIf (d.member n) .state ++ failIf (d.flag Reg.LE_TX_BL_CTRL.SWITCH n) .busy ++
    failIf (on && d.bankShort n b) .capacity ++ failIf (on && d.bankUnfit n b) .inconsistent

/-- The payload of a proposal of line engine `n` (R316). -/
def Dev.proposalPayload (d : Dev) (n txn g : Nat) : List Nat :=
  [txn, d.get Reg.LE_TX_CFG.SYM_RATE n, d.get Reg.LE_TX_CFG.ROLLOFF n, 0] ++ bytesBE 4 g ++
    (d.txBank n (1 - d.txActive n)).flatMap (bytesBE 4)

/-- The number of the first transmit galley that starts at least 1 µs from now (R456). (Log 44: DEDUCED) -/
def Dev.commitGnum (d : Dev) : Nat :=
  if d.locked && decide (d.galleyAt d.galleys < d.now + us 1) then (d.nextGnum + 1) % pow2 32 else d.nextGnum

/-- A transmit bank switch is requested: negotiated over the chime, or due at the next galley boundary (R65). (Log 44: DEDUCED) -/
def Dev.blSwitch (d : Dev) (n : Nat) : Dev :=
  let d := (d.setB Reg.LE_TX_BL_CTRL.SWITCH n true).set Reg.LE_TX_BL_CTRL.RESULT n 4
  if d.flag Reg.LE_TX_BL_CTRL.NEGOTIATE n then
    let txn := ((d.le n).chm.txn + 1) % 256
    let g := (d.gnum + 65536) % pow2 32
    let p := d.proposalPayload n txn g
    (d.modChm n fun c => { c with txn := txn, proposal := some ⟨p, g, d.now, d.now, false, false⟩ }).chimePend n tyPropose p
  else
    let g := d.commitGnum
    (d.modTx n fun t => { t with switchAt := some g }).modChm n fun c => { c with proposal := none }

/-- A receive bank switch is requested by software: due at the next galley boundary (R122). -/
def Dev.rxBlSwitch (d : Dev) (n : Nat) : Dev :=
  let g := d.commitGnum
  (((d.setB Reg.LE_RX_BL_CTRL.SWITCH n true).set Reg.LE_RX_BL_CTRL.RESULT n 4).modRx n fun r => { r with switchAt := some g }).modChm n
    fun c => { c with armed := none }

/-- The galley of the receive path now beginning, under the alignment held. (Log 95: DEDUCED) -/
def Dev.rxGnum (d : Dev) (n : Nat) : Option Nat := if d.ga n then (d.le n).frm.fly.map (·.2) else none

/-- A pending bank switch takes effect at its galley boundary (R65, R122, R316). (Log 44: DEDUCED, 45: DESIGN CHOICE) -/
def Dev.blApply (d : Dev) (n : Nat) (rx : Bool) : Dev :=
  if rx then
    match (d.le n).rx.switchAt with
    | none => d
    | some g =>
      let due := if (d.le n).chm.armed.isSome then (d.rxGnum n).any fun k => reached k g else decide (0 < d.galleys) && reached d.gnum g
      if due then ((d.rxBankSwitch n).set Reg.LE_RX_BL_CTRL.RESULT n 1).modChm n fun c => { c with armed := none } else d
  else
    match (d.le n).tx.switchAt with
    | none => d
    | some g =>
      if d.galleys = 0 || !reached d.gnum g then d
      else
        let d := (d.set Reg.LE_TX_BL_CTRL.ACTIVE n (1 - d.txActive n)).setB Reg.LE_TX_BL_CTRL.SWITCH n false
        let d := (d.set Reg.LE_TX_BL_CTRL.RESULT n 1).modTx n fun t => { t with switchAt := none }
        (d.modChm n fun c => { c with proposal := none }).raise Ev.blSwitched n n 0

/-- The proposal with CANCEL = 1. (Log 95: DEDUCED) -/
def cancelOf (p : List Nat) : List Nat := p.take 3 ++ [1] ++ p.drop 4

/-- The proposal, or its CANCEL, is sent again after 100 ms (R316). -/
def Dev.proposeRepeat (d : Dev) (n : Nat) : Dev :=
  match (d.le n).chm.proposal with
  | none => d
  | some p =>
    let d := d.until (p.lastAt + ms 100)
    if p.cancel then
      if reached d.gnum p.switchGnum then d.modChm n fun c => { c with proposal := none }
      else (d.modChm n fun c => { c with proposal := some { p with lastAt := d.now } }).chimePend n tyPropose (cancelOf p.payload)
    else if p.answered || decide (p.startAt + sec 1 ≤ d.now) then d
    else (d.modChm n fun c => { c with proposal := some { p with lastAt := d.now } }).chimePend n tyPropose p.payload

/-- No answer within 1 s (R65). -/
def Dev.proposeTimeout (d : Dev) (n : Nat) : Dev :=
  match (d.le n).chm.proposal with
  | none => d
  | some p =>
    if p.answered || p.cancel || !d.flag Reg.LE_TX_BL_CTRL.SWITCH n then d
    else
      let d := (d.until (p.startAt + sec 1)).chimeDrop n tyPropose
      ((d.set Reg.LE_TX_BL_CTRL.RESULT n 3).setB Reg.LE_TX_BL_CTRL.SWITCH n false).raise Ev.blRefused n n 3

/-- An answer to the proposal in hand; one after the limit has it withdrawn (R316). (Log 95: DEDUCED) -/
def Dev.answerIn (d : Dev) (n : Nat) (a : List Nat) : Dev :=
  match (d.le n).chm.proposal with
  | none => d
  | some p =>
    if a.getD 0 0 ≠ p.payload.getD 0 0 || p.answered || p.cancel then d
    else if !d.flag Reg.LE_TX_BL_CTRL.SWITCH n then
      (d.modChm n fun c => { c with proposal := some { p with cancel := true, lastAt := d.now } }).chimePend n tyPropose (cancelOf p.payload)
    else
      let d := d.chimeDrop n tyPropose
      if a.getD 1 0 = 1 then
        (d.modChm n fun c => { c with proposal := some { p with answered := true } }).modTx n fun t => { t with switchAt := some p.switchGnum }
      else
        let d := (d.set Reg.LE_TX_BL_CTRL.RESULT n 2).setB Reg.LE_TX_BL_CTRL.SWITCH n false
        (d.modChm n fun c => { c with proposal := none }).raise Ev.blRefused n n 2

def Dev.blAnswer (d : Dev) (n : Nat) (b : List Nat) : Dev := d.packet n tyAnswer b fun d p => d.answerIn n p

/-- The entries of a proposal. (Log 95: DEDUCED) -/
def proposalEntries (p : List Nat) : List Nat := (List.range 16).map fun i => ofBytesBE (slice p (8 + 4 * i) 4)

/-- The REASON code that applies to a received proposal; 0 where none does. -/
def Dev.proposalReason (d : Dev) (n : Nat) (p : List Nat) : Nat :=
  if d.member n then 1
  else if bitsOf (p.getD 1 0) 0 3 ≠ d.get Reg.LE_RX_CFG.SYM_RATE n || bitsOf (p.getD 2 0) 0 5 ≠ d.get Reg.LE_RX_CFG.ROLLOFF n then 2
  else if (proposalEntries p).any fun w => !(loadingErrs w).isEmpty then 3
  else if (d.rxGnum n).any fun g => reached g (ofBytesBE (slice p 4 4)) then 4
  else if d.flag Reg.LE_RX_BL_CTRL.SWITCH n then 5
  else 0

/-- A received proposal: armed and answered, refused, or withdrawn by its CANCEL (R316). -/
def Dev.proposalIn (d : Dev) (n : Nat) (p : List Nat) : Dev :=
  let txn := p.getD 0 0
  let g := ofBytesBE (slice p 4 4)
  let armed := decide ((d.le n).chm.armed = some (txn, g))
  if bitOf (p.getD 3 0) 0 then
    if armed then
      let d := (d.set Reg.LE_RX_BL_CTRL.RESULT n 3).setB Reg.LE_RX_BL_CTRL.SWITCH n false
      (d.modRx n fun r => { r with switchAt := none }).modChm n fun c => { c with armed := none }
    else d
  else
    let reason := if armed then 0 else d.proposalReason n p
    let d :=
      if armed || reason ≠ 0 then d
      else
        let bank := 2 - d.get Reg.LE_RX_BL_CTRL.ACTIVE n
        let d := (List.range 16).foldl (fun d i => d.setTab (pageOf .rx n) bank i 0 ((proposalEntries p).getD i 0)) d
        let d := (d.setB Reg.LE_RX_BL_CTRL.SWITCH n true).set Reg.LE_RX_BL_CTRL.RESULT n 4
        (d.modRx n fun r => { r with switchAt := some g }).modChm n fun c => { c with armed := some (txn, g) }
    d.chimePend n tyAnswer ([txn, if reason = 0 then 1 else 2, reason, 0] ++ bytesBE 4 g)

def Dev.blPropose (d : Dev) (n : Nat) (b : List Nat) : Dev := d.packet n tyPropose b fun d p => d.proposalIn n p

/-! ### SNR reports (R310, R317) -/

/-- Once per second in LOCKED an SNR_REPORT becomes pending. -/
def Dev.snrSend (d : Dev) (n : Nat) : Dev :=
  if d.rxLocked n then d.chimePend n tySnr ((List.range 32).flatMap fun i => bytesBE 2 (d.snrEntry n i)) else d

def Dev.snrReport (d : Dev) (n : Nat) (b : List Nat) : Dev :=
  d.packet n tySnr b fun d p =>
    (List.range 32).foldl (fun d i => d.setTab (pageOf .chime n) 0x01 i 0 (ofBytesBE (slice p (2 * i) 2))) d

/-! ### Transfers -/

def Dev.transferIn (d : Dev) (n : Nat) (b : List Nat) : Dev := d.packet n tyTransfer b fun d p => d.transfer n p
def Dev.receiptIn (d : Dev) (n : Nat) (b : List Nat) : Dev := d.packet n tyReceipt b fun d p => d.receipt p

end Sys2Proof.Machine
end

