-- ==== Sys2Proof/Machine/LineSeq.lean ====
section
/-! DEFINITION. The transmit sequencer: bank and ramp grants, soft-starts and soft-stops, lead and lag, kills, the mask's commit
and the commits of shadowed fields (R69 to R88, R456). -/

namespace Sys2Proof.Machine

/-! ### The start-rate limiter (R86 to R89) -/

/-- The earliest entry that next needs a resource. -/
def Dev.firstNeed (d : Dev) (need : Need) : Option StartEntry := d.lim.queue.find? fun e => d.needOf e.le == need

/-- A bank transition of line engine `n` begins: its soft-start or soft-stop takes 100 µs. -/
def Dev.bankBegins (d : Dev) (n b v : Nat) : Dev :=
  let d := { d with lim := { d.lim with lastBank := some d.now } }
  let d := (d.setBank n b v).modTx n fun t => { t with bankEnd := Store.set (fun _ => 0) t.bankEnd b (d.now + us 100) }
  d.granted n

/-- The next bank of line engine `n` comes up. After the interior bank's grant the carrier goes to ENABLE; after a kill in
POWER, or heading to a calibration's HALTED, its entry leaves the queue. -/
def Dev.bankUp (d : Dev) (n : Nat) : Dev :=
  match d.nextUp n with
  | none => d
  | some b =>
    let d := d.bankBegins n b 1
    if b ≠ 2 then d
    else if d.txState n = 8 then (d.dequeue n).modTx n fun t => { t with killBanks := false }
    else if (d.le n).tx.goal = 8 then (d.dequeue n).enterTx n 8
    else d.enterEnable n

/-- The next bank of line engine `n` goes down; the entry leaves the queue with its last one. -/
def Dev.bankDown (d : Dev) (n : Nat) : Dev :=
  match d.nextDown n with
  | none => d
  | some b =>
    let d := d.bankBegins n b 3
    let d := if b = 0 then d.adcBankDown n else d
    if (d.nextDown n).isNone then d.dequeue n else d

/-- The next bank grant (R87): to the earliest entry that needs one, once the bank gap has passed. (Log 40: DEDUCED) -/
def Dev.bankGrant (d : Dev) : Dev :=
  if d.frozenSupply then d
  else
    match d.firstNeed .bank with
    | none => d
    | some e =>
      let d := match d.lim.lastBank with
        | some t => d.until (t + us (d.get Reg.CHIP_START_CTRL.BANK_GAP_US 0))
        | none => d
      if d.txState e.le = 7 then d.bankDown e.le else d.bankUp e.le

/-- Bank `b` of line engine `n` ends its soft-start (R86, R96). -/
def Dev.softStartDone (d : Dev) (n b : Nat) : Dev :=
  if d.bankState n b ≠ 1 then d
  else
    let d := (d.until (Store.get (fun _ => 0) (d.le n).tx.bankEnd b)).setBank n b 2
    if b = 0 then d.adcBankOn n else d

/-- Bank `b` of line engine `n` ends its soft-stop; the carrier is OFF after the last (R86). -/
def Dev.softStopDone (d : Dev) (n b : Nat) : Dev :=
  if d.bankState n b ≠ 3 then d
  else
    let d := (d.until (Store.get (fun _ => 0) (d.le n).tx.bankEnd b)).setBank n b 0
    if d.txState n = 7 && d.banksOff n then (d.dequeue n).enterTx n 0 else d

/-- LEAD_US ends in ENABLE (R75). -/
def Dev.leadExpired (d : Dev) (n : Nat) : Dev :=
  if d.txState n = 2 then (d.until (d.le n).tx.txenEnd).modTx n fun t => { t with leadDone := true } else d

/-- A free ramp slot goes to the earliest entry that needs a ramp, at a forme boundary (R87, R88). -/
def Dev.rampGrant (d : Dev) : Dev :=
  if d.frozenSupply || decide (d.get Reg.CHIP_START_CTRL.MAX_RAMPS 0 ≤ d.ramping) then d
  else
    match d.firstNeed .ramp with
    | none => d
    | some e => (d.until (d.formeFrom d.now)).startRamp e.le e.kind

/-- The boundary at which the ramps of line engine `n` end. -/
def Dev.rampEnd (d : Dev) (n : Nat) : Nat :=
  let last (r : Option Ramp) : Nat := match r with | some r => r.at_ + r.left * formeNs | none => 0
  max (last (d.le n).tx.ramp) (last (d.le n).tx.chimeRamp)

/-- Does the ramp of line engine `n` run against the carrier's goal, so that its next boundary reverses it (R79)? -/
def Dev.reversing (d : Dev) (n : Nat) : Bool :=
  match (d.le n).tx.ramp with | some r => rampUpFor (d.le n).tx.goal r != r.up | none => false

/-- The ramps of line engine `n` run on to boundary `b`. -/
def Dev.rampRun (d : Dev) (n b : Nat) : Dev := (d.until b).rampTo n b

/-- The ramps of line engine `n` run to their end, a reversal first, and the carrier enters its next state (R75, R79, R80). -/
def Dev.rampComplete (d : Dev) (n : Nat) : Dev :=
  if (d.txState n ≠ 3 && d.txState n ≠ 5) || d.frozenSupply then d
  else
    let d := if d.reversing n then d.rampRun n (d.rampAt n + formeNs) else d
    (d.rampRun n (d.rampEnd n)).endRamp n

/-- LAG_US ends in SHUTDOWN: LEn_TXEN goes low, and the banks go down, or a calibration's hold is HALTED (R75, R388). -/
def Dev.lagExpired (d : Dev) (n : Nat) : Dev :=
  if d.txState n ≠ 7 || (d.le n).tx.lagDone then d
  else
    let d := ((d.until (d.le n).tx.txenEnd).setTxen n false).modTx n fun t => { t with lagDone := true }
    if (d.le n).tx.goal = 8 then (d.dequeue n).enterTx n 8 else d

/-- An entry has waited 100 ms (R88). -/
def Dev.startHeld (d : Dev) (n : Nat) : Dev :=
  match d.entry n with
  | none => d
  | some e =>
    if e.heldRaised then d
    else
      let d := (d.until (e.since + ms 100)).modQueue fun q => q.map fun x => if x.le = n then { x with heldRaised := true } else x
      d.raise Ev.startHeld 0 n e.kind

/-! ### Kills (R83, R84) -/

/-- A write of KILL. -/
def Dev.killWritten (d : Dev) (n : Nat) (on : Bool) : Dev :=
  let d := d.setB Reg.LE_TX_CTRL.KILL n on
  if on then d.halt n else d

/-- LEn_TXEN's readback has differed from the driven level for 10 µs. (Log 156: DEDUCED) -/
def Dev.txenFault (d : Dev) (n : Nat) : Dev := ((d.wait (us 10)).txenHalt n).raise Ev.txenFault n n 0

/-! ### Commits of shadowed fields (R71, R152, R456) -/

/-- A commit of the shadow mask. (Log 27: DEDUCED) -/
def Dev.maskCommit (d : Dev) (n : Nat) : Dev :=
  (d.setB Reg.LE_TX_MASK_CTRL.COMMIT n true).modTx n fun t => { t with maskWait := some d.now }

/-- A commit of ITER_MAX. (Log 55: DEDUCED) -/
def Dev.iterCommit (d : Dev) (n : Nat) : Dev :=
  (d.setB Reg.LE_FEC_ITER.COMMIT n true).modFec n fun x => { x with iterPend := some d.now }

/-- The boundary of a committed mask has come. -/
def Dev.maskApply (d : Dev) (n : Nat) : Dev :=
  match (d.le n).tx.maskWait with
  | some t => (d.untilCommit t).retargetMask n
  | none => d

/-- The boundary of a committed ITER_MAX has come: the limit and the admission totals follow. (Log 55: DEDUCED) -/
def Dev.iterApply (d : Dev) (n : Nat) : Dev :=
  match (d.le n).fec.iterPend with
  | some t =>
    (((d.untilCommit t).setB Reg.LE_FEC_ITER.COMMIT n false).modFec n fun x => { x with iterPend := none }).fecIter n
  | none => d

end Sys2Proof.Machine
end

