-- ==== Sys2Proof/Machine/Monitor.lean ====
section
/-! DEFINITION. The housekeeping monitor: sequences, triggers, the data register, the injected slot, the test DAC and the
decimating detectors (R401 to R409). -/

namespace Sys2Proof.Machine

/-- The monitor changed. -/
def Dev.modMon (d : Dev) (f : Mon → Mon) : Dev := { d with mon := f d.mon }

/-- The configuration words of sequence entry `e` (R411). -/
def Dev.seqWord (d : Dev) (e w : Nat) : Nat := d.tab 0x30 0x01 e w
def Dev.seqInput (d : Dev) (e : Nat) : Nat := bitsOf (d.seqWord e 0) 0 6
def Dev.seqTest (d : Dev) (e : Nat) : Bool := d.mon.tdac == some (d.seqInput e)

/-- The result line of entry `e`, and a change of it. -/
def Dev.monLine (d : Dev) (e : Nat) : MonLine := Store.get (fun _ => MonLine.reset) d.mon.lines e
def Dev.setLine (d : Dev) (e : Nat) (x : MonLine) : Dev :=
  d.modMon fun m => { m with lines := Store.set (fun _ => MonLine.reset) m.lines e x }

/-- Detector slot `k`, and a change of it. -/
def Dev.monSlot (d : Dev) (k : Nat) : MonSlot := Store.get (fun _ => MonSlot.reset) d.mon.slots k
def Dev.modSlot (d : Dev) (k : Nat) (f : MonSlot → MonSlot) : Dev :=
  d.modMon fun m => { m with slots := Store.set (fun _ => MonSlot.reset) m.slots k (f (d.monSlot k)) }

/-- Does the sequence's entry `e` feed slot `k`, and the entries of the sequence. -/
def Dev.feeds (d : Dev) (e k : Nat) : Bool := bitOf (d.seqWord e 0) 29 && bitsOf (d.seqWord e 0) 24 5 == k
def Dev.seqEntries (d : Dev) : List Nat := List.range (d.get Reg.MON_SEQ_CTRL.LAST 0 + 1)
def Dev.fed (d : Dev) (k : Nat) : Bool := d.seqEntries.any fun e => d.feeds e k
def allSlots : List Nat := List.range 16

/-! ### Detectors (R407, R408) -/

/-- The decimation of slot `k`. -/
def Dev.detR (d : Dev) (k : Nat) : Nat := bitsOf (d.tab 0x31 0x01 k 0) 0 8 + 1

/-- A slot restarts: its filters and windows begin anew, and its outputs are unsettled. -/
def Dev.restartSlot (d : Dev) (k : Nat) : Dev :=
  d.modSlot k fun s =>
    { MonSlot.reset with peak := s.peak, rms := s.rms, env := s.env, windows := s.windows, gap := s.gap, test := s.test }

/-- The slots fed by an entry that converts one of the inputs `p`. -/
def Dev.restartFed (d : Dev) (p : Nat → Bool) : Dev :=
  d.over allSlots fun k d => if (List.range 32).any fun e => d.feeds e k && p (d.seqInput e) then d.restartSlot k else d

/-- Is slot `k` unsettled: fewer than 34 R input samples since the restart? -/
def Dev.unsettled (d : Dev) (k : Nat) : Bool := decide ((d.monSlot k).seen < 34 * d.detR k)

/-- The registers of the CIC are 40 bits wide. (Log 120: DESIGN CHOICE) -/
def cicMod : Nat := pow2 40

/-- The FIR output over the last 31 CIC outputs, newest first: linear phase, so taps k and 30 - k are equal.
(Log 9: DESIGN CHOICE, 120: DESIGN CHOICE) -/
def firOut (hist : List Int) : Int :=
  ((List.range 31).foldl (fun a k => a + Config.firTap (min k (30 - k)) * hist.getD k 0) 0) / (pow2 15 : Int)

/-- One FIR output taken by the detectors. (Log 120: DESIGN CHOICE) -/
def MonSlot.detect (s : MonSlot) (window decay : Nat) (settled : Bool) (y : Nat) : MonSlot :=
  let s := { s with count := s.count + 1, top := max s.top y, squares := s.squares + y * y, env := capN 0xFFFF (max y (s.env - s.env / pow2 decay)) }
  if s.count < window then s
  else
    let s := if s.early then s
      else { s with peak := capN 0xFFFF s.top, rms := capN 0xFFFF (rootOf 2 (s.squares / s.count) 20 0), windows := capN 0xFFFFFFFF (s.windows + 1) }
    { s with count := 0, top := 0, squares := 0, early := !settled }

/-- An input sample of slot `k`: the third-order CIC, the FIR at every R-th sample, and the detectors. -/
def Dev.detFeed (d : Dev) (k code : Nat) (test : Bool) : Dev :=
  let w := d.tab 0x31 0x01 k 0
  if !bitOf w 15 then d
  else
    let R := d.detR k
    d.modSlot k fun s =>
      let i1 := (s.int1 + code) % cicMod
      let i2 := (s.int2 + i1) % cicMod
      let i3 := (s.int3 + i2) % cicMod
      let s := { s with int1 := i1, int2 := i2, int3 := i3, phase := s.phase + 1, seen := capN 0xFFFFFFFF (s.seen + 1), test := test }
      if s.phase < R then s
      else
        let c1 := (i3 + cicMod - s.comb1) % cicMod
        let c2 := (c1 + cicMod - s.comb2) % cicMod
        let c3 := (c2 + cicMod - s.comb3) % cicMod
        let hist := (((c3 / (R * R * R) : Nat) : Int) :: s.hist).take 31
        let s := { s with comb1 := i3, comb2 := c1, comb3 := c2, phase := 0, hist := hist }
        s.detect (bitsOf w 16 16) (bitsOf w 8 4) (decide (34 * R ≤ s.seen)) (firOut hist).natAbs

/-- The group delay that slot `k` reports, in ns; all ones where the input rate is not fixed. (Log 17: DESIGN CHOICE, 122: DEDUCED) -/
def Dev.detDelay (d : Dev) (k : Nat) : Nat :=
  let R := d.detR k
  let period :=
    match d.get Reg.MON_SEQ_CTRL.TRIG 0 with
    | 1 => us (d.get Reg.MON_SEQ_CTRL.PERIOD_US 0) | 2 => galleyNs | 3 => sec 1 | _ => 0
  if period = 0 then 0xFFFFFFFF else capN 0xFFFFFFFF ((3 * (R - 1) + 30 * R) * period / 2)

/-! ### The data register (R404) -/

/-- A result written into MON_DATA. -/
def Dev.putData (d : Dev) (inj test : Bool) (src code : Nat) : Dev :=
  let d := if d.flag Reg.MON_DATA.VALID 0 then
      let d := (d.setB Reg.MON_DATA.OVR 0 true).bump Reg.MON_DATA_OVR.COUNT 0
      if since d.mon.dataSaid d.now (sec 1) then (d.modMon fun m => { m with dataSaid := some d.now }).raise Ev.monDataOvr 0 0 0 else d
    else d
  let d := ((d.setB Reg.MON_DATA.VALID 0 true).setB Reg.MON_DATA.INJ 0 inj).setB Reg.MON_DATA.TEST 0 test
  (d.set Reg.MON_DATA.SRC 0 src).set Reg.MON_DATA.CODE 0 code

/-- A read of MON_DATA clears VALID and OVR. -/
def Dev.dataRead (d : Dev) : Dev := (d.setB Reg.MON_DATA.VALID 0 false).setB Reg.MON_DATA.OVR 0 false

/-! ### Conversions (R401, R402, R405, R409) -/

/-- A conversion of the sequence, an injected one, or the calibration's begins, in the order of R405 and R409. -/
def Dev.monNext (d : Dev) : Dev :=
  let d := match d.mon.tdacNext with
    | some x =>
      let old := d.mon.tdac
      let d := d.modMon fun m => { m with tdac := x, tdacNext := none }
      if x = old then d else d.restartFed fun i => old == some i || x == some i
    | none => d
  if d.flag Reg.MON_INJ.PEND 0 then d.modMon fun m => { m with busy := 2, endAt := d.now + 500 }
  else if d.mon.calWait then
    let d := (d.setB Reg.MON_STAT.RUN 0 false).setB Reg.MON_STAT.CAL 0 true
    let d := d.modMon fun m => { m with busy := 3, calWait := false, done := 0, sum := 0, sumScaled := 0 }
    let d := d.over (List.range 32) fun e d => d.setLine e { d.monLine e with stale := true }
    d.over allSlots fun k d => d.modSlot k fun s => { s with stale := true }
  else if d.flag Reg.MON_STAT.RUN 0 then
    let e := d.get Reg.MON_STAT.ENTRY 0
    d.modMon fun m => { m with busy := 1, endAt := d.now + 500 + 250 * bitsOf (d.seqWord e 0) 12 4 }
  else d.modMon fun m => { m with busy := 0 }

/-- A sequence starts with entry 0. (Log 119: DEDUCED) -/
def Dev.monStart (d : Dev) : Dev :=
  let d := (d.setB Reg.MON_STAT.RUN 0 true).set Reg.MON_STAT.ENTRY 0 0
  let d := d.modMon fun m => { m with runs := (m.runs + 1) % 65536, done := 0, sum := 0, sumScaled := 0 }
  if d.mon.busy = 0 then d.monNext else d

/-- A trigger: a sequence starts, or an overrun is counted and the detectors fed take a gap (R403, R409). (Log 119: DEDUCED) -/
def Dev.monTrigger (d : Dev) : Dev :=
  if d.flag Reg.MON_STAT.RUN 0 || d.mon.busy == 3 then
    let d := d.bump Reg.MON_TRIG_OVR.COUNT 0
    let d := d.over allSlots fun k d => if d.fed k then d.modSlot k fun s => { s with gap := true } else d
    if since d.mon.trigSaid d.now (sec 1) then (d.modMon fun m => { m with trigSaid := some d.now }).raise Ev.monTrigOvr 0 0 0 else d
  else d.monStart

/-- A trigger of one of the kinds of R402. -/
def Dev.monTrigIf (d : Dev) (trig : Nat) : Dev := if d.get Reg.MON_SEQ_CTRL.TRIG 0 = trig then d.monTrigger else d

/-- The timer's trigger, PERIOD_US after the last. -/
def Dev.monPeriod (d : Dev) : Dev :=
  if d.get Reg.MON_SEQ_CTRL.TRIG 0 = 1 then
    let d := d.until (d.mon.trigAt + us (d.get Reg.MON_SEQ_CTRL.PERIOD_US 0))
    (d.modMon fun m => { m with trigAt := d.now }).monTrigger
  else d

/-- Does a scaled value of an input lie outside the limits of entry `e`? -/
def Dev.outside (d : Dev) (e scaled : Nat) : Bool :=
  let w := d.seqWord e 1
  if d.seqInput e < 16 then decide (sgn 16 scaled < sgn 16 (bitsOf w 0 16)) || decide (sgn 16 (bitsOf w 16 16) < sgn 16 scaled)
  else decide (scaled < bitsOf w 0 16) || decide (bitsOf w 16 16 < scaled)

/-- The result of entry `e`: the line, MON_DATA, the detector and the limits (R402). -/
def Dev.monResult (d : Dev) (e code scaled : Nat) : Dev :=
  let w := d.seqWord e 0
  let test := d.seqTest e
  let out := bitOf w 30 && d.outside e scaled
  let was := (d.monLine e).out
  let d := d.setLine e ⟨code, scaled, false, test, out⟩
  let d := onlyIf (bitOf w 20) (fun d => d.putData false test e code) d
  let d := onlyIf (bitOf w 29) (fun d => d.detFeed (bitsOf w 24 5) code test) d
  onlyIf (out && !was) (fun d => d.raise Ev.monLimit 0 0 e) d

/-- After the last entry the sequence ends; under TRIG 4 the next begins. -/
def Dev.monAfter (d : Dev) (e : Nat) : Dev :=
  let d := d.modMon fun m => { m with done := 0, sum := 0, sumScaled := 0 }
  if e < d.get Reg.MON_SEQ_CTRL.LAST 0 then d.set Reg.MON_STAT.ENTRY 0 (e + 1)
  else
    let d := d.setB Reg.MON_STAT.RUN 0 false
    if d.get Reg.MON_SEQ_CTRL.TRIG 0 = 4 && !d.mon.calWait then
      (((d.setB Reg.MON_STAT.RUN 0 true).set Reg.MON_STAT.ENTRY 0 0).modMon fun m => { m with runs := (m.runs + 1) % 65536 })
    else d

/-- The scaled value of a code at a gain setting, of an input that is no temperature: in 0.05 mV at the input's node, after the
monitor set's offset and gain; full scale is 1.2 V over the gain (R397, R401). (Log 166: DESIGN CHOICE) -/
def Dev.scaledOf (d : Dev) (gain code : Nat) : Nat :=
  let w := d.tab 0x32 0x03 (3 + gain) 0
  let c := clampI 0 65535 ((code + sgn 16 (bitsOf w 0 16)) * (bitsOf w 16 16 : Nat) / 32768)
  c.toNat * 24000 / (65536 * pow2 gain)

/-- A conversion ends with its code, and the value that a temperature sensor's code stands for (R402, R404, R405).
(Log 120: DESIGN CHOICE, 121: DESIGN CHOICE, 166: DESIGN CHOICE) -/
def Dev.monConverted (d : Dev) (code scaled : Nat) : Dev :=
  let d := if d.mon.busy = 1 ∨ d.mon.busy = 2 then d.until d.mon.endAt else d
  match d.mon.busy with
  | 1 =>
    let e := d.get Reg.MON_STAT.ENTRY 0
    let avg := pow2 (bitsOf (d.seqWord e 0) 16 3)
    let v : Int := if d.seqInput e < 16 then sgn 16 scaled else (d.scaledOf (bitsOf (d.seqWord e 0) 8 2) (trunc 16 code) : Int)
    let d := d.modMon fun m => { m with done := m.done + 1, sum := m.sum + trunc 16 code, sumScaled := m.sumScaled + v }
    if d.mon.done < avg then d.monNext
    else ((d.monResult e (d.mon.sum / avg) (unsgn 16 (d.mon.sumScaled / (avg : Int)))).monAfter e).monNext
  | 2 =>
    let i := d.get Reg.MON_INJ.INPUT 0
    ((d.setB Reg.MON_INJ.PEND 0 false).putData true (d.mon.tdac == some i) i (trunc 16 code)).monNext
  | _ => d

/-- An injected conversion is requested (R405). (Log 123: DEDUCED) -/
def Dev.injErrs (d : Dev) (gain input : Nat) : List Err :=
  failIf (decide (47 < input) || gain == 3) .range ++ failIf (d.flag Reg.MON_INJ.PEND 0 || d.mon.busy == 3 || d.mon.calWait) .busy
def Dev.inject (d : Dev) : Dev :=
  let d := d.setB Reg.MON_INJ.PEND 0 true
  if d.mon.busy = 0 then d.monNext else d

/-- MON_TDAC written: the switch follows after the conversion in progress (R406). -/
def Dev.tdacWritten (d : Dev) : Dev :=
  let x := if d.flag Reg.MON_TDAC.EN 0 then some (d.get Reg.MON_TDAC.INPUT 0) else none
  let d := d.modMon fun m => { m with tdacNext := if x = m.tdac then none else some x }
  if d.mon.busy = 0 then d.monNext else d

/-! ### Monitor calibration (R409) -/

/-- A calibration of the monitor is asked for: it starts after the conversions that come first. -/
def Dev.monCalAsk (d : Dev) : Dev :=
  let d := d.modMon fun m => { m with calWait := true }
  if d.mon.busy = 0 then d.monNext else d

/-- The calibration is over: the detectors restart and conversions for users go on. A failure leaves no line stale. (Log 119: DEDUCED) -/
def Dev.monCalOver (d : Dev) : Dev :=
  let d := (d.setB Reg.MON_STAT.CAL 0 false).modMon fun m => { m with calWait := false, busy := if m.busy = 3 then 0 else m.busy }
  let d := d.over allSlots fun k d => d.restartSlot k
  if d.get Reg.MON_SEQ_CTRL.TRIG 0 = 4 then d.monStart else if d.mon.busy = 0 then d.monNext else d

/-- Every STALE flag of the results clears. -/
def Dev.linesFresh (d : Dev) : Dev := d.over (List.range 32) fun e d => d.setLine e { d.monLine e with stale := false }

end Sys2Proof.Machine
end

