-- ==== Sys2Proof/Machine/Calib.lean ====
section
/-! DEFINITION. Calibration: its kinds, phases and holds, the coefficient sets and their restore (R384 to R400). -/

namespace Sys2Proof.Machine

/-! ### Coefficient sets (R397, R398) -/

/-- The words of a set of a kind: 17 ADC, 61 DAC, 7 monitor. -/
def setLen (kind : Nat) : Nat := if kind = 1 then 17 else if kind = 2 then 61 else 7

/-- The table of a kind's sets, and the index of their first word for line engine `n`. -/
def setTable (kind : Nat) : Nat := if kind = 1 then 1 else if kind = 2 then 2 else 3
def setBase (kind n : Nat) : Nat := if kind = 1 then 32 * n else if kind = 2 then 64 * n else 0

/-- Word `w` of a set, and a set's words written. -/
def Dev.setWord (d : Dev) (kind n w : Nat) : Nat := d.tab 0x32 (setTable kind) (setBase kind n + w) 0
def Dev.writeSet (d : Dev) (kind n : Nat) (words : List Nat) : Dev :=
  d.over (List.range (setLen kind)) fun w d => d.setTab 0x32 (setTable kind) (setBase kind n + w) 0 (words.getD w 0)

/-- The CRC-32 of a set over its preceding words, each least significant byte first. -/
def setCrc (words : List Nat) : Nat := crc32 (words.flatMap (bytesLE 4))

/-- A signed and an unsigned 16-bit field within a range. -/
def signedIn (v : Nat) (lo hi : Int) : Bool := decide (lo ≤ sgn 16 v) && decide (sgn 16 v ≤ hi)
def within (v lo hi : Nat) : Bool := decide (lo ≤ v) && decide (v ≤ hi)
def hi16 (w : Nat) : Nat := bitsOf w 16 16
def lo16 (w : Nat) : Nat := bitsOf w 0 16

/-- The ranges of an offset, a gain, a skew, and a filter tap. -/
def offsetOk (v : Nat) : Bool := signedIn v (-2048) 2048
def gainOk (v : Nat) : Bool := within v 13107 19661
def skewOk (v : Nat) : Bool := signedIn v (-8000) 8000
def tapOk (k v : Nat) : Bool := if k = 11 then signedIn v 8192 16384 else signedIn v (-8192) 8192

/-- Does every field of a set lie within its range? (Log 117: DEDUCED) -/
def setRangesOk (kind : Nat) (words : List Nat) : Bool :=
  let w (i : Nat) : Nat := words.getD i 0
  if kind = 1 then
    decide (w 3 ≤ 1000000) &&
    ((List.range 4).all fun c =>
      offsetOk (hi16 (w (4 + 2 * c))) && offsetOk (lo16 (w (4 + 2 * c))) && gainOk (hi16 (w (5 + 2 * c))) &&
      skewOk (lo16 (w (5 + 2 * c))) && gainOk (hi16 (w (12 + c))) && skewOk (lo16 (w (12 + c))))
  else if kind = 2 then
    decide (w 3 ≤ 1000000) &&
    ((List.range 4).all fun c =>
      gainOk (hi16 (w (4 + c))) && offsetOk (lo16 (w (4 + c))) && skewOk (lo16 (w (8 + c))) &&
      (List.range 24).all fun k =>
        let x := w (12 + 12 * c + k / 2)
        tapOk k (if k % 2 = 0 then lo16 x else hi16 x))
  else
    (List.range 3).all fun i => within (hi16 (w (3 + i))) 29491 36045 && signedIn (lo16 (w (3 + i))) (-512) 512

/-- The first two words of a set of this device (R397). (Log 124: DEDUCED) -/
def Dev.setHead (d : Dev) (kind n : Nat) : List Nat :=
  [pow2 24 + kind * pow2 20 + (if kind = 5 then 0 else n * pow2 16), ofBytesLE (d.ownIdent.take 4)]

/-- A set applied: its words, its delay term and its validity (R392, R393, R399, R409). -/
def Dev.applySet (d : Dev) (kind n : Nat) (words : List Nat) : Dev :=
  let d := d.writeSet kind n words
  if kind = 1 then
    ((d.setTab 0x42 0x01 n 2 (words.getD 3 0)).setB Reg.LE_ADC_STAT.CAL_VALID n true).rxReconsider n
  else if kind = 2 then d.setTab 0x42 0x01 n 0 (words.getD 3 0)
  else d.setB Reg.MON_STAT.CAL_VALID 0 true

/-! ### The command (R384 to R386, R390) -/

/-- Is a calibration in progress, its kind, line engine and phase. -/
def Dev.calBusy (d : Dev) : Bool := d.flag Reg.CAL_CMD_STAT.BUSY 0
def Dev.calKind (d : Dev) : Nat := d.get Reg.CAL_CMD_STAT.KIND 0
def Dev.calLe (d : Dev) : Nat := d.get Reg.CAL_CMD_STAT.LE 0
def Dev.calPhase (d : Dev) : Nat := d.get Reg.CAL_CMD_STAT.PHASE 0
def Dev.calTo (d : Dev) (phase : Nat) : Dev := d.set Reg.CAL_CMD_STAT.PHASE 0 phase

/-- Is the command of a kind in progress in a phase? -/
def Dev.calIn (d : Dev) (phase : Nat) : Bool := d.calBusy && d.calPhase == phase

/-- The errors of a write of CAL_CMD (R385). -/
def Dev.calErrs (d : Dev) (op kind : Nat) : List Err :=
  failIf (op == 0 || decide (4 ≤ op) || (op == 1 && (kind == 0 || decide (6 ≤ kind)))) .reserved ++
  failIf ((op == 1 || op == 2) && d.calBusy) .busy ++
  failIf (op == 3 && !d.calBusy) .state

/-- The result that goes with a DETAIL code (R385). -/
def calResult (detail : Nat) : Nat :=
  match detail with
  | 0 => 0 | 1 => Err.code .capacity | 2 => Err.code .state | 3 => Err.code .range | 4 => Err.code .inconsistent
  | 5 => Err.code .inconsistent | 6 => Err.code .range | 7 => Err.code .exhausted | 8 => Err.code .exhausted
  | _ => Err.code .state

/-- A transmit move to HALTED that has not begun is given up (R390). (Log 112: DEDUCED) -/
def Dev.calRelease (d : Dev) (n : Nat) : Dev :=
  let waits := (d.le n).tx.goal == 8 && (d.txState n == 4 || d.txState n == 6)
  let d := onlyIf waits (fun d => (d.dequeue n).modTx n fun t => { t with goal := d.txState n }) d
  let d := onlyIf (d.le n).tx.calHold (fun d => (d.modTx n fun t => { t with calHold := false }).modFmx fun x =>
    { x with withdrawn := setBit x.withdrawn n false }) d
  (if (d.le n).rx.held then (d.modRx n fun r => { r with held := false }).rxReconsider n else d).paceFollow n

/-- A command ends: RESULT and DETAIL, the holds released, and `CAL:DONE` (R385, R387). (Log 112: DEDUCED) -/
def Dev.calEnd (d : Dev) (detail : Nat) : Dev :=
  let d := onlyIf (d.calKind ≤ 4) (fun d => d.calRelease d.calLe) d
  let d := ((d.setB Reg.CAL_CMD_STAT.BUSY 0 false).calTo 0).set Reg.CAL_CMD_STAT.DETAIL 0 detail
  let d := { (d.set Reg.CAL_CMD_STAT.RESULT 0 (calResult detail)) with calRun := CalRun.reset }
  d.raise Ev.calDone 0 0 (calResult detail + detail * 256)

/-- What a kind requires of its line engine at the start (R386). -/
def Dev.calReady (d : Dev) (kind n : Nat) : Bool :=
  let st := d.txState n
  let rx := d.flag Reg.LE_RX_CTRL.EN n
  match kind with
  | 1 => rx
  | 2 => st != 3 && st != 5 && st != 7
  | 3 => st == 4 && (d.delayTerm n 0).isSome
  | _ => d.flag Reg.LE_ADC_STAT.CAL_VALID n && (d.delayTerm n 2).isSome && rx

/-- Would excluding carrier `n` shed a flow that is not shed now (R387)? (Log 113: DEDUCED) -/
def Dev.calSheds (d : Dev) (n : Nat) : Bool :=
  (d.placed d.homeTx d.members (d.fmx.tx.excl ||| pow2 n)).shed.any fun f => !d.fmx.tx.shed.contains f

/-- The transmit side moves towards HALTED with its banks on (R388). (Log 114: DEDUCED) -/
def Dev.calHalt (d : Dev) (n : Nat) : Dev :=
  let t := (d.le n).tx
  match d.txState n with
  | 0 => ((d.modTx n fun t => { t with goal := 8, after := 0 }).enterTx n 1).enqueue n 1
  | 1 => d.modTx n fun t => { t with goal := 8, after := 0 }
  | 2 => (((d.setTxen n false).dequeue n).modTx n fun t => { t with goal := 8, after := 0 }).enterTx n 8
  | 3 => (d.rampCatch n).modTx n fun t => { t with goal := 8, after := 0 }
  | 5 => (d.rampCatch n).modTx n fun t => { t with goal := 8, after := 0 }
  | 7 => if t.lagDone then d else d.modTx n fun t => { t with goal := 8, after := 0 }
  | 8 => d
  | _ => if t.goal = 8 then d else (d.modTx n fun t => { t with goal := 8, after := 0 }).enqueue n 3

/-- The holds that the running kind takes (R386, R389). A held transmit side withdraws the carrier's offer.
(Log 65: DEDUCED, 114: DEDUCED) -/
def Dev.calHolds (d : Dev) : Dev :=
  let n := d.calLe
  let kind := d.calKind
  let d := onlyIf (kind == 1 || kind == 4) (fun d =>
    if (d.le n).rx.held then d else (d.modRx n fun r => { r with held := true }).rxReconsider n) d
  let d := onlyIf (kind == 2 || kind == 3) (fun d => (d.modTx n fun t => { t with calHold := true }).modFmx fun x =>
    { x with withdrawn := setBit x.withdrawn n true }) d
  let d := d.paceFollow n
  onlyIf (kind == 2 || (kind == 1 && d.txState n == 0)) (fun d => d.calHalt n) d

/-- Is every hold of the running kind in place? (Log 115: DEDUCED) -/
def Dev.calHeld (d : Dev) : Bool :=
  let n := d.calLe
  match d.calKind with
  | 1 => d.rxState n == 1 && d.txState n != 0 && !(d.txState n == 1 && (d.le n).tx.goal == 8) && d.bankState n 0 != 0 && d.bankState n 0 != 3
  | 2 => d.txState n == 8
  | 3 => (d.le n).tx.calHold
  | _ => d.rxState n == 1

/-- Once the departure is over, the holds are taken (R387). -/
def Dev.calStep (d : Dev) : Dev :=
  if d.calIn 2 && !d.isDeparting d.calLe then (d.calTo 3).calHolds else d

/-- The departure of the carrier begins, or is over at once (R217, R387). -/
def Dev.calDepart (d : Dev) (n : Nat) : Dev :=
  let d := d.calTo 2
  if d.isDeparting n then d
  else
    let d := d.beginDeparture n
    (if d.departureMet n then d.completeDeparture n else d).calStep

/-- A command's registers at its start. -/
def Dev.calBegin (d : Dev) (kind n : Nat) : Dev :=
  let d := ((d.setB Reg.CAL_CMD_STAT.BUSY 0 true).set Reg.CAL_CMD_STAT.KIND 0 kind).set Reg.CAL_CMD_STAT.LE 0 n
  { (((d.calTo 0).set Reg.CAL_CMD_STAT.DETAIL 0 0).set Reg.CAL_CMD_STAT.RESULT 0 0) with calRun := CalRun.reset }

/-- RUN of a line-engine kind: its requirement, the trial, and the departure (R386, R387). -/
def Dev.calRunLe (d : Dev) (kind n : Nat) : Dev :=
  let d := d.calBegin kind n
  if !d.calReady kind n then d.calEnd 2
  else
    let d := d.calTo 1
    if d.calSheds n && !d.flag Reg.CAL_CTRL.ALLOW_SHED 0 then d.calEnd 1 else d.calDepart n

/-- RUN of the monitor kind (R409). -/
def Dev.calRunMon (d : Dev) : Dev := (d.calBegin 5 0).monCalAsk

/-- The running command ends as aborted or because its line engine left the required state (R390). (Log 112: DEDUCED) -/
def Dev.calAbort (d : Dev) : Dev :=
  if d.calBusy then (onlyIf (d.calKind == 5) Dev.monCalOver d).calEnd 9 else d

/-- The receive path of line engine `n` is disabled, or its transmit is killed: the command that needs it ends with DETAIL
10 (R389, R390). -/
def Dev.calRxLost (d : Dev) (n : Nat) : Dev :=
  if d.calBusy && d.calLe == n && (d.calKind == 1 || d.calKind == 4) then d.calEnd 10 else d
def Dev.calTxLost (d : Dev) (n : Nat) : Dev :=
  if d.calBusy && d.calLe == n && d.calKind == 3 then d.calEnd 10 else d

/-! ### The phases (R387) -/

/-- The bank that a kind uses. -/
def calBank (kind : Nat) : Nat := if kind = 1 ∨ kind = 4 then 0 else 1

/-- Every hold is in place, and SETTLE begins. -/
def Dev.calHold (d : Dev) : Dev :=
  if !d.calIn 3 then d
  else
    let d := d.calHolds
    if d.calHeld then d.calTo 4 else d

/-- The bank has been on for 100 ms, and MEASURE begins. -/
def Dev.calSettle (d : Dev) : Dev :=
  if !d.calIn 4 then d
  else
    let b := calBank d.calKind
    let d := d.until (Store.get (fun _ => 0) (d.le d.calLe).tx.bankEnd b + ms 100)
    { (d.calTo 5) with calRun := { CalRun.reset with since := d.now } }

/-- The delay of the reference that the user states, in 2^-16 ns. -/
def Dev.calRef (d : Dev) : Int := ofPs (d.getS Reg.CAL_REF_PS.PS 0)

/-- A TIMECAL_IN edge at `t` during a time-path measurement: TXB of R394 where it lies within 1 µs of its expected time, or
the trigger of R395. (Log 116: DEDUCED) -/
def Dev.calCapture (d : Dev) (t : Int) : Dev :=
  if !d.calIn 5 then d
  else
    match d.calKind, d.calRun.sample, d.delayTerm d.calLe 0 with
    | 3, some T, some dac =>
      let b := t - d.calRef - (stamp T + ofPs (6000 + 128000 + dac))
      if b.natAbs ≤ 1000 * 65536 then { d with calRun := { d.calRun with caps := b :: d.calRun.caps } } else d
    | 4, _, _ => { d with calRun := { d.calRun with caps := t :: d.calRun.caps } }
    | _, _, _ => d

/-- A sample galley starts: the pattern of R394 goes out with it. -/
def Dev.calGalley (d : Dev) (gnum : Nat) : Dev :=
  if d.calIn 5 && d.calKind == 3 && gnum % 256 == 0 then { d with calRun := { d.calRun with sample := some d.tgrid } } else d

/-- Mean and standard deviation, in ps, of delays in 2^-16 ns. (Log 116: DEDUCED) -/
def meanPs (l : List Int) : Int := toPs (l.foldl (· + ·) 0 / (l.length : Int))
def spreadPs (l : List Int) : Nat :=
  let m := l.foldl (· + ·) 0 / (l.length : Int)
  let s := (l.foldl (fun a x => a + (x - m) * (x - m)) 0).natAbs / l.length
  (rootOf 2 s 64 0) * 125 / 8192

/-- A time-path measurement ends with the delays of its usable edges (R385, R394, R395). (Log 116: DEDUCED) -/
def Dev.calPath (d : Dev) (all : List Int) : Dev :=
  let want := d.get Reg.CAL_TPATH.CAPTURES 0
  let l := all.take want
  let d := if l.length < want then d.until (d.calRun.since + 4 * want * 5240000) else d
  let d := (d.set Reg.CAL_TPATH_RES.USED 0 l.length).set Reg.CAL_TPATH_RES.SPREAD_PS 0
    (if l.isEmpty then 0 else capN 0xFFFF (spreadPs l))
  if 2 * l.length < want then d.calEnd 8
  else if meanPs l < 0 ∨ 1000000 < meanPs l then d.calEnd 7
  else { (d.calTo 6) with calRun := { d.calRun with delay := (meanPs l).toNat } }

/-- A measurement finishes with results, or fails (R387, R392 to R395, R409). (Log 117: DEDUCED) -/
def Dev.calMeasured (d : Dev) (r : CalResult) : Dev :=
  match r with
  | .set words met =>
    if !d.calIn 5 || 3 ≤ d.calKind then d
    else
      let body := d.setHead d.calKind d.calLe ++ (List.range (setLen d.calKind - 3)).map fun i => trunc 32 (words.getD i 0)
      if met && setRangesOk d.calKind body then
        { (d.calTo 6) with calRun := { d.calRun with words := body ++ [setCrc body] } }
      else d.calEnd 7
  | .edges times =>
    if !d.calIn 5 then d
    else if d.calKind = 3 then d.calPath d.calRun.caps.reverse
    else if d.calKind = 4 then
      let adc := ofPs ((d.delayTerm d.calLe 2).getD 0)
      d.calPath (List.zipWith (fun t c => (t - adc) - (c + d.calRef)) times d.calRun.caps.reverse)
    else d
  | .monitor bandgap words =>
    if !d.calBusy || d.calKind ≠ 5 || d.mon.busy ≠ 3 then d
    else
      let body := d.setHead 5 0 ++ [d.setWord 5 0 2] ++ (List.range 3).map fun i => trunc 32 (words.getD i 0)
      let d := d.monCalOver
      if within bandgap 19000 21000 && setRangesOk 5 body then (d.applySet 5 0 (body ++ [setCrc body])).calEnd 0
      else d.linesFresh.calEnd 7

/-- The galley boundary at which the results are written (R387). -/
def Dev.calApply (d : Dev) : Dev :=
  if !d.calIn 6 then d
  else
    let n := d.calLe
    let d := d.until (d.galleyFrom (d.now + 1))
    let d :=
      if d.calKind ≤ 2 then d.applySet d.calKind n d.calRun.words
      else d.setTab 0x42 0x01 n (if d.calKind = 3 then 1 else 3) d.calRun.delay
    d.calEnd 0

/-! ### Restore and drift (R399, R400) -/

/-- The DETAIL code with which a restore of the staged set ends. (Log 124: DEDUCED) -/
def Dev.restoreDetail (d : Dev) (words : List Nat) : Nat :=
  let w0 := words.getD 0 0
  let kind := bitsOf w0 20 4
  let n := bitsOf w0 16 3
  let l := setLen kind
  if bitsOf w0 24 8 ≠ 1 ∨ (kind ≠ 1 ∧ kind ≠ 2 ∧ kind ≠ 5) then 6
  else if setCrc (words.take (l - 1)) ≠ words.getD (l - 1) 0 then 4
  else if words.getD 1 0 ≠ ofBytesLE (d.ownIdent.take 4) then 5
  else if !setRangesOk kind words then 3
  else if kind = 1 ∧ d.rxState n ≠ 0 then 2
  else if kind = 2 ∧ d.txState n ≠ 0 ∧ d.txState n ≠ 8 then 2
  else if kind = 5 ∧ (d.mon.busy ≠ 0 ∨ d.flag Reg.MON_STAT.RUN 0 ∨ d.flag Reg.MON_INJ.PEND 0) then 2
  else 0

/-- RESTORE: the staged set is checked and applied, or refused; the staging table is overwritten with zeros. -/
def Dev.calRestore (d : Dev) : Dev :=
  let words := (List.range 64).map fun i => d.tab 0x32 0x04 i 0
  let w0 := words.getD 0 0
  let detail := d.restoreDetail words
  let d := d.calBegin (bitsOf w0 20 4) (bitsOf w0 16 3)
  let d := if detail = 0 then d.applySet d.calKind d.calLe (words.take (setLen d.calKind)) else d
  let d := d.over (List.range 64) fun i d => d.setTab 0x32 0x04 i 0 0
  let d := ((d.setB Reg.CAL_CMD_STAT.BUSY 0 false).set Reg.CAL_CMD_STAT.DETAIL 0 detail).set Reg.CAL_CMD_STAT.RESULT 0 (calResult detail)
  d.raise Ev.calDone 0 0 (calResult detail + detail * 256)

/-- Has the temperature of line engine `n`, in 1/64 °C, moved beyond the limit since a set was measured (R400)? (Log 118: DEDUCED) -/
def Dev.drifted (d : Dev) (n : Nat) (temp : Int) : Bool :=
  let far (kind : Nat) : Bool :=
    decide (64 * d.get Reg.CAL_CTRL.DRIFT_C 0 < (temp - sgn 16 (lo16 (d.setWord kind n 2))).natAbs)
  (d.flag Reg.LE_ADC_STAT.CAL_VALID n && far 1) || ((d.delayTerm n 0).isSome && far 2)

/-- The comparison of each second. -/
def Dev.calDrift (d : Dev) (temps : List Int) : Dev :=
  d.over allLe fun n d =>
    let b := d.drifted n (temps.getD n 0)
    if b == d.bit Reg.CAL_DRIFT.LE 0 n then d
    else (d.putBit Reg.CAL_DRIFT.LE 0 n b).raise Ev.calDrift 0 n (b1 b)

end Sys2Proof.Machine
end

