-- ==== Sys2Proof/Machine/Trust.lean ====
section
/-! DEFINITION. Firmware images and boot, the identity key, the owner's records and attestation over SPDM (R365 to R383, R440,
R441). -/

namespace Sys2Proof.Machine

/-! ### Images (R367, R368) -/

/-- A little-endian word of an image. -/
def Image.word (m : Image) (i : Nat) : Nat := ofBytesLE (slice m.bytes i 4)

/-- The header fields. -/
def Image.nseg (m : Image) : Nat := m.bytes.getD 6 0
def Image.svn (m : Image) : Nat := m.word 8
def Image.keyIdx (m : Image) : Nat := m.bytes.getD 5 0
def Image.flags (m : Image) : Nat := m.bytes.getD 7 0
def Image.len (m : Image) : Nat := m.word 16

/-- The segments as loaded: DEST and bytes (R367). -/
def Image.loads (m : Image) : List (Nat × List Nat) :=
  (List.range m.nseg).map fun k => (bitsOf (m.word (72 + 48 * k)) 0 5, slice m.bytes (m.word (64 + 48 * k)) (m.word (68 + 48 * k)))

/-- The segments: offset, length, digest. -/
def Image.segments (m : Image) : List (Nat × Nat × List Nat) :=
  (List.range m.nseg).map fun k => (m.word (64 + 48 * k), m.word (68 + 48 * k), slice m.bytes (80 + 48 * k) 32)

/-- Do two segments share a byte? -/
def overlap (a b : Nat × Nat × List Nat) : Bool := decide (a.1 < b.1 + b.2.1) && decide (b.1 < a.1 + a.2.1) && a.2.1 != 0 && b.2.1 != 0

/-- Do the first of a list and any later one overlap, anywhere in the list? -/
def anyOverlap : List (Nat × Nat × List Nat) → Bool
  | [] => false
  | a :: rest => rest.any (overlap a) || anyOverlap rest

/-- Check 8: NSEG, OFFSET, LENGTH and IMAGE_LEN. -/
def Image.layoutOk (m : Image) : Bool :=
  decide (1 ≤ m.nseg ∧ m.nseg ≤ 8 ∧ 1216 ≤ m.len ∧ m.len ≤ 4194304) &&
    (m.segments.all fun s => s.1 % 16 == 0 && decide (1216 ≤ s.1) && decide (s.1 + s.2.1 ≤ m.len)) &&
    !anyOverlap m.segments && (slice m.bytes (64 + 48 * m.nseg) (48 * (8 - m.nseg))).all (· == 0)

/-- The failure code of an image under checks 1 to 8; 0 where all pass. -/
def Dev.headerCode (d : Dev) (m : Image) : Nat :=
  let k := m.keyIdx
  if !m.answers || decide (m.bytes.length < 1216) then 1
  else if m.bytes.take 4 ≠ [0x4D, 0x44, 0x4C, 0x4E] || m.bytes.getD 4 0 ≠ 1 then 2
  else if bitsOf (m.word 20) 0 16 ≠ 0x3200 || decide (d.get Reg.CHIP_REV.MAJOR 0 * 16 + d.get Reg.CHIP_REV.MINOR 0 < bitsOf (m.word 20) 16 8) then 3
  else if decide (3 < k) || bitOf (d.get Reg.MCU_LIFECYCLE.REVOKED 0) k || sha256 (slice m.bytes 448 384) ≠ d.fuseBytes (8 + 8 * k) 8 then 4
  else if !pssVerify (ofBytesBE (slice m.bytes 448 384)) (m.bytes.take 832) (slice m.bytes 832 384) then 5
  else if m.svn < d.get Reg.MCU_LIFECYCLE.MIN_SVN 0 then 6
  else if bitOf m.flags 0 && d.get Reg.MCU_LIFECYCLE.STATE 0 != 1 then 7
  else if !m.layoutOk then 8
  else 0

/-- Check 9: the digests of the segments. -/
def Image.digestsOk (m : Image) : Bool := m.segments.all fun s => sha256 (slice m.bytes s.1 s.2.1) == s.2.2

/-! ### Boot (R365, R369, R370) -/

/-- The boot state: 0 ROM, 1 host image check, 2 RUN, 3 BOOT_WAIT. -/
def Dev.bootState (d : Dev) : Nat := d.get Reg.MCU_BOOT_STAT.STATE 0

/-- Is BOOT_WAIT in force: waiting, or checking an image that the host has staged (R370)? (Log 108: DEDUCED) -/
def Dev.bootWait (d : Dev) : Bool := d.bootState == 3 || d.bootState == 1
def Dev.enterBoot (d : Dev) (st : Nat) : Dev := (d.set Reg.MCU_BOOT_STAT.STATE 0 st).raise Ev.mcuBoot 0 0 st

/-- Does the lifecycle accept any image: DEV or PROD? -/
def Dev.boots (d : Dev) : Bool := d.get Reg.MCU_LIFECYCLE.STATE 0 == 1 || d.get Reg.MCU_LIFECYCLE.STATE 0 == 2

/-- An image that passed boots: its segments stand in their destinations, its measurements are recorded, the cores are
released and RUN is entered. -/
def Dev.bootImage (d : Dev) (m : Image) (source : Nat) : Dev :=
  let d := ((d.set Reg.MCU_BOOT_STAT.SOURCE 0 source).set Reg.MCU_FW_SVN.SVN 0 m.svn).set Reg.MCU_FW_VERSION.VERSION 0 (m.word 12)
  let d := d.set Reg.MCU_BOOT_TIME.MS 0 (capN 0xFFFF ((d.now - d.trust.sealAt) / 1000000))
  (d.modTrust fun t => { t with header := m.bytes.take 1216, loaded := m.loads, romDigest := sha256 Config.romDigest }).enterBoot 2

/-- The ROM boots (R369): the headers of both slots, the higher SVN (slot A on equal ones), its segments, else the other
slot, else BOOT_WAIT. `chain` is the flash's certificate chain, `chainOk` whether it parses with the identity key in its
leaf (R374). (Log 107: DEDUCED, 109: DESIGN CHOICE) -/
def Dev.romBoot (d : Dev) (a b : Image) (chain : List Nat) (chainOk : Bool) : Dev :=
  if !d.flag Reg.CHIP_SEAL.SEALED 0 || d.bootState != 0 then d
  else
    let d := d.modTrust fun t => { t with chain := if chainOk then chain else [] }
    if !d.boots then d.enterBoot 3
    else
      let ca := d.headerCode a
      let cb := d.headerCode b
      let firstB := ca != 0 || (cb == 0 && decide (a.svn < b.svn))
      let fa := if ca ≠ 0 then ca else if a.digestsOk then 0 else 9
      let fb := if cb ≠ 0 then cb else if b.digestsOk then 0 else 9
      let triedA := ca != 0 || !firstB || fb != 0
      let triedB := cb != 0 || firstB || fa != 0
      let d := (d.set Reg.MCU_BOOT_STAT.FAIL_A 0 (if triedA then fa else 0)).set Reg.MCU_BOOT_STAT.FAIL_B 0 (if triedB then fb else 0)
      if firstB then
        if fb = 0 then d.bootImage b 2 else if fa = 0 then d.bootImage a 1 else d.enterBoot 3
      else
        if fa = 0 then d.bootImage a 1 else if fb = 0 then d.bootImage b 2 else d.enterBoot 3

/-- The errors of a LOAD (R370, R383). -/
def Dev.loadErrs (d : Dev) (op len : Nat) : List Err :=
  failIf (op != 1) .reserved ++ failIf (decide (len = 0 ∨ 4096 < len)) .range ++
    failIf (d.bootState == 1) .busy ++ failIf (d.bootState != 1 && d.bootState != 3) .state

/-- LOAD: the check of the staged image begins. -/
def Dev.loadImage (d : Dev) (len : Nat) : Dev :=
  (d.set Reg.MCU_BOOT_STAT.STATE 0 1).modTrust fun t => { t with hostLen := len * 1024 }

/-- The check of the staged image ends: it boots, or FAIL_HOST shows the code and BOOT_WAIT goes on (R370). (Log 107: DEDUCED) -/
def Dev.hostImageDone (d : Dev) (staging : Nat → Nat) : Dev :=
  if d.bootState ≠ 1 then d
  else
    let m : Image := ⟨true, (List.range d.trust.hostLen).map staging⟩
    let code := if !d.boots then 7 else if d.headerCode m ≠ 0 then d.headerCode m else if m.digestsOk then 0 else 9
    let d := d.set Reg.MCU_BOOT_STAT.FAIL_HOST 0 code
    if code = 0 then d.bootImage m 3 else d.enterBoot 3

/-! ### The identity key (R371, R372) -/

/-- The 384-byte modulus of the identity key. -/
def Dev.modulus (d : Dev) : List Nat := bytesBE 384 d.identityKey.1

/-- The derivation fails: the key is unusable until the next reset. -/
def Dev.identityFail (d : Dev) : Dev := (d.setB Reg.CAR_ID_STAT.FAULT 0 true).raise Ev.idFault 0 0 0

/-- Is the derivation under way? In TEST and RMA no unit reads the device secret (R365). -/
def Dev.deriving_ (d : Dev) : Bool := d.flag Reg.CHIP_SEAL.SEALED 0 && !d.idReady && !d.idFault

/-- The derivation completes and is checked against IDENT. -/
def Dev.identityDerived (d : Dev) : Dev :=
  if !d.deriving_ || !d.boots then d
  else if sha256 d.modulus = d.ownIdent then d.setB Reg.CAR_ID_STAT.READY 0 true
  else d.identityFail

/-- Three seconds from the seal without a key. -/
def Dev.identityTimeout (d : Dev) : Dev :=
  if d.deriving_ then (d.until (d.trust.sealAt + sec 3)).identityFail else d

/-! ### Owner records (R375 to R377) -/

/-- The staged record. -/
def Dev.ownerRecord (d : Dev) (n : Nat) : List Nat := ((List.range 16).flatMap fun i => d.tabBytes 0x52 0x01 i 32).take n

/-- Is an owner digest fused? -/
def Dev.anchorFused (d : Dev) : Bool := (d.fuseBytes 56 8).any (· != 0)

/-- The errors of a write of `CAR_TRUST_CMD`. -/
def Dev.trustErrs (d : Dev) (op : Nat) : List Err :=
  failIf (op == 0 || decide (3 < op)) .reserved ++
    failIf (d.flag Reg.CAR_TRUST_STAT.BUSY 0 || d.carOp == 1 || d.carOp == 2) .busy

/-- A trust command starts. -/
def Dev.trustStart (d : Dev) (op : Nat) : Dev := (d.setB Reg.CAR_TRUST_STAT.BUSY 0 true).modTrust fun t => { t with cmd := op }

/-- RESULT and DETAIL written, BUSY clear, `CAR:TRUST_DONE` raised. -/
def Dev.trustEnd (d : Dev) (result detail : Nat) : Dev :=
  let d := (d.setB Reg.CAR_TRUST_STAT.BUSY 0 false).modTrust fun t => { t with cmd := 0 }
  ((d.set Reg.CAR_TRUST_STAT.RESULT 0 result).set Reg.CAR_TRUST_STAT.DETAIL 0 detail).raise Ev.trustDone 0 0 (result + detail * 256)

/-- ANCHOR_INSTALL ends. An exponent other than 65,537 makes the record invalid. (Log 106: DEDUCED, 110: DESIGN CHOICE) -/
def Dev.anchorInstall (d : Dev) : Dev :=
  let r := d.ownerRecord 392
  let digest := sha256 (r.drop 4)
  if r.getD 0 0 ≠ 1 ∨ r.getD 1 0 ≠ 4 ∨ ofBytesBE (slice r 388 4) ≠ 65537 then d.trustEnd Err.range.code 1
  else if (if d.anchorFused then digest ≠ d.fuseBytes 56 8 else d.trust.anchor.isSome) then d.trustEnd Err.locked.code 2
  else
    ((d.modTrust fun t => { t with anchor := some (ofBytesBE (slice r 4 384)), anchorDigest := digest }).setB
      Reg.CAR_TRUST_STAT.ANCHOR_SET 0 true).trustEnd 0 0

/-- The other identity of a pairing record, seen from this device. -/
def Dev.otherIdent (d : Dev) (r : List Nat) : List Nat :=
  if slice r 12 32 = d.ownIdent then slice r 44 32 else slice r 12 32

/-- PAIR_INSTALL ends: the record is installed, the identities received are judged anew, and the pairing digest goes to the
partner (R377). (Log 110: DESIGN CHOICE, 111: DEDUCED) -/
def Dev.pairInstall (d : Dev) : Dev :=
  let r := d.ownerRecord 464
  if r.getD 0 0 ≠ 1 ∨ r.getD 1 0 ≠ 3 then d.trustEnd Err.range.code 1
  else match d.anchorNow with
    | none => d.trustEnd Err.state.code 3
    | some n =>
      if !pssVerify n (r.take 80) (slice r 80 384) then d.trustEnd Err.auth.code 4
      else if slice r 12 32 ≠ d.ownIdent && slice r 44 32 ≠ d.ownIdent then d.trustEnd Err.inconsistent.code 5
      else if d.anyMember && decide (d.partnerIdent ≠ some (d.otherIdent r)) then d.trustEnd Err.state.code 6
      else
        let d := (d.modTrust fun t => { t with pairing := r }).setB Reg.CAR_TRUST_STAT.PAIRED 0 true
        let d := d.rejudge.trustEnd 0 0
        d.transferStart 0x20 d.pairingDigest

/-- PAIR_CLEAR ends. -/
def Dev.pairClear (d : Dev) : Dev :=
  if d.anyMember then d.trustEnd Err.state.code 6
  else (((d.modTrust fun t => { t with pairing := [] }).setB Reg.CAR_TRUST_STAT.PAIRED 0 false).rejudge).trustEnd 0 0

/-- The running trust command ends (R376). -/
def Dev.trustDone (d : Dev) : Dev :=
  if !d.flag Reg.CAR_TRUST_STAT.BUSY 0 then d
  else match d.trust.cmd with
    | 1 => d.anchorInstall
    | 2 => d.pairInstall
    | 3 => d.pairClear
    | _ => d

/-! ### Measurements and SPDM (R378 to R380) -/

/-- Measurement `k`: its type and value (R379). (Log 11: DESIGN CHOICE) -/
def Dev.measurement (d : Dev) (k : Nat) : Nat × List Nat :=
  let t := d.trust
  match k with
  | 1 => (0x00, t.romDigest)
  | 2 => (0x02, sha256 (d.fuseBytes 0 40 ++ d.fuseBytes 56 968))
  | 3 => (0x01, sha256 t.header)
  | 4 => (0x87, bytesLE 8 (d.get Reg.MCU_FW_SVN.SVN 0))
  | 5 => (0x03, if t.anchor.isSome then t.anchorDigest else List.replicate 32 0)
  | 6 => (0x83, [b1 d.anchorFused + b1 t.anchor.isSome * 2 + b1 (!t.pairing.isEmpty) * 4 +
      b1 (d.flag Reg.CAR_TRUST_STAT.CONFIRMED 0) * 8, 0, 0, 0])
  | 7 => (0x03, if t.pairing.isEmpty then List.replicate 32 0 else d.pairingDigest)
  | _ => (0x84, [d.get Reg.MCU_LIFECYCLE.STATE 0, d.get Reg.MCU_BOOT_STAT.SOURCE 0, t.header.getD 5 0, t.header.getD 7 0] ++
      bytesLE 4 (d.get Reg.MCU_FW_VERSION.VERSION 0))

def Dev.measurements (d : Dev) (l : List Nat) : List (Nat × Nat × List Nat) := l.map fun k => (k, d.measurement k)

/-- The certificate chain that the device serves, in the form in which SPDM carries it: length, digest of the root certificate,
certificates; none where no certificate is served (R374). (Log 109: DESIGN CHOICE) -/
def Dev.spdmChain (d : Dev) : Option (List Nat) :=
  let c := d.trust.chain
  if c.isEmpty then none
  else
    let root := c.take (4 + ofBytesBE (slice c 2 2))
    some (bytesLE 2 (36 + c.length) ++ [0, 0] ++ sha256 root ++ c)

/-- An object placed in the DOE mailbox is answered (R440). Objects above 1,028 dwords are discarded with DOE Error; in
FUSE_FAULT only discovery is answered. -/
def Dev.doe (d : Dev) (dwords : Nat) (always : Bool) (reply : DoeReply) : Dev :=
  if 1028 < dwords then { d with host := { d.host with doeError := true, doeBusy := false, doeResp := none } }
  else if d.flag Reg.CHIP_SEAL.FAULT 0 && !always then d
  else { d with host := { d.host with doeBusy := false, doeResp := some reply } }.sendVector 23

/-- An SPDM request (R378): Busy until RUN and READY. `GET_VERSION` is answered at all times. (Log 13: PRESUMED) -/
def Dev.spdm (d : Dev) (dwords : Nat) (reply : DoeReply) : Dev :=
  d.doe dwords false (if d.bootState == 2 && d.idReady then reply else .errorBusy)

def Dev.spdmVersion (d : Dev) (dwords : Nat) : Dev := d.doe dwords false .version
def Dev.spdmCapabilities (d : Dev) (dwords : Nat) : Dev := d.spdm dwords .capabilities
def Dev.spdmAlgorithms (d : Dev) (dwords : Nat) : Dev := d.spdm dwords .algorithms
def Dev.spdmDigests (d : Dev) (dwords : Nat) : Dev := d.spdm dwords (.digests (d.spdmChain.map sha256))
def Dev.spdmUnsupported (d : Dev) (dwords : Nat) : Dev := d.spdm dwords .errorUnsupported

/-- A portion of the chain, of at most 4,000 bytes; slot 0 is the only one. -/
def Dev.spdmCertificate (d : Dev) (dwords slot offset len : Nat) : Dev :=
  d.spdm dwords (match d.spdmChain with
    | some c =>
      if slot ≠ 0 ∨ c.length ≤ offset then .errorInvalid
      else
        let n := min len 4000
        .certificate (slice c offset n) (c.length - offset - (slice c offset n).length)
    | none => .errorInvalid)

/-- CHALLENGE: nonce, summary and signature come from the part's generator and the identity key: free values. -/
def Dev.spdmChallenge (d : Dev) (dwords slot summary : Nat) : Dev :=
  let digest := d.spdmChain.map sha256
  let nonce := d.fresh
  let d := d.drawn
  let sum := d.fresh
  let d := d.drawn
  let reply : DoeReply := .challengeAuth digest (trunc 256 nonce) (if summary = 0 then none else some (bytesBE 32 (trunc 256 sum))) (trunc 3072 d.fresh)
  d.drawn.spdm dwords (if slot ≠ 0 || digest.isNone then .errorInvalid else reply)

/-- GET_MEASUREMENTS: operation 0 asks for the number of blocks, 0xFF for all, else for one. -/
def Dev.spdmMeasurements (d : Dev) (dwords op : Nat) (signed : Bool) : Dev :=
  let nonce := d.fresh
  let d := d.drawn
  let sig := if signed then some (trunc 3072 d.fresh) else none
  let d := d.drawn
  let all := [1, 2, 3, 4, 5, 6, 7, 8]
  let l := if op = 0xFF then all else if op = 0 then [] else [op]
  d.spdm dwords (if 8 < op && op != 0xFF then .errorInvalid else .measurements (d.measurements l) (trunc 256 nonce) sig)

/-- DOE discovery (R440): the objects in turn. -/
def Dev.doeDiscovery (d : Dev) (dwords index : Nat) : Dev :=
  d.doe dwords true (match index with
    | 0 => .discovery 0x0001 0 1
    | 1 => .discovery 0x0001 1 2
    | 2 => .discovery 0x1E98 2 0
    | _ => .discovery 0xFFFF 0 0)

/-- A DOE Abort (R440). -/
def Dev.doeAbort (d : Dev) : Dev := { d with host := { d.host with doeBusy := false, doeError := false, doeResp := none } }

end Sys2Proof.Machine
end

