-- ==== Sys2Proof/Machine/Ecc.lean ====
section
/-! DEFINITION. Memory protection: errors found and their consequences, the scrubber, the recurrence tracker, sparing and
injection (R415 to R430). -/

namespace Sys2Proof.Machine

/-! ### Regions (R415) -/

/-- The size of a region in bytes; 0 for the regions that have none stated. -/
def regionSize (r : Nat) : Nat :=
  match r with
  | 4 => 0x200000 | 5 => 0x30000 | 6 => 0x4000 | 7 => 0x300000 | 8 => 0x2000000 | 9 => 0x40000
  | _ => if r < 4 then 0x100000 else 0

/-- Is a region of the strong code, and is it scrubbed? -/
def strong (r : Nat) : Bool := decide (r ≤ 8)
def scrubbed (r : Nat) : Bool := decide (r ≤ 9)

/-- Memory protection changed. -/
def Dev.modEcc (d : Dev) (f : Ecc → Ecc) : Dev := { d with ecc := f d.ecc }

/-- The key of a byte of a region. -/
def byteKey (r off : Nat) : Nat := r * pow2 25 + off

/-- What is wrong with a byte, and the number of its wrong bits. -/
def Dev.badByte (d : Dev) (r off : Nat) : BadByte := Store.get (fun _ => BadByte.none) d.ecc.bad (byteKey r off)
def BadByte.bits (b : BadByte) : Nat := ((List.range 8).filter (bitOf b.mask)).length + b.struck

/-- The code corrects up to two wrong bits of a byte in a strong region and one in a light one; the rest is detected. (Log 125: DEDUCED) -/
def BadByte.corrects (r : Nat) (b : BadByte) : Bool := decide (0 < b.bits) && decide (b.bits ≤ if strong r then 2 else 1)
def BadByte.fails (r : Nat) (b : BadByte) : Bool := decide ((if strong r then 2 else 1) < b.bits)

/-- A byte's damage replaced. -/
def Dev.setBad (d : Dev) (r off : Nat) (b : BadByte) : Dev :=
  d.modEcc fun x => { x with bad := Store.set (fun _ => BadByte.none) x.bad (byteKey r off) b }

/-- Bits of a word's bytes that have been struck since it was last read. -/
def Dev.strike (d : Dev) (r off : Nat) (struck : List Nat) : Dev :=
  d.over (List.range struck.length) fun i d =>
    if struck.getD i 0 = 0 then d
    else d.setBad r (off + i) { d.badByte r (off + i) with struck := (d.badByte r (off + i)).struck + struck.getD i 0 }

/-- Writes clear whatever the bytes written held (R419). (Log 129: DEDUCED) -/
def Dev.clearBad (d : Dev) (r off len : Nat) : Dev :=
  d.modEcc fun x => { x with bad := Store.clear x.bad fun k => decide (byteKey r off ≤ k) && decide (k < byteKey r off + len) }

/-! ### Counting and reporting (R416, R417) -/

/-- A count of a region (0 CORR, 1 UNCORR, 2 WB, 3 TRK_OVF) raised. -/
def Dev.eccCount (d : Dev) (r k : Nat) : Dev :=
  let top := if k = 3 then 0xFFFF else 0xFFFFFFFF
  d.modEcc fun x =>
    { x with counts := Store.set (fun _ => 0) x.counts (r * 4 + k) (capN top (Store.get (fun _ => 0) x.counts (r * 4 + k) + 1)) }

/-- The latest error in the log. -/
def Dev.eccLog (d : Dev) (r off kind : Nat) (unc : Bool) : Dev :=
  let d := ((d.set Reg.ECC_LOG.REGION 0 r).set Reg.ECC_LOG.KIND 0 kind).set Reg.ECC_LOG.LANE 0 (off % 8)
  (d.setB Reg.ECC_LOG.UNC 0 unc).set Reg.ECC_LOG_ADDR.OFFSET 0 off

/-- An uncorrectable byte read: the region's count and sum, `ECC:UNCORR`, and the alarm of the key store. (Log 129: DEDUCED) -/
def Dev.uncorrectable (d : Dev) (r off kind : Nat) : Dev :=
  let d := ((d.eccCount r 1).eccLog r off kind true).putBit Reg.ECC_SUM.UNCORR 0 r true
  let d := d.raise Ev.eccUncorr 0 r (off % 8 + kind * 16)
  if r = 5 then (d.alarmConditions (d.vault.present ||| 32)).clearBad 5 0 (regionSize 5) else d

/-- A byte read: corrected, or uncorrectable. (Log 128: DESIGN CHOICE) -/
def Dev.byteRead (d : Dev) (r off kind : Nat) : Dev :=
  let b := d.badByte r off
  if b.corrects r then (d.eccCount r 0).eccLog r off kind false
  else if b.fails r then d.uncorrectable r off kind
  else d

/-! ### Spare rows (R424, R425) -/

/-- Spare `k` of a region. -/
def Dev.spare (d : Dev) (r k : Nat) : Option Spare := Store.get (fun _ => none) d.ecc.spares (r * 8 + k)
def Dev.setSpare (d : Dev) (r k : Nat) (x : Option Spare) : Dev :=
  d.modEcc fun e => { e with spares := Store.set (fun _ => none) e.spares (r * 8 + k) x }

/-- The spare that serves a row. -/
def Dev.serving (d : Dev) (r row : Nat) : Option Nat :=
  (List.range 8).find? fun k => match d.spare r k with | some s => s.row == row && !s.failed | none => false

/-- The lowest-numbered free spare. -/
def Dev.freeSpare (d : Dev) (r : Nat) : Option Nat := (List.range 8).find? fun k => (d.spare r k).isNone

/-- `ECC:LASTING`, and the region's bit. -/
def Dev.sayLasting (d : Dev) (r code : Nat) : Dev := (d.putBit Reg.ECC_SUM.LASTING 0 r true).raise Ev.eccLasting 0 r code

/-- Entry `e` of a region's tracker. -/
def Dev.tracked (d : Dev) (r e : Nat) : Option Tracked := Store.get (fun _ => none) d.ecc.track (r * 16 + e)
def Dev.setTracked (d : Dev) (r e : Nat) (x : Option Tracked) : Dev :=
  d.modEcc fun c => { c with track := Store.set (fun _ => none) c.track (r * 16 + e) x }

/-- A row is to be spared: the spare that serves it has failed, and the next free one takes its copy. Without one the row
keeps serving. -/
def Dev.spareRow (d : Dev) (r e row : Nat) : Dev :=
  let d := match d.serving r row with
    | some k => d.setSpare r k (some ⟨row, true, false⟩)
    | none => d
  match d.freeSpare r with
  | some k => d.setSpare r k (some ⟨row, false, true⟩)
  | none => ((d.setTracked r e ((d.tracked r e).map fun t => { t with lasting := true }))).sayLasting r 2

/-- A lasting fault (R424). (Log 126: DEDUCED) -/
def Dev.lastingFault (d : Dev) (r e word : Nat) : Dev :=
  if strong r then d.spareRow r e (word / 64)
  else (d.setTracked r e ((d.tracked r e).map fun t => { t with lasting := true })).sayLasting r 1

/-! ### The recurrence tracker (R423) -/

/-- The entry for a word. (Log 127: DEDUCED) -/
def Dev.trackOf (d : Dev) (r word : Nat) : Option Nat :=
  (List.range 16).find? fun e => match d.tracked r e with | some t => t.word == word | none => false

/-- Has an entry's window passed without a count of 3? -/
def Dev.expired (d : Dev) (t : Tracked) : Bool :=
  !t.lasting && decide (t.count < 3) && decide (t.openAt + sec (d.get Reg.ECC_WINDOW.WINDOW_S 0) < d.now)

/-- A correction at a word. -/
def Dev.trackCorrection (d : Dev) (r word : Nat) : Dev :=
  match d.trackOf r word with
  | none => d
  | some e =>
    match d.tracked r e with
    | none => d
    | some t =>
      if d.expired t then d.setTracked r e none
      else if !t.armed || t.lasting || 3 ≤ t.count then d
      else
        let d := d.setTracked r e (some { t with count := t.count + 1, armed := false, priority := scrubbed r })
        if t.count = 2 then d.lastingFault r e word else d

/-- The place for a new entry: a free one, else the one whose window expired longest ago, else the lowest count and among
equals the oldest; never one marked LASTING. The answer says whether an entry is replaced. -/
def Dev.trackPlace (d : Dev) (r : Nat) : Option (Nat × Bool) :=
  match (List.range 16).find? fun e => (d.tracked r e).isNone with
  | some e => some (e, false)
  | none =>
    let open_ := (List.range 16).filterMap fun e => (d.tracked r e).map fun t => (e, t)
    let gone := open_.filter fun x => d.expired x.2
    let pick (l : List (Nat × Tracked)) (better : Tracked → Tracked → Bool) : Option (Nat × Tracked) :=
      l.foldl (fun a x => match a with | some y => if better x.2 y.2 then some x else a | none => some x) none
    let old (a b : Tracked) : Bool := decide (a.openAt < b.openAt)
    let low (a b : Tracked) : Bool := decide (a.count < b.count) || (a.count == b.count && old a b)
    match pick gone old, pick (open_.filter fun x => !x.2.lasting) low with
    | some x, _ => some (x.1, true)
    | none, some x => some (x.1, true)
    | none, none => none

/-- A write-back at a word: its entry may count again, or one is opened. -/
def Dev.trackWriteBack (d : Dev) (r word : Nat) : Dev :=
  let fresh : Option Tracked := some ⟨word, 1, d.now, false, false, true⟩
  match d.trackOf r word with
  | some e =>
    match d.tracked r e with
    | some t => if d.expired t then d.setTracked r e fresh else d.setTracked r e (some { t with armed := true, priority := false })
    | none => d
  | none =>
    match d.trackPlace r with
    | none => d
    | some (e, false) => d.setTracked r e fresh
    | some (e, true) =>
      let d := (d.setTracked r e fresh).eccCount r 3
      if since d.ecc.fullSaid d.now (sec 1) then (d.modEcc fun x => { x with fullSaid := some d.now }).raise Ev.eccTrkFull 0 r 0 else d

/-- A word read by a reader of a kind: each damaged byte is corrected or reported, and a correction is tracked. -/
def Dev.wordRead (d : Dev) (r off kind : Nat) : Dev :=
  let base := off / 8 * 8
  let corrected := (List.range 8).any fun i => (d.badByte r (base + i)).corrects r
  let d := d.over (List.range 8) fun i d => d.byteRead r (base + i) kind
  onlyIf corrected (fun d => d.trackCorrection r (base / 8)) d

/-- The damaged words of a range, and a read of all of them; is any byte of the range uncorrectable? -/
def Dev.badWords (d : Dev) (r off len : Nat) : List Nat :=
  (d.ecc.bad.filterMap fun e =>
    if byteKey r off ≤ e.1 ∧ e.1 < byteKey r off + len then some (e.1 % pow2 25 / 8 * 8) else none).eraseDups
def Dev.rangeRead (d : Dev) (r off len kind : Nat) : Dev := d.over (d.badWords r off len) fun w d => d.wordRead r w kind
def Dev.rangeFails (d : Dev) (r off len : Nat) : Bool :=
  d.ecc.bad.any fun e => decide (byteKey r off ≤ e.1) && decide (e.1 < byteKey r off + len) && e.2.fails r

/-- The trust unit reads its store, region 6: an uncorrectable byte makes the identity key, the anchor and the pairing record
unusable until reset (R417). (Log 164: DESIGN CHOICE) -/
def Dev.trustRead (d : Dev) : Dev :=
  if d.trust.lost || !d.rangeFails 6 0 (regionSize 6) then d
  else
    let d := (d.rangeRead 6 0 (regionSize 6) 5).modTrust fun t => { t with lost := true }
    (d.setB Reg.CAR_ID_STAT.READY 0 false).identityFail

/-- An operation that uses the trust unit where `uses` holds: the store is read first. (Log 164: DESIGN CHOICE) -/
def Dev.withTrust (d : Dev) (uses : Bool) (f : Dev → Dev) : Dev := f (if uses then d.trustRead else d)

/-- A tracker entry's window ends without a count of 3. -/
def Dev.trackExpiry (d : Dev) (r e : Nat) : Dev :=
  match d.tracked r e with
  | none => d
  | some t =>
    if t.lasting || 3 ≤ t.count then d
    else (d.until (t.openAt + sec (d.get Reg.ECC_WINDOW.WINDOW_S 0))).setTracked r e none

/-- The copy into spare `k` ends (R425). Uncorrectable bytes were written to the spare as 0x00: their offsets are answered. -/
def Dev.spared (d : Dev) (r k : Nat) : Dev × List Nat :=
  match d.spare r k with
  | some s =>
    if s.copying then
      let lost := (List.range 512).filterMap fun i =>
        if (d.badByte r (s.row * 512 + i)).fails r then some (s.row * 512 + i) else none
      let d := d.over lost fun off d => d.uncorrectable r off 4
      let d := (d.clearBad r (s.row * 512) 512).setSpare r k (some { s with copying := false })
      let d := d.over (List.range 16) fun e d => match d.tracked r e with
        | some t => if t.word / 64 = s.row ∧ 3 ≤ t.count then d.setTracked r e none else d
        | none => d
      (d.raise Ev.eccSpared 0 r k, lost)
    else (d, [])
  | none => (d, [])

/-- The errors of a write of the spare table (R430), and the write. -/
def Dev.spareErrs (d : Dev) (index w : Nat) : List Err :=
  let r := index / 8
  let row := bitsOf w 0 16
  failIf (!strong r) .state ++
  failIf ((List.range 8).any fun k => match d.spare r k with | some s => s.copying | none => false) .busy ++
  failIf (strong r && decide (regionSize r / 512 ≤ row)) .range ++
  failIf ((d.serving r row).isSome || (d.spare r (index % 8)).isSome) .inconsistent
def Dev.spareWritten (d : Dev) (index w : Nat) : Dev := d.setSpare (index / 8) (index % 8) (some ⟨bitsOf w 0 16, false, true⟩)

/-! ### The scrubber (R421, R422) -/

/-- May the scrubber visit a region? -/
def Dev.scrubs (d : Dev) (r : Nat) : Bool := scrubbed r && d.bit Reg.SCB_CTRL.EN 0 r

/-- The region at or after `r`, in turn, that the scrubber visits. -/
def Dev.scrubFrom (d : Dev) (r : Nat) : Option Nat := ((List.range 10).map fun i => (r + i) % 10).find? d.scrubs

/-- The word marked for priority write-back. (Log 126: DEDUCED) -/
def Dev.priorityWord (d : Dev) : Option (Nat × Nat) :=
  (List.range 160).findSome? fun i =>
    match d.tracked (i / 16) (i % 16) with
    | some t => if t.priority && d.scrubs (i / 16) then some (i / 16, t.word) else none
    | none => none

/-- A visit of a word: reads and corrects it, and writes back the corrected bytes. (Log 126: DEDUCED) -/
def Dev.visitWord (d : Dev) (r off : Nat) (struck : List Nat) : Dev :=
  let d := d.strike r off (struck.take 8)
  let fixed := (List.range 8).filter fun i => (d.badByte r (off + i)).corrects r
  let d := d.wordRead r off 4
  let d := d.over fixed fun i d => (d.setBad r (off + i) BadByte.none).eccCount r 2
  if fixed.isEmpty then d else d.trackWriteBack r (off / 8)

/-- The place shown for the next visit. -/
def Dev.showScrub (d : Dev) : Dev :=
  (d.set Reg.SCB_STAT.REGION 0 d.ecc.region).set Reg.SCB_STAT.OFFSET 0 (Store.get (fun _ => 0) d.ecc.next d.ecc.region)

/-- The scrubber's next visit: a marked word first, else the next word of the lap. (Log 126: DEDUCED) -/
def Dev.scrubVisit (d : Dev) (struck : List Nat) : Dev :=
  match d.priorityWord with
  | some (r, word) => (d.wait 1).visitWord r (word * 8) struck
  | none =>
    match d.scrubFrom d.ecc.region with
    | none => d
    | some r =>
      let off := Store.get (fun _ => 0) d.ecc.next r
      let start := (Store.get (fun _ => none) d.ecc.lapAt r).getD d.now
      let d := (d.wait 1).visitWord r off struck
      if off + 8 < regionSize r then
        (d.modEcc fun x =>
          { x with region := r, next := Store.set (fun _ => 0) x.next r (off + 8), lapAt := Store.set (fun _ => none) x.lapAt r (some start) }).showScrub
      else
        let d := d.setJ Reg.ECC_LAP_TIME.LAP_US 0 r (capN 0xFFFFFFFF ((d.now - start) / 1000))
        let d := d.modEcc fun x =>
          { x with
            next := Store.set (fun _ => 0) x.next r 0, lapAt := Store.set (fun _ => none) x.lapAt r none
            lateSaid := x.lateSaid.filter (· != r), region := r }
        (d.modEcc fun x => { x with region := (d.scrubFrom ((r + 1) % 10)).getD r }).showScrub

/-- A lap is still running after LAP_LIMIT_S. -/
def Dev.lapLate (d : Dev) (r : Nat) : Dev :=
  match Store.get (fun _ => none) d.ecc.lapAt r with
  | some t =>
    if d.ecc.lateSaid.contains r then d
    else
      let d := d.until (t + sec (d.get Reg.SCB_CTRL.LAP_LIMIT_S 0))
      (d.modEcc fun x => { x with lateSaid := r :: x.lateSaid }).raise Ev.lapLate 0 r 0
  | none => d

/-! ### Injection and the management cores (R418, R427) -/

/-- The errors of an injection, and its effect: data bits from bit 0 on flip in place. -/
def Dev.eccInjErrs (region bits off : Nat) : List Err :=
  failIf (region == 5 || region == 6) .locked ++
  failIf (bits == 0 || (decide (region < 10) && decide (regionSize region ≤ off))) .range ++
  failIf (decide (10 ≤ region)) .state
def Dev.eccInject (d : Dev) (region bits off : Nat) : Dev :=
  let b := d.badByte region off
  d.setBad region off { b with mask := b.mask ^^^ (pow2 bits - 1) }

/-- A core's fetch from its own instruction memory, or a load from region 4 or 7, meets an uncorrectable error: the core
is halted. -/
def Dev.fetchTrap (d : Dev) (core region off : Nat) : Dev :=
  let r := if region = 4 ∨ region = 7 then region else core
  let d := onlyIf (!(d.badByte r off).fails r) (fun d => d.setBad r off { d.badByte r off with struck := 3 }) d
  let d := d.uncorrectable r off (if r = core then 0 else 1)
  d.modEcc fun x => { x with cores := Store.set (fun _ => 0) x.cores core 1 }

/-- The trapped core is restarted from its image, or stays halted until reset. -/
def Dev.coreRestart (d : Dev) (core : Nat) (ok : Bool) : Dev :=
  if Store.get (fun _ => 0) d.ecc.cores core ≠ 1 then d
  else if d.get Reg.MCU_BOOT_STAT.SOURCE 0 = 3 || !ok then
    (d.modEcc fun x => { x with cores := Store.set (fun _ => 0) x.cores core 2 }).raise Ev.fetchTrap 0 core 2
  else
    let d := d.clearBad core 0 (regionSize core)
    (d.modEcc fun x => { x with cores := Store.set (fun _ => 0) x.cores core 0 }).raise Ev.fetchTrap 0 core 1

end Sys2Proof.Machine
end

