-- ==== Sys2Proof/Machine/Pace.lean ====
section
/-! DEFINITION. Pace guards, the VCORE arbiter and the outbound elastic buffers (R24 to R38). -/

namespace Sys2Proof.Machine

/-- A galley's margin at line engine `n`: the smaller of its transmit and receive sides, in 0.1 %, with the buffers' fills
(R29, R32, R34). (Log 38: DEDUCED) -/
def Dev.paceMargin (d : Dev) (n : Nat) (tx rx : Int) (txFill rxFill : Nat) : Dev :=
  let m := clampI (-32768) 32766 (min tx rx)
  let v := unsgn 16 m
  let least := d.get Reg.LE_PG_MARGIN.MIN n
  let d := (d.set Reg.LE_PG_MARGIN.NOW n v).set Reg.LE_PG_MARGIN.MIN n (if least = 0x7FFF ∨ m < sgn 16 least then v else least)
  let d := (d.set Reg.LE_EB_FILL.TX_FILL n (capN 20480 txFill)).set Reg.LE_EB_FILL.RX_FILL n (capN 20480 rxFill)
  let low := decide (m < (d.get Reg.LE_PG_THRESH.EVT_MARGIN n : Int))
  let said := (d.le n).lowSpell
  let d := (d.setB Reg.LE_PG_STATE.LOW n low).setLe n { d.le n with lowSpell := low }
  let d := onlyIf (low && !said) (fun d => d.raise Ev.paceLow n n v) d
  let d := d.paceFollow n
  onlyIf (d.paceReq n != 1) (fun d => d.setLe n { d.le n with ceilSpell := false }) d

/-- A new target, sent over AVSBus. (Log 147: DEDUCED) -/
def Dev.setTarget (d : Dev) (mv : Nat) : Dev :=
  { (d.set Reg.CHIP_VCORE_NOW.TARGET_MV 0 mv).judgeApplied with power := { d.power with avsWrite := true } }

/-- The line engine behind an upward step: the lowest margin, and among equals the lowest number. (Log 34: DESIGN CHOICE) -/
def Dev.lowestMargin (d : Dev) : Nat :=
  (d.askUp.foldl (fun a n =>
    match a with
    | none => some n
    | some m => if sgn 16 (d.get Reg.LE_PG_MARGIN.NOW n) < sgn 16 (d.get Reg.LE_PG_MARGIN.NOW m) then some n else some m) none).getD 15

/-- The upward step (R30), or `LE:PACE_CEILING` at 800 mV (R32). -/
def Dev.stepUp (d : Dev) : Dev :=
  if !d.arb.acting || d.askUp.isEmpty then d
  else
    let d := match d.arb.lastUp with | some t => d.until (t + us 50) | none => d
    let now := d.get Reg.CHIP_VCORE_NOW.TARGET_MV 0
    if 800 ≤ now then
      d.over d.askUp fun n d =>
        if (d.le n).ceilSpell then d else (d.setLe n { d.le n with ceilSpell := true }).raise Ev.paceCeiling n n 0
    else
      let d := (d.setTarget (min 800 (now + d.get Reg.CHIP_VCORE_STEP.UP_MV 0))).set Reg.CHIP_VCORE_NOW.LAST_UP 0 d.lowestMargin
      d.modArb fun a => { a with lastUp := some d.now }

/-- Is a downward step suppressed: does a rail stand below its warning level, VCORE among them (R31)? (Log 35: DEDUCED) -/
def Dev.dipping (d : Dev) : Bool := d.get Reg.RST_SUPPLY_STAT.WARN 0 != 0 || d.power.vcoreSince.isNone

/-- The downward step: 100 ms of high margins, at most once per 10 ms, and with VCORE above its warning level for 1 ms
(R30, R31). (Log 35: DEDUCED) -/
def Dev.stepDown (d : Dev) : Dev :=
  let now := d.get Reg.CHIP_VCORE_NOW.TARGET_MV 0
  let floor := d.get Reg.CHIP_VCORE_FLOOR.FLOOR_MV 0
  match d.arb.highSince with
  | none => d
  | some t =>
    if !d.arb.acting || d.dipping || !d.askUp.isEmpty || now ≤ floor then d
    else
      let after (last : Option Nat) (gap : Nat) : Nat := match last with | some u => u + gap | none => 0
      let d := d.until (max (t + ms 100) (max (after d.arb.lastDown (ms 10)) (after d.power.vcoreSince (ms 1))))
      (d.setTarget (max floor (now - d.get Reg.CHIP_VCORE_STEP.DOWN_MV 0))).modArb fun a => { a with lastDown := some d.now }

/-- FLOOR_MV written: a floor above the target moves it at once (R38). -/
def Dev.floorErrs (d : Dev) (mv : Nat) : List Err :=
  failIf (decide (mv < d.get Reg.CHIP_VCORE_FLOOR.FUSE_MV 0) || decide (800 < mv)) .range
def Dev.floorWritten (d : Dev) (mv : Nat) : Dev :=
  let d := d.set Reg.CHIP_VCORE_FLOOR.FLOOR_MV 0 mv
  if d.get Reg.CHIP_VCORE_NOW.TARGET_MV 0 < mv then d.setTarget mv else d

/-- A DAC buffer runs dry: filler goes out, and the underrun is counted (R27). -/
def Dev.txUnderrun (d : Dev) (n : Nat) : Dev := (d.bump Reg.LE_EB_ERR.TX_UNDERRUN n).raise Ev.txUnderrun n n 0

end Sys2Proof.Machine
end

