-- ==== Sys2Proof/Machine/Pm.lean ====
section
/-! DEFINITION. Performance monitoring: seconds, unavailable time, bins and the time step (R180 to R187, R191). -/

namespace Sys2Proof.Machine

/-! ### Seconds (R181 to R184) -/

/-- The second in progress classified: severely errored, errored. A severely errored second is always an errored one, so the
percentage test needs an errored galley. (Log 63: DEDUCED) -/
def Pm.ses (p : Pm) : Bool := p.defSec || (decide (0 < p.eg) && decide (15 * p.gal ≤ 100 * p.eg))
def Pm.es (p : Pm) : Bool := p.defSec || decide (0 < p.eg)

/-- Seconds from serial `k` on, inhibited ones apart, moved into or out of unavailable time. -/
def markUas (k : Nat) (b : Bool) (l : List PmSecond) : List PmSecond :=
  l.map fun s => if decide (k ≤ s.serial) && !s.inh then { s with uas := b } else s

/-- The second in progress ends: it waits for its commit, and the run of R183 goes on. A run of 10 stands until the next second that
counts. (Log 183: DEDUCED) -/
def Pm.endSecond (p : Pm) (sec serial due : Nat) : Pm :=
  let s : PmSecond := ⟨sec, serial, due, p.inh, p.ses, p.es, p.eg, p.unavail⟩
  let p := { p with wait := p.wait ++ [s], eg := 0, gal := 0, inh := false, defSec := false }
  if s.inh then p
  else if s.ses == p.unavail then { p with run := 0 }
  else
    let run := if p.run = 10 then 0 else p.run
    let at_ := if run = 0 then serial else p.runAt
    if run + 1 < 10 then { p with run := run + 1, runAt := at_ }
    else { p with run := 10, unavail := !p.unavail, wait := markUas at_ (!p.unavail) p.wait }

/-- The carriers' and the flows' monitoring changed alike. -/
def Dev.overPm (d : Dev) (f : Pm → Pm) : Dev :=
  let d := d.over allLe fun n d => d.modFrm n fun x => { x with pm := f x.pm }
  { d with flowPm := (allFlows.map fun k => (k, f (d.fpm k))).filter fun e => e.2 != Pm.reset }

/-- What holds at the start of a second: defects still declared, and inhibition (R181, R184). -/
def Dev.pmBegin (d : Dev) : Dev :=
  let off := !d.flag Reg.FRM_PM_CTRL.EN 0
  let d := d.over allLe fun n d =>
    let inh := off || d.rawMasked n
    let defs := (List.range 6).any fun k => (d.defect n k).decl && d.defPm k
    (d.modFrm n fun x => { x with pm := { x.pm with inh := inh, defSec := defs } }).set Reg.FRM_PM_NOW.EG n 0
  let bad (f : Nat) : Bool :=
    (List.range 3).any (fun k => (d.fdef f k).decl && d.defPm (6 + k)) ||
      (d.fmx.rx.carriersOf f).any fun n => (List.range 6).any fun k => (d.defect n k).decl && d.defPm k
  let flow (k : Nat) : Pm := { d.fpm k with inh := off || !d.rxInService k, defSec := bad k }
  { d with flowPm := (allFlows.map fun k => (k, flow k)).filter fun e => e.2 != Pm.reset }

/-- The second in progress ends everywhere, at a device time in 2^-32 ns; its commit comes 10 s later (R183). -/
def Dev.pmClassify (d : Dev) (end_ : Nat) : Dev :=
  let c := d.pmClock
  let due := end_ + devSec 10
  let d := d.overPm fun p => p.endSecond c.sec c.serial due
  { d with pmClock := { c with serial := c.serial + 1, sec := secOf d.time } }.pmBegin

/-! ### Bins (R183, R185, R187) -/

/-- A second added to a bin. -/
def PmBin.add (b : PmBin) (s : PmSecond) : PmBin :=
  let up (v n : Nat) : Nat := capN 0xFFFFFFFF (v + n)
  if s.inh then { b with is := up b.is 1, used := true }
  else if s.uas then { b with uas := up b.uas 1, used := true }
  else
    { b with es := up b.es (b1 s.es), ses := up b.ses (b1 s.ses), bbe := up b.bbe (if s.es && !s.ses then s.err else 0), used := true }

/-- A second committed to the bins that hold its number: the current quarter and the current day. -/
def Pm.commit (p : Pm) (c : PmClock) (s : PmSecond) : Pm :=
  let into (k : Nat) (ok : Bool) (l : Store PmBin) : Store PmBin :=
    if ok then Store.set (fun _ => PmBin.reset) l k ((Store.get (fun _ => PmBin.reset) l k).add s) else l
  { p with
    wait := p.wait.drop 1
    bins := into 33 (s.sec / 86400 == c.day) (into 0 (s.sec / 900 == c.quarter) p.bins)
    committed := if s.inh then p.committed else s.uas }

/-- Is the first waiting second due at a device time? -/
def Pm.due (p : Pm) (now : Nat) : Option PmSecond :=
  match p.wait with
  | s :: _ => if s.due ≤ now then some s else none
  | [] => none

/-- The bin `k` of a monitor, and a bin moved to another place. -/
def Pm.bin (p : Pm) (k : Nat) : PmBin := Store.get (fun _ => PmBin.reset) p.bins k
def Pm.setBin (p : Pm) (k : Nat) (b : PmBin) : Pm := { p with bins := Store.set (fun _ => PmBin.reset) p.bins k b }

/-- The current quarter becomes history index 1, the older ones move up, index 32 is discarded. -/
def Pm.closeQuarter (c : PmClock) (p : Pm) : Pm :=
  let bins := p.bins.filterMap fun e =>
    if e.1 = 0 then some (1, { e.2 with start := c.startQ, invalid := c.invQ }) else if e.1 < 32 then some (e.1 + 1, e.2)
    else if e.1 = 32 then none else some e
  let p := { p with bins := bins }
  if (bins.any fun e => e.1 == 1) then p else p.setBin 1 { PmBin.reset with start := c.startQ, invalid := c.invQ }

/-- The current day becomes the previous day. -/
def Pm.closeDay (c : PmClock) (p : Pm) : Pm :=
  (p.setBin 34 { p.bin 33 with start := c.startD, invalid := c.invD }).setBin 33 PmBin.reset

/-- Does a bin whose last second is before second `stop` close: 10 s after its nominal end, once its last second is committed?
(Log 183: DEDUCED) -/
def Dev.binEnds (d : Dev) (stop : Nat) : Bool :=
  decide (stop + 10 ≤ secOf d.time) && !(d.le 0).frm.pm.wait.any fun s => decide (s.due ≤ d.time ∧ s.sec < stop)

/-- The bins that have ended close (R185). (Log 63: DEDUCED) -/
def Dev.closeBins (d : Dev) : Dev :=
  let c := d.pmClock
  let d :=
    if d.binEnds ((c.quarter + 1) * 900) then
      let d := d.overPm (Pm.closeQuarter c)
      let d := { d with pmClock := { c with quarter := c.quarter + 1, startQ := (c.quarter + 1) * 900, invQ := false } }
      (d.set Reg.FRM_PM_STAT.CLOSED 0 (d.get Reg.FRM_PM_STAT.CLOSED 0 + 1)).raise Ev.binClosed 0 0 0
    else d
  let c := d.pmClock
  let d :=
    if d.binEnds ((c.day + 1) * 86400) then
      let d := d.overPm (Pm.closeDay c)
      { d with pmClock := { c with day := c.day + 1, startD := (c.day + 1) * 86400, invD := false } }
    else d
  d.setB Reg.FRM_PM_STAT.INVALID 0 (d.pmClock.invQ || d.pmClock.invD)

/-- The due seconds are committed, `FRM:UNAVAIL` follows them, and bins that have ended close. -/
def Dev.pmCommit (d : Dev) : Dev :=
  let c := d.pmClock
  let now := d.time
  let spoken := allLe.filterMap fun n =>
    let p := (d.le n).frm.pm
    match p.due now with
    | some s => if !s.inh && s.uas != p.committed then some (n, s.uas) else none
    | none => none
  let d := d.overPm fun p => match p.due now with | some s => p.commit c s | none => p
  (spoken.foldl (fun d e => d.raise Ev.unavail e.1 e.1 (b1 e.2)) d).closeBins

/-- The current bins of every monitor cleared (R187). -/
def Dev.pmClear (d : Dev) : Dev :=
  (d.overPm fun p => { p with bins := p.bins.filter fun e => e.1 != 0 && e.1 != 33 }).setB Reg.FRM_PM_STAT.CLR_PEND 0 false

/-- A device second ends (R182); a pending clear follows any commit of this boundary (R187). -/
def Dev.pmSecondEnd (d : Dev) : Dev :=
  let end_ := devSec (d.pmClock.sec + 1)
  let d := (d.untilTime end_).pmClassify end_
  if d.flag Reg.FRM_PM_STAT.CLR_PEND 0 then d.pmCommit.pmClear else d

/-- Ten seconds after a second's end it is committed (R183). -/
def Dev.pmSecondCommit (d : Dev) : Dev :=
  match (d.le 0).frm.pm.wait with
  | [] => d
  | s :: _ => (d.untilTime s.due).pmCommit

/-- A write of 1 to CLR (R187). -/
def Dev.pmClrWritten (d : Dev) : Dev := d.setB Reg.FRM_PM_STAT.CLR_PEND 0 true

/-- The seconds in progress are inhibited from now on, after EN went to 0 or a flow left service (R184). -/
def Dev.pmInhibit (d : Dev) : Dev := d.overPm fun p => { p with inh := true }

/-- Device time has been stepped by so many 2^-16 ns: the seconds that wait keep their 10 s, the second in progress ends, and the
current bins restart on the new time (R186). (Log 63: DEDUCED, 183: DEDUCED) -/
def Dev.pmStep (d : Dev) (delta : Int) : Dev :=
  let later (s : PmSecond) : PmSecond := { s with due := ((s.due : Int) + delta * (pow2 16 : Int)).toNat }
  let d := (d.overPm fun p => { p with wait := p.wait.map later }).pmClassify d.time
  let s := d.pmClock.sec
  let d := d.overPm fun p => { p with bins := p.bins.filter fun e => e.1 != 0 && e.1 != 33 }
  { d with pmClock := { d.pmClock with quarter := s / 900, startQ := s, invQ := true, day := s / 86400, startD := s, invD := true } }.setB
    Reg.FRM_PM_STAT.INVALID 0 true

/-! ### Records (R191) -/

/-- Word `w` of the PM record of bin `k`. -/
def Dev.pmWord (d : Dev) (p : Pm) (k w : Nat) : Nat :=
  let b := p.bin k
  let c := d.pmClock
  let start := if k = 0 then c.startQ else if k = 33 then c.startD else b.start
  let inv := if k = 0 then c.invQ else if k = 33 then c.invD else b.invalid
  match w with
  | 0 => b.es
  | 1 => b.ses
  | 2 => b.uas
  | 3 => b.bbe
  | 4 => b.is
  | 5 => trunc 32 start
  | 6 => trunc 16 (start / pow2 32) + b1 inv * pow2 16 + b1 b.used * pow2 17
  | _ => 0

end Sys2Proof.Machine
end

