-- ==== Sys2Proof/Machine/Power.lean ====
section
/-! DEFINITION. Resets and the release, fuses and the seal, pins, the retained store, supplies and dips, AVSBus, and the die
temperature (R477 to R500). -/

namespace Sys2Proof.Machine

/-- Reset and supply state changed. -/
def Dev.modPower (d : Dev) (f : Power → Power) : Dev := { d with power := f d.power }

/-! ### The retained store (R488, R489) -/

/-- The state copied into the retained store. -/
def Dev.retCapture (d : Dev) : Dev :=
  let c : RetCopy :=
    { sec := stampSec d.time, ns := stampNs d.time, gnum := d.gnum, vcore := d.get Reg.CHIP_VCORE_NOW.TARGET_MV 0, hot := d.power.hotMax
      dips := (List.range 7).map fun k => d.getJ Reg.RST_DIP_CNT.DIPS 0 k, svn := d.get Reg.MCU_FW_SVN.SVN 0
      sticky := d.get Reg.CHIP_STICKY.EVQ_INTEGRITY 0 }
  { d with ret := { d.ret with copy := c } }

/-- The bytes of a reset record. -/
def RetRec.bytes (r : RetRec) : List Nat :=
  [r.cause, r.rails, b1 r.sealedAt, 0] ++ bytesLE 8 r.copy.sec ++ bytesLE 4 r.copy.ns ++ bytesLE 4 r.copy.gnum ++
  bytesLE 2 r.copy.vcore ++ bytesLE 2 r.copy.hot ++ r.copy.dips.flatMap (bytesLE 2) ++ [0, 0] ++ bytesLE 4 r.copy.svn ++
  bytesLE 4 r.copy.sticky ++ List.replicate 16 0

/-- The header's bytes 0 to 59, and the bytes of the sixteen records. -/
def Retained.header (r : Retained) : List Nat :=
  [1, b1 r.valid] ++ bytesLE 2 r.next ++ bytesLE 4 r.resets ++
  ((List.range 4).flatMap fun q => bytesLE 2 (Store.get (fun _ => 0) r.tailIdx q)) ++ List.replicate 44 0
def Retained.recBytes (r : Retained) (k : Nat) : List Nat :=
  match r.recs.find? fun e => e.1 == k with | some e => e.2.bytes | none => List.replicate 64 0

/-- A byte of the retained store (R489). -/
def Retained.byte (r : Retained) (off : Nat) : Nat :=
  if off < 60 then r.header.getD off 0
  else if off < 64 then
    (bytesLE 4 (crc32 (r.header ++ (List.range 16).flatMap r.recBytes))).getD (off - 60) 0
  else if off < 0x440 then (r.recBytes ((off - 64) / 64)).getD ((off - 64) % 64) 0
  else if off < 0x1000 ∨ 0x10000 ≤ off then 0
  else
    let i := off - 0x1000
    let e := Store.get (fun _ => Quad.zero) r.tails (i / 0x3C00 * 960 + i % 0x3C00 / 16)
    bitsOf ([e.w0, e.w1, e.w2, e.w3].getD (i % 16 / 4) 0) (8 * (i % 4)) 8

/-! ### Resets (R477 to R481) -/

/-- What a chip reset leaves of the device: its reset values, with the retained store, the sources active, and fresh draws for
RESET_ID and the import nonce. -/
def Dev.cleared (d : Dev) (cause rails : Nat) : Dev :=
  { Dev.reset with
    ret := if cause = 1 then { Retained.reset with next := 0, recs := [] } else d.ret
    power := { Power.reset with inReset := true, active := [cause], cause := cause, rails := rails, wasSealed := d.flag Reg.CHIP_SEAL.SEALED 0 }
    chime := { Chime.reset with resetDraw := d.free }
    vault := { Car.reset with nonceDraw := d.free + 1 }
    free := d.free + 2 }

/-- A chip-reset condition arises: the entry with its cause, or one more active source. A POR clears the retained store. The
store is copied into at the entry of PIN, THERMAL and SOFT resets. (Log 110: DESIGN CHOICE) -/
def Dev.chipReset (d : Dev) (cause rails : Nat) : Dev :=
  if d.power.inReset then
    let d := d.modPower fun p => { p with active := cause :: p.active }
    if cause = 1 then { d with ret := { Retained.reset with next := 0, recs := [] } } else d
  else (if 3 ≤ cause then d.retCapture else d).cleared cause rails

/-- A chip reset of the machine: the HDM store is zeroed before it is served again (R439, R478). (Log 141: DESIGN CHOICE) -/
def State.chipReset (s : State) (cause rails : Nat) : State := { s with mem := [], dev := s.dev.chipReset cause rails }

/-- The last condition clears and the leave-reset order begins: the retained store is checked, and the record of this reset
completed (R480, R488). Time from here on counts from the release. (Log 15: DESIGN CHOICE, 140: DESIGN CHOICE) -/
def Dev.release_ (d : Dev) (retOk : Bool) : Dev :=
  if !d.power.inReset then d
  else
    let p := d.power
    let keep := retOk && p.cause != 1
    let r := if keep then d.ret else { Retained.reset with next := 0, recs := [], resets := 0 }
    let rec_ : RetRec := ⟨p.cause, p.rails, p.wasSealed, r.copy⟩
    let r :=
      { r with
        valid := keep, next := (r.next + 1) % 16, resets := if p.cause = 1 then 0 else capN 0xFFFF (r.resets + 1)
        recs := (r.recs.filter fun e => e.1 != r.next) ++ [(r.next, rec_)], copy := RetCopy.reset }
    let d := { d with ret := r, now := 0, power := { p with inReset := false, active := [], goodSince := some 0, vcoreSince := some 0 } }
    (d.set Reg.CHIP_RST_CAUSE.LAST 0 p.cause).set Reg.CHIP_RST_CAUSE.RAILS 0 (if p.cause = 2 then p.rails else 0)

/-- A CXL reset: what belongs to the link's protocol is cleared, and the DMA channels halt with cause HOST and without
status; the rest runs on (R478). -/
def Dev.cxlReset (d : Dev) : Dev :=
  let d := d.bump Reg.CHIP_RST_CNT.CXL 0
  let d :=
    { d with msix := []
             host := { d.host with active := false, decoder := false, doeBusy := false, doeError := false, doeResp := none, moved := [] } }
  let d := ((d.setB Reg.CXL_LINK_STAT.UP 0 false).set Reg.CXL_LINK_STAT.WIDTH 0 0).set Reg.CXL_LINK_STAT.RATE 0 0
  d.over (List.range 16) fun c d =>
    let head := d.getJ Reg.DMA_RING.HEAD 0 c
    let d := if d.getJ Reg.DMA_STAT.RUN 0 c = 1 ∨ head ≠ d.getJ Reg.DMA_RING.TAIL 0 c then
        ((((d.setJ Reg.DMA_STAT.HALT 0 c 1).setJ Reg.DMA_STAT.RUN 0 c 0).setJ Reg.DMA_STAT.CAUSE 0 c 2).setJ Reg.DMA_STAT.CODE 0 c 0).setJ
          Reg.DMA_STAT.INDEX 0 c head
      else d
    d.setJ Reg.DMA_RING.HEAD 0 c (d.getJ Reg.DMA_RING.TAIL 0 c)

/-- The time-base clock locks: device time starts at 0, and the grid's first galley follows 20.48 µs later (R265, R480). -/
def Dev.timebaseLock (d : Dev) : Dev :=
  if d.locked then d
  else
    let d := d.until (us 300)
    { d with locked := true, lockAt := d.now, dt := 0, nextGalley := d.now + galleyNs }

/-! ### Fuses and the seal (R482 to R484) -/

/-- Does the CRC of a copy pass? -/
def fuseCrcOk (l : List Nat) : Bool := crc32 ((l.take 1023).flatMap (bytesLE 4)) == l.getD 1023 0

/-- The first word in which two copies differ; 0x7FF where none does. -/
def fuseMismatch (a b : List Nat) : Nat := ((List.range 1024).find? fun i => a.getD i 0 != b.getD i 0).getD 0x7FF

/-- The code of pin state `i` in a fuse map, and whether every code is permitted. -/
def fusePin (l : List Nat) (i : Nat) : Nat := bitsOf (l.getD (192 + i / 8) 0) (4 * (i % 8)) 4
def fusePinsOk (l : List Nat) : Bool :=
  (List.range 72).all fun i => decide (fusePin l i ≤ 4) && (decide (8 ≤ i) || fusePin l i == 3)

/-- The seal: identification registers, pins and trims take effect, and the VCORE target is sent (R33, R480, R483).
(Log 10: DESIGN CHOICE, 15: DESIGN CHOICE) -/
def Dev.seal (d : Dev) (a : List Nat) : Dev :=
  let head := a.take 8
  let cipher := Config.fuseCipher head
  let mv := Config.fuseMv head
  let d := { d.setB Reg.CHIP_SEAL.SEALED 0 true with fuse := a.map (trunc 32), trust := { d.trust with sealAt := d.now } }
  let d := (d.setB Reg.CHIP_FEATURE.CIPHER 0 cipher).setB Reg.CYP_STAT.CIPHER 0 cipher
  let d := (d.set Reg.CHIP_VCORE_FLOOR.FUSE_MV 0 mv).set Reg.CHIP_VCORE_FLOOR.FLOOR_MV 0 mv
  let d := (d.set Reg.CHIP_VCORE_NOW.TARGET_MV 0 (max 750 (trunc 10 mv))).judgeApplied
  let d := ((d.set Reg.MCU_LIFECYCLE.STATE 0 (Config.fuseLifecycle head)).set Reg.MCU_LIFECYCLE.MIN_SVN 0 (Config.fuseMinSvn head)).set
    Reg.MCU_LIFECYCLE.REVOKED 0 (Config.fuseRevoked head)
  let d := d.setB Reg.CAR_TRUST_STAT.ANCHOR_FUSED 0 d.anchorFused
  let d := d.over (List.range 128) fun i d =>
    let w := d.fuseWord (64 + i)
    (d.setJ Reg.HLN_LANE_DLY.RX_PS (i / 8) (i % 8) (bitsOf w Reg.HLN_LANE_DLY.RX_PS.lo Reg.HLN_LANE_DLY.RX_PS.width)).setJ
      Reg.HLN_LANE_DLY.TX_PS (i / 8) (i % 8) (bitsOf w Reg.HLN_LANE_DLY.TX_PS.lo Reg.HLN_LANE_DLY.TX_PS.width)
  { d with pins := [], power := { d.power with avsWrite := true } }

/-- A load attempt ends: the seal, another attempt, or FUSE_FAULT after three failures (R483, R484). -/
def Dev.fuseAttempt (d : Dev) (a b : List Nat) : Dev :=
  let n := d.get Reg.CHIP_SEAL.ATTEMPTS 0
  if d.flag Reg.CHIP_SEAL.SEALED 0 || d.flag Reg.CHIP_SEAL.FAULT 0 then d
  else
    let d := (d.until (ms (2 * (n + 1)))).set Reg.CHIP_SEAL.ATTEMPTS 0 (n + 1)
    let d := (d.setB Reg.CHIP_SEAL.CRC_A 0 (fuseCrcOk a)).setB Reg.CHIP_SEAL.CRC_B 0 (fuseCrcOk b)
    let d := d.set Reg.CHIP_SEAL.MISMATCH 0 (fuseMismatch a b)
    if fuseMismatch a b = 0x7FF && fuseCrcOk a && fuseCrcOk b && fusePinsOk a then d.seal a
    else onlyIf (n == 2) (fun d => d.setB Reg.CHIP_SEAL.FAULT 0 true) d

/-! ### Supplies and dips (R492, R493) -/

/-- A rail has stayed below its warning level for 100 ns. Before the seal it is counted only. -/
def Dev.pwrWarn (d : Dev) (rail : Nat) : Dev :=
  if d.bit Reg.RST_SUPPLY_STAT.WARN 0 rail then d
  else
    let d := (d.putBit Reg.RST_SUPPLY_STAT.WARN 0 rail true).putBit Reg.RST_SUPPLY_STAT.GOOD 0 rail false
    let d := (d.addSatJ Reg.RST_DIP_CNT.DIPS 0 rail 1).modPower fun p =>
      { p with goodSince := none, vcoreSince := if rail = 0 then none else p.vcoreSince }
    if !d.flag Reg.CHIP_SEAL.SEALED 0 then d
    else
      let d := d.raise Ev.pwrWarn 0 0 (0x8000 + rail)
      if d.frozenSupply then d else (d.rampsHold.setB Reg.RST_FREEZE.ACTIVE 0 true).raise Ev.freeze 0 0 1

/-- A rail is good again; the dip's lowest voltage is recorded. (Log 141: DESIGN CHOICE, 142: DESIGN CHOICE) -/
def Dev.railGood (d : Dev) (rail minMv : Nat) : Dev :=
  if !d.bit Reg.RST_SUPPLY_STAT.WARN 0 rail then d
  else
    let d := (d.putBit Reg.RST_SUPPLY_STAT.WARN 0 rail false).putBit Reg.RST_SUPPLY_STAT.GOOD 0 rail true
    let d := d.setJ Reg.RST_DIP_CNT.MIN_MV 0 rail minMv
    let d := d.modPower fun p =>
      { p with goodSince := if d.get Reg.RST_SUPPLY_STAT.WARN 0 = 0 then some d.now else none
               vcoreSince := if rail = 0 then some d.now else p.vcoreSince }
    if d.flag Reg.CHIP_SEAL.SEALED 0 then d.raise Ev.pwrWarn 0 0 rail else d

/-- Every rail has been good for 1 ms: the freeze ends. -/
def Dev.freezeEnd (d : Dev) : Dev :=
  match d.power.goodSince with
  | some t => if d.frozenSupply then ((d.until (t + ms 1)).setB Reg.RST_FREEZE.ACTIVE 0 false).rampsResume.raise Ev.freeze 0 0 0 else d
  | none => d

/-! ### AVSBus (R494, R496, R497) -/

/-- The first good transaction after a fault clears it and sends the present target. (Log 143: DEDUCED) -/
def Dev.avsGood (d : Dev) : Dev :=
  let d := d.modPower fun p => { p with avsTries := 0 }
  if d.flag Reg.CHIP_AVS_STAT.FAULT 0 then
    ((d.setB Reg.CHIP_AVS_STAT.FAULT 0 false).modPower fun p => { p with avsWrite := true }).raise Ev.avsFault 0 0 0
  else d

/-- A target write is acknowledged: for 200 µs the levels follow the lower and the higher of both targets. (Log 147: DEDUCED) -/
def Dev.avsAck (d : Dev) : Dev :=
  if !d.power.avsWrite then d
  else
    let new := d.get Reg.CHIP_VCORE_NOW.TARGET_MV 0
    let fault := d.flag Reg.CHIP_AVS_STAT.FAULT 0
    let d := d.avsGood.modPower fun p =>
      { p with uvRef := min p.avsSent new, ovRef := max p.avsSent new, avsWindow := some (d.now + us 200), avsSent := new, avsWrite := fault }
    d

/-- The 200 µs end. (Log 147: DEDUCED) -/
def Dev.avsWindowEnd (d : Dev) : Dev :=
  match d.power.avsWindow with
  | some t => (d.until t).modPower fun p => { p with avsWindow := none, uvRef := p.avsSent, ovRef := p.avsSent }
  | none => d

/-- A transaction fails; after the third retry, FAULT. (Log 143: DEDUCED) -/
def Dev.avsFailed (d : Dev) : Dev :=
  let d := (d.bump Reg.CHIP_AVS_ERR.ERRORS 0).modPower fun p => { p with avsTries := p.avsTries + 1 }
  if d.power.avsTries = 4 && !d.flag Reg.CHIP_AVS_STAT.FAULT 0 then (d.setB Reg.CHIP_AVS_STAT.FAULT 0 true).raise Ev.avsFault 0 0 1 else d

/-- The read-back of each millisecond. -/
def Dev.avsReadback (d : Dev) (mv : Nat) : Dev :=
  (d.set Reg.CHIP_AVS_STAT.READ_MV 0 mv).judgeApplied.avsGood

/-! ### Temperature (R500, R507) -/

/-- The hottest die sensor, in 1/64 °C: RST_TEMP, and `RST:HOT` at its threshold and 5 °C below it. (Log 144: DEDUCED) -/
def Dev.dieTemp (d : Dev) (temp : Int) : Dev :=
  let v := unsgn 16 temp
  let top (a : Nat) : Nat := if sgn 16 a < temp then v else a
  let d := (d.set Reg.RST_TEMP.NOW 0 v).set Reg.RST_TEMP.MAX 0 (top (d.get Reg.RST_TEMP.MAX 0))
  let d := d.modPower fun p => { p with hotMax := top p.hotMax }
  let limit : Int := d.get Reg.RST_TEMP_WARN.HOT_C 0
  if !d.power.hot && decide (64 * limit < temp) then (d.modPower fun p => { p with hot := true }).raise Ev.hot 0 0 1
  else if d.power.hot && decide (temp ≤ 64 * (limit - 5)) then (d.modPower fun p => { p with hot := false }).raise Ev.hot 0 0 0
  else d

end Sys2Proof.Machine
end

