-- ==== Sys2Proof/Machine/View.lean ====
section
/-! DEFINITION. What a register reads as: fields that follow from the blocks' state, IDLE and EV_RAW, frozen views and the
groups of RL registers that latch together (R10, R448 to R451, R457). -/

namespace Sys2Proof.Machine

/-! ### Fields that follow from the blocks' state -/

/-- A mask of 32 flows from flow `32 i` on. -/
def flowMask (p : Nat → Bool) (i : Nat) : Nat :=
  (List.range 32).foldl (fun a j => if p (32 * i + j) then a + pow2 j else a) 0

/-- The start queue's entry in place `j` (R93). -/
def Dev.startPlace (d : Dev) (j : Nat) : Option StartEntry := (d.lim.queue.drop j).head?

/-- Pages 0x000 to 0x00F. (Log 15: DESIGN CHOICE) -/
def Dev.viewChip (d : Dev) (k : PageKind) (off lo j : Nat) : Option Nat :=
  match k, off, lo with
  | .chip0, 0x40, 0 => some (if d.flag Reg.CHIP_SEAL.SEALED 0 then d.get Reg.CHIP_PART.PART_NUM 0 else 0)
  | .chip0, 0x44, 4 => some (if d.flag Reg.CHIP_SEAL.SEALED 0 then d.get Reg.CHIP_REV.MAJOR 0 else 0)
  | .chip0, 0x44, 0 => some (if d.flag Reg.CHIP_SEAL.SEALED 0 then d.get Reg.CHIP_REV.MINOR 0 else 0)
  | .chip0, 0x54, 16 => some (capN 0xFFFF d.ret.resets)
  | .chip0, 0x5C, 8 => some ((d.ret.next + 15) % 16)
  | .chip0, 0x5C, 0 => some (b1 d.ret.valid)
  | .rst, 0x44, 0 =>
    some (if !d.frozenSupply then 0 else match d.power.goodSince with | some t => 1000 - (d.now - t) / 1000 | none => 1000)
  | .start, 0x44, 8 => some (b1 d.frozenSupply)
  | .start, 0x44, 4 => some d.lim.queue.length
  | .start, 0x44, 0 => some d.ramping
  | .start, 0x48, 16 => some (match d.startPlace j with | some e => capN 0xFFFF ((d.now - e.since) / ms 1) | none => 0)
  | .start, 0x48, 8 => some (b1 (d.startPlace j).isSome)
  | .start, 0x48, 4 => some (match d.startPlace j with | some e => e.kind | none => 0)
  | .start, 0x48, 0 => some (match d.startPlace j with | some e => e.le | none => 0)
  | _, _, _ => none

/-- The scale that the mask now applied brings with it, in 0.01 dB (R70, R71). -/
def Dev.maskScale (d : Dev) (n : Nat) : Int :=
  let t := (d.le n).tx
  if t.maskFrom.isEmpty && t.maskTo.isEmpty then 0
  else maskNorm (d.get Reg.LE_TX_CFG.SYM_RATE n) (d.get Reg.LE_TX_CFG.ROLLOFF n) (d.txBank n (d.txActive n))
    (t.maskGain (d.get Reg.LE_TX_MASK_CTRL.SLEW_LEFT n))

/-- The line engine pages. -/
def Dev.viewLe (d : Dev) (k : PageKind) (n off lo : Nat) : Option Nat :=
  match k, off, lo with
  | .tx, 0x44, 12 =>
    some (b1 (d.frozenSupply && (d.qpos n != 0 || d.txState n == 3 || d.txState n == 5 || d.get Reg.LE_TX_MASK_CTRL.SLEW_LEFT n != 0)))
  | .tx, 0x44, 4 => some (d.qpos n)
  | .tx, 0x50, 0 => some (d.reqBits n)
  | .tx, 0x54, 0 => some (d.txCap n (d.txActive n))
  | .tx, 0x58, 0 => some (d.txCap n (1 - d.txActive n))
  | .tx, 0x64, 16 => some (unsgn 16 (d.maskScale n))
  | .adc, 0x58, 0 => some (d.sampleIndex n d.now)
  | .adc, 0x5C, 0 => some (d.sampleIndex n d.now / pow2 32)
  | .chime, 0x48, 0 =>
    some (match (d.le n).chm.absFrom with | some t => capN 0xFFFFFFFF ((d.now - t) / ms 1) | none => 0)
  | .frm, 0x68, 12 => some (capN 10 (d.le n).frm.pm.run)
  | .frm, 0x68, 3 => some (b1 (d.le n).frm.pm.unavail)
  | .frm, 0x68, 2 => some (b1 (d.le n).frm.pm.defSec)
  | .frm, 0x68, 1 => some (b1 (d.le n).frm.pm.inh)
  | _, _, _ => none

/-- Has flow `f` a reported per-flow defect (R190)? -/
def Dev.flowReported (d : Dev) (f : Nat) : Bool := (List.range 3).any fun k => (d.fdef f k).rept

/-- Is flow `f` shed in either applied map (R223)? -/
def Dev.flowShed (d : Dev) (f : Nat) : Bool := d.fmx.tx.shed.contains f || d.fmx.rx.shed.contains f

/-- An identity as it stands, shown once the first galley has started (R207). (Log 64: DEDUCED) -/
def Dev.identShown (d : Dev) (ident : Dev → Nat) : Nat := if d.galleys = 0 then 0 else ident d

/-- The bundle, flow and lane group pages. -/
def Dev.viewFlow (d : Dev) (k : PageKind) (i off lo j : Nat) : Option Nat :=
  match k, off, lo with
  | .frmc, 0x48, 0 => some (flowMask d.flowReported j)
  | .fmxB, 0x4C, 0 => some (d.identShown fun d => d.homeId d.homeTx)
  | .fmxB, 0x50, 0 => some (d.identShown fun d => d.homeId d.homeRx)
  | .fmxB, 0x54, 0 => some (d.identShown fun d => d.txIdent)
  | .fmxB, 0x5C, 0 => some (d.identShown fun d => d.shadowIdent)
  | .fmxF, 0x40, 0 => some (flowMask d.flowShed j)
  | .hlnG, 0x44, 16 => some (d.health i)
  | .hlnG, 0x4C, 16 => some (d.grpCapacity i)
  | .hlnG, 0x4C, 8 => some (d.grpUsed i)
  | .hlnG, 0x4C, 0 => some (capN 127 (d.path.shed.filter fun f => d.flowUses f i).length)
  | .hlnG, 0x70, 0 => some (d.txFill i)
  | .hlnL, 0x44, 15 => some (b1 (d.laneHealthy i j))
  | .hlnL, 0x44, 14 =>
    some (b1 (d.getJ Reg.HLN_LANE_STAT.BOUND i j == 1 && bitOf (d.grp i).sig (d.getJ Reg.HLN_LANE_STAT.RX_PHYS i j)))
  | _, _, _ => none

/-- The pages of Tympan, Carillon, the monitor, CAL, the host link and the queues. -/
def Dev.viewUnit (d : Dev) (k : PageKind) (i off lo j : Nat) : Option Nat :=
  match k, off, lo with
  | .tymT, 0x40, 0 => some (stampSec d.time)
  | .tymT, 0x44, 0 => some (stampSec d.time / pow2 32)
  | .tymT, 0x48, 0 => some (stampNs d.time)
  | .tymT, 0x4C, 0 => some (stampFrac d.time)
  | .tymC, 0x64, 0 => some d.holdShown
  | .car, 0x48, 0 => some d.nonce
  | .car, 0x4C, 0 => some (d.nonce / pow2 32)
  | .car, 0x5C, 16 => some (d.countSlots 4)
  | .car, 0x5C, 0 => some (d.countSlots 2)
  | .cyp, 0x48, 0 => some (flowMask (fun f => (d.cyp f).exhausted || (d.cyp f).warn) j)
  | .mon, 0x44, 2 => some (d.get Reg.MON_INJ.PEND 0)
  | .cal, 0x58, 24 => some (maskOf fun n => (d.delayTerm n 1).isSome)
  | .cal, 0x58, 16 => some (maskOf fun n => (d.delayTerm n 3).isSome)
  | .cal, 0x58, 8 => some (maskOf fun n => (d.delayTerm n 0).isSome)
  | .cal, 0x58, 0 => some (maskOf fun n => d.flag Reg.LE_ADC_STAT.CAL_VALID n)
  | .link, 0x40, 15 => some (b1 (d.host.decoder && d.host.active))
  | .evq, 0x48, 0 => some (d.queue i).wp
  | .evq, 0x4C, 0 => some (d.queue i).rp
  | .evq, 0x50, 0 => some (d.queue i).depth
  | .evq, 0x54, 16 => some (d.queue i).epoch
  | .evq, 0x54, 0 => some (d.queue i).seq
  | .evq, 0x60, 0 =>
    let q := (d.queue i).popped
    some ([q.w0, q.w1, q.w2, q.w3].getD j 0)
  | _, _, _ => none

/-! ### The common header (R448, R449, R451, R457) -/

/-- PAGE_ID of a page (R449). (Log 15: DESIGN CHOICE) -/
def pageId (k : PageKind) (i : Nat) : Nat :=
  let id (t s n : Nat) : Nat := t * pow2 24 + s * pow2 16 + n
  match k with
  | .chip0 => id 1 0 0 | .rst => id 1 0 1 | .fuse => id 1 0 2 | .vcore => id 1 0 3 | .start => id 1 0 4
  | .link => id 2 0 0 | .hdm => id 2 1 0 | .dma => id 3 0 0
  | .evq => id 4 0 i | .evqC => id 4 1 0
  | .mon => id 5 0 0 | .det => id 5 1 0 | .cal => id 6 2 0
  | .tymC => id 7 0 0 | .tymT => id 7 1 0 | .tymS => id 7 2 0 | .tymX => id 7 3 0
  | .car => id 8 0 0 | .trust => id 8 1 0 | .cyp => id 9 0 0 | .mcu => id 0xA 0 0
  | .ecc => id 0xB 0 0 | .scb => id 0xC 0 0
  | .hlnG => id 0xD 0 i | .hlnL => id 0xD 1 i | .hlnE => id 0xD 2 i
  | .tx => id 0xE 1 i | .dac => id 0xE 2 i | .rx => id 0xE 3 i | .adc => id 0xE 4 i | .cde => id 0xE 5 i
  | .meq => id 0xE 6 i | .fec => id 0xE 7 i | .chime => id 0xE 8 i | .pace => id 0xE 0x1E i
  | .frm => id 0xF 0 i | .frmc => id 0xF 1 0
  | .fmxB => id 0x10 0 0 | .fmxF => id 0x10 1 0 | .fmxD => id 0x10 2 0

/-- Are both paths of line engine `n` idle? -/
def Dev.leIdle (d : Dev) (n : Nat) : Bool := d.txState n == 0 && d.rxState n == 0

/-- Is a DMA channel working: a descriptor in progress, or one posted to a channel that runs? -/
def Dev.dmaBusy (d : Dev) (c : Nat) : Bool :=
  d.getJ Reg.DMA_STAT.RUN 0 c == 1 ||
    (d.getJ Reg.DMA_CTRL.EN 0 c == 1 && d.getJ Reg.DMA_STAT.HALT 0 c == 0 &&
      d.getJ Reg.DMA_RING.HEAD 0 c != d.getJ Reg.DMA_RING.TAIL 0 c)

/-- IDLE of a page (R451). -/
def Dev.idle (d : Dev) (k : PageKind) (i : Nat) : Bool :=
  match k with
  | .tx | .dac => d.txState i == 0
  | .rx | .adc | .cde | .meq | .chime => d.rxState i == 0
  | .fec | .pace | .frm => d.leIdle i
  | .frmc => allLe.all d.leIdle
  | .fmxB | .fmxF | .fmxD => !d.anyMember
  | .hlnG | .hlnL | .hlnE => !d.grpEn i
  | .tymC | .tymT | .tymS | .tymX => d.src == 0 && d.tym.step.isNone
  | .cyp => allFlows.all fun f => !d.policyTx f && !d.policyRx f
  | .mon | .det => !d.flag Reg.MON_STAT.RUN 0 && d.mon.busy == 0
  | .cal => !d.calBusy
  | .dma => (List.range 16).all fun c => !d.dmaBusy c
  | .link | .hdm =>
    d.host.snapBusy.isNone && !d.host.snapNow && !d.cap.armed && !d.flag Reg.CXL_CAP_CTRL.RUN 0
  | .evq => !d.flag Reg.EVQ_CTRL.EN i && (d.queue i).depth == 0
  | _ => true

/-- EV_RAW of a page: the conditions now present (R457). -/
def Dev.evRaw (d : Dev) (k : PageKind) (i : Nat) : Nat :=
  match k with
  | .rst => b1 (d.get Reg.RST_SUPPLY_STAT.WARN 0 != 0) + 2 * b1 d.frozenSupply + 4 * b1 d.power.hot
  | .vcore => b1 (d.flag Reg.CHIP_AVS_STAT.FAULT 0)
  | .link => b1 (d.flag Reg.CXL_LINK_STAT.UP 0)
  | .evq => b1 (decide (d.get Reg.EVQ_WM.LEVEL i ≤ (d.queue i).depth))
  | .cal => 2 * b1 (d.get Reg.CAL_DRIFT.LE 0 != 0)
  | .tymC =>
    16 * b1 (d.flag Reg.TYM_EXT_CTRL.F10_EN 0 && !d.flag Reg.TYM_PPS_IN_STAT.F10_OK 0) + 64 * b1 (d.flag Reg.TYM_STAT.ROLE_CONFLICT 0)
  | .tymS => 2 * b1 (d.flag Reg.TYM_SPAN_STAT.ASYM_STALE 0)
  | .hlnG => 4 * b1 (d.grpRun i) + 16 * b1 (d.path.shed.any fun f => d.flowUses f i)
  | .fec => 2 * b1 (d.flag Reg.LE_FEC_STAT.DEG i)
  | .chime => b1 (d.flag Reg.LE_RX_STAT.CHIME i)
  | .frm => d.get Reg.FRM_DEF_STAT.REPT i + 128 * b1 (d.le i).frm.pm.committed
  | .frmc => b1 (allFlows.any d.flowReported)
  | .fmxB =>
    b1 (d.get Reg.FMX_BND_STAT.FOREIGN 0 != 0) + 2 * b1 d.anyMember +
      8 * b1 (!d.fmx.tx.shed.isEmpty || !d.fmx.rx.shed.isEmpty) + 256 * b1 d.fmx.down
  | _ => 0

/-- The header fields that are not held. -/
def Dev.viewHeader (d : Dev) (k : PageKind) (i off lo : Nat) : Option Nat :=
  let p := pageOf k i
  match off, lo with
  | 0x00, _ => some (pageId k i / pow2 lo)
  | 0x0C, 2 => some (d.get Hdr.CTRL.FREEZE p)
  | 0x0C, 1 => some (b1 (d.get Hdr.ERR_COUNT.COUNT p != 0))
  | 0x0C, 0 => some (b1 (d.idle k i))
  | 0x1C, _ => some (d.get Hdr.ERR_COUNT.COUNT p)
  | 0x20, _ => some (d.evRaw k i)
  | 0x30, _ => some (match k with | .evq => (d.queue i).peak | _ => 0)
  | _, _ => none

/-! ### Live and frozen views -/

/-- The key of a field by its row, page instance and array index. -/
def FieldRow.key (r : FieldRow) (k : PageKind) (i j : Nat) : Nat := (pageOf k i * 0x1000 + (r.off + r.step * j)) * 8 + r.lo

/-- The index in its array of the register at offset `off`. -/
def FieldRow.index (r : FieldRow) (off : Nat) : Nat := if r.step = 0 then 0 else (off - r.off) / r.step

/-- Does the block itself change the field: RO, RL, or a count (R450)? -/
def FieldRow.own (r : FieldRow) : Bool := r.acc == .RO || r.acc == .RL || r.count

/-- The live value of a field. A WO field reads 0 (R10). (Log 15: DESIGN CHOICE) -/
def Dev.live (d : Dev) (k : PageKind) (i : Nat) (r : FieldRow) (j : Nat) : Nat :=
  if r.acc = .WO then 0
  else
    let v : Option Nat :=
      if r.off < 0x40 then d.viewHeader k i r.off r.lo
      else
        match d.viewChip k r.off r.lo j, d.viewLe k i r.off r.lo, d.viewFlow k i r.off r.lo j, d.viewUnit k i r.off r.lo j with
        | some v, _, _, _ => some v
        | none, some v, _, _ => some v
        | none, none, some v, _ => some v
        | none, none, none, some v => some v
        | none, none, none, none => none
    trunc r.width (v.getD (Store.get regReset d.regs (r.key k i j)))

/-- Is the page's frozen view in force, and does it hold a field? -/
def Dev.frozenPage (d : Dev) (k : PageKind) (i : Nat) : Bool := d.flag Hdr.CTRL.FREEZE (pageOf k i)
def FieldRow.freezes (r : FieldRow) : Bool := r.own && decide (0x40 ≤ r.off) && decide (r.off < 0x800)

/-- What a read of a field gives: its frozen value or its live one (R450). -/
def Dev.shown (d : Dev) (k : PageKind) (i : Nat) (r : FieldRow) (j : Nat) : Nat :=
  if d.frozenPage k i && r.freezes then Store.get (fun _ => 0) d.frozen (r.key k i j) else d.live k i r j

/-- A register word put together from its fields. -/
def wordOf (rows : List FieldRow) (off : Nat) (v : FieldRow → Nat → Nat) : Nat :=
  rows.foldl (fun a r => a + v r (r.index off) * pow2 r.lo) 0

/-- The register at offset `off` of a page: live, and as a read gives it. -/
def Dev.liveWord (d : Dev) (k : PageKind) (i off : Nat) : Nat := wordOf (fieldsAt k off) off (d.live k i)
def Dev.shownWord (d : Dev) (k : PageKind) (i off : Nat) : Nat := wordOf (fieldsAt k off) off (d.shown k i)

/-- Every field of a page that is frozen, with its array index. -/
def freezeFields (k : PageKind) : List (FieldRow × Nat) :=
  ((rowsOf k).filter fun r => r.freezes).flatMap fun r => (List.range r.num).map fun j => (r, j)

/-- A write of CTRL.FREEZE: 1 latches the view at one instant, 0 returns the live view (R450). (Log 24: DEDUCED) -/
def Dev.freezePage (d : Dev) (k : PageKind) (i : Nat) (on : Bool) : Dev :=
  let p := pageOf k i
  let held := d.frozen.clear fun key => key / 0x8000 == p
  let view := if on then
      (freezeFields k).foldl (fun st e => Store.set (fun _ => 0) st (e.1.key k i e.2) (d.live k i e.1 e.2)) held
    else held
  { d.setB Hdr.CTRL.FREEZE p on with frozen := view }

/-! ### RL registers (R10) -/

/-- The first and the last offset of the group to which an RL register belongs, 4-byte steps apart, beside EVQ_POP. -/
def groupOf (k : PageKind) (off : Nat) : Nat × Nat :=
  let within (a b : Nat) : Bool := decide (a ≤ off ∧ off ≤ b)
  match k with
  | .dac => if within 0x48 0x50 then (0x48, 0x50) else (off, off)
  | .rx => if within 0x64 0x68 then (0x64, 0x68) else if within 0x70 0x7C then (0x70, 0x7C) else (off, off)
  | .adc => if within 0x48 0x50 then (0x48, 0x50) else if within 0x58 0x5C then (0x58, 0x5C) else (off, off)
  | .meq => if within 0x44 0x48 then (0x44, 0x48) else (off, off)
  | .fec => if within 0x60 0x88 then (0x60, 0x88) else (off, off)
  | .fmxD => if within 0x44 0x60 then (0x44, 0x60) else (off, off)
  | .hlnG => if within 0x58 0x68 then (0x58, 0x68) else (off, off)
  | .hlnL => if off % 0x20 = 0x14 then (off, off + 4) else if off % 0x20 = 0x18 then (off - 4, off) else (off, off)
  | .tymT =>
    if within 0x40 0x4C then (0x40, 0x4C) else if within 0x6C 0x78 then (0x6C, 0x78)
    else if within 0x80 0x8C then (0x80, 0x8C) else (off, off)
  | .tymS => if within 0x48 0x4C then (0x48, 0x4C) else if within 0x54 0x58 then (0x54, 0x58) else (off, off)
  | .tymX => if within 0x44 0x48 then (0x44, 0x48) else (off, off)
  | .car => if within 0x48 0x4C then (0x48, 0x4C) else (off, off)
  | .ecc => if within 0x48 0x4C then (0x48, 0x4C) else (off, off)
  | _ => (off, off)

/-- Does the register have an RL field that a read latches? The words of EVQ_POP are latched by the pop itself (R461). -/
def latches (k : PageKind) (off : Nat) : Bool :=
  ((fieldsAt k off).any fun r => r.acc == .RL) && !(k == .evq && decide (0x60 ≤ off))

/-- The key of a latched word. -/
def latchKey (k : PageKind) (i off : Nat) : Nat := (pageOf k i * 0x1000 + off) * 8

/-- What a member of a group reads as before its group was first latched: the register's reset word (R11). -/
def latchReset (key : Nat) : Nat := (List.range 32).foldl (fun a lo => a + regReset (key + lo) * pow2 lo) 0

/-- The group led by register `off` latched: every member's live word is kept. (Log 33: DEDUCED) -/
def Dev.latchGroup (d : Dev) (k : PageKind) (i off : Nat) : Dev :=
  let last := (groupOf k off).2
  { d with latch :=
      (List.range ((last - off) / 4 + 1)).foldl (fun st w =>
        Store.set latchReset st (latchKey k i (off + 4 * w)) (d.liveWord k i (off + 4 * w))) d.latch }

/-- What a read does to the values that hold since the last read: the margin has seen no galley, the longest hold is 0, the
hottest sensor is the present one, the peak is the present depth (R34, R225, R448, R507). (Log 33: DEDUCED) -/
def Dev.readReset (d : Dev) (k : PageKind) (i off : Nat) : Dev :=
  match k, off with
  | .pace, 0x4C => d.set Reg.LE_PG_MARGIN.MIN i 0x7FFF
  | .fmxD, 0x64 => d.set Reg.FMX_DSK_HOLD.PEAK_NS 0 0
  | .rst, 0x64 => d.set Reg.RST_TEMP.MAX 0 (d.get Reg.RST_TEMP.NOW 0)
  | .evq, 0x30 => d.setQueue i { d.queue i with peak := (d.queue i).depth }
  | _, _ => d

/-- A read of an RL register: the word read, and the device after it. While the page is frozen the read has no effect; the
lowest register of a group latches the group, and the others return what was latched. (Log 33: DEDUCED) -/
def Dev.rlRead (d : Dev) (k : PageKind) (i off : Nat) : Nat × Dev :=
  if d.frozenPage k i then (d.shownWord k i off, d)
  else if (groupOf k off).1 = off then
    let e := d.latchGroup k i off
    (d.liveWord k i off, e.readReset k i off)
  else (Store.get latchReset d.latch (latchKey k i off), d)

end Sys2Proof.Machine
end

