-- ==== Sys2Proof/Machine/Tables.lean ====
section
/-! DEFINITION. The tables behind the indirect windows (R455): their sizes, what an entry reads as, and the checks and
effects of a write. -/

namespace Sys2Proof.Machine

/-! ### The tables of each page -/

/-- The number of entries of table `sel` of a page; none where the page has no such table. -/
def tableSize (k : PageKind) (sel : Nat) : Option Nat :=
  match k, sel with
  | .fuse, 1 => some 1024 | .fuse, 2 => some 69
  | .dma, 1 => some 1024
  | .evqC, 1 => some 256
  | .mon, 1 => some 32 | .mon, 2 => some 32
  | .det, 1 => some 16 | .det, 2 => some 16
  | .cal, 1 => some 256 | .cal, 2 => some 512 | .cal, 3 => some 8 | .cal, 4 => some 64
  | .tymS, 1 => some 8 | .tymS, 2 => some 8
  | .car, 1 => some 64 | .car, 2 => some 4096
  | .cyp, 1 => some 1024
  | .trust, 1 => some 16 | .trust, 2 => some 3 | .trust, 3 => some 12
  | .ecc, 1 => some 16 | .ecc, 2 => some 256 | .ecc, 3 => some 128
  | .tx, 1 => some 16 | .tx, 2 => some 16 | .tx, 3 => some 128 | .tx, 4 => some 128 | .tx, 5 => some 512
  | .tx, 6 => some 64 | .tx, 7 => some 64 | .tx, 8 => some 512
  | .rx, 1 => some 16 | .rx, 2 => some 16 | .rx, 0x10 => some 32
  | .fec, 1 => some 384 | .fec, 2 => some 480 | .fec, 0x10 => some 17
  | .chime, 1 => some 32
  | .frm, 1 => some 35
  | .frmc, 1 => some 9 | .frmc, 2 => some 1024 | .frmc, 3 => some 65536
  | .fmxF, sel => if 1 ≤ sel ∧ sel ≤ 8 then some 1024 else none
  | _, _ => none

/-- Does the entry exist? Of the flow PM bins only indices 0 to 34 of each 64 do (R191). -/
def tableIndexOk (k : PageKind) (sel idx : Nat) : Bool :=
  match tableSize k sel with
  | some n => decide (idx < n) && !(k == .frmc && sel == 3 && decide (35 ≤ idx % 64))
  | none => false

/-- The words of an entry that a write takes, each by the mask of its defined bits; none for a read-only table. (Log 32: DEDUCED) -/
def tableMasks (k : PageKind) (sel : Nat) : List Nat :=
  let all (n : Nat) : List Nat := List.replicate n 0xFFFFFFFF
  match k, sel with
  | .dma, 1 => 0x3FF :: all 5 ++ [0xC000FFFF, 0xFFFFFFFF]
  | .evqC, 1 => [3]
  | .mon, 1 => [0x7F17F33F, 0xFFFFFFFF]
  | .det, 1 => [0xFFFF8FFF]
  | .cal, 4 => all 1
  | .tymS, 1 => all 4
  | .car, 1 => all 8
  | .cyp, 1 => [0xE000F303]
  | .trust, 1 => all 8
  | .ecc, 3 => [0xE000FFFF]
  | .tx, 1 => [0x00FF7F0F] | .tx, 2 => [0x00FF7F0F]
  | .tx, 3 => [0xFFFF] | .tx, 4 => [0xFFFF] | .tx, 6 => [0xFFFF] | .tx, 7 => [0xFFFF]
  | .rx, 1 => [0x00FF7F0F] | .rx, 2 => [0x00FF7F0F]
  | .frmc, 1 => [0xFFFFFFCF]
  | .fmxF, 1 => [0x800F0000, 0xFFFFFFFF]
  | .fmxF, 2 => [0xB30000FF] | .fmxF, 3 => [0xB30000FF]
  | .fmxF, 4 => [0x800003FF] | .fmxF, 5 => [0x800003FF]
  | _, _ => []

/-- The words of an entry of a read-only table, each by the mask of the bits that its format lists. -/
def formatMasks (k : PageKind) (sel : Nat) : List Nat :=
  let all (n : Nat) : List Nat := List.replicate n 0xFFFFFFFF
  match k, sel with
  | .fuse, 1 => all 1 | .fuse, 2 => [0x00170707]
  | .mon, 2 => [0xFFFFFFFF, 0xE000FFFF]
  | .det, 2 => [0xFFFFFFFF, 0xF000FFFF, 0xFFFFFFFF, 0xFFFFFFFF]
  | .cal, _ => all 1
  | .tymS, 2 => all 4 ++ [0xFFFF0003]
  | .car, 2 => [0xF0000000, 0xFFFFFFFF, 0xFFFFFFFF]
  | .trust, _ => all 8
  | .ecc, 1 => all 3 ++ [0xFFFF000F]
  | .ecc, 2 => [0xEC3FFFFF, 0xFFFFFFFF]
  | .tx, 5 => all 1 | .tx, 8 => [0xFFFF]
  | .rx, 0x10 => [0xFFFF] | .chime, 1 => [0xFFFF]
  | .fec, 0x10 => all 1 | .fec, _ => [0xFFFF]
  | .frm, 1 => all 6 ++ [0x3FFFF, 0] | .frmc, 3 => all 6 ++ [0x3FFFF, 0]
  | .frmc, 2 => [0x07070701]
  | .fmxF, 6 => [0x807F03FF] | .fmxF, 7 => [0x807F03FF] | .fmxF, 8 => all 8
  | _, _ => []

/-- Does a word of an entry set a bit that the masks leave out? -/
def beyondMasks (masks ws : List Nat) : Bool :=
  (List.range masks.length).any fun j => (ws.getD j 0 ||| masks.getD j 0) != masks.getD j 0

/-! ### Pins (R486, R487, R509) -/

/-- A pin's state before the seal: 0 none, 1 pull-up, 2 pull-down (R485, R504). -/
def pinPre (i : Nat) : Nat :=
  if i < 8 then 2
  else if i < 24 then 0
  else if i < 56 then (if i % 4 = 1 then 1 else 2)
  else if i = 58 ∨ i = 60 ∨ i = 66 then 2
  else if i = 67 ∨ (61 ≤ i ∧ i ≤ 65) then 1
  else 0

/-- The key under which the first write to `TYM_OUT_CTRL` since reset exit is kept among the pins. -/
def outCtrlKey : Nat := 100

/-- Has the pin been released to its owner (R487)? The I²C and SPI masters are enabled by firmware, of which the spec gives
no act. (Log 145: DESIGN CHOICE) -/
def Dev.pinReleased (d : Dev) (i : Nat) : Bool :=
  d.flag Reg.CHIP_SEAL.SEALED 0 &&
    (decide (i < 8) || (decide (56 ≤ i ∧ i ≤ 59) && Store.get (fun _ => 3) d.pins outCtrlKey == 1) ||
      decide (60 ≤ i ∧ i ≤ 67) || (i == 68 && d.get Reg.MCU_LIFECYCLE.STATE 0 != 2))

/-- Is a pulse output high: within WIDTH_US of its last edge (R274)? -/
def Dev.pulseHigh (d : Dev) (edge : Option Int) (width : Nat) : Bool :=
  match edge with
  | some e => decide (e ≤ d.stampNow) && decide (d.stampNow < e + (width * 1000 * 65536 : Nat))
  | none => false

/-- The level of a released pin as a code of R486. (Log 145: DESIGN CHOICE) -/
def Dev.pinLevel (d : Dev) (i : Nat) : Nat :=
  let high : Bool :=
    match i with
    | 56 => d.outOn Reg.TYM_OUT_CTRL.PPS0 && d.pulseHigh d.tym.pps0 (d.get Reg.TYM_PPS_OUT0_W.WIDTH_US 0)
    | 57 => d.outOn Reg.TYM_OUT_CTRL.PPS1 && d.pulseHigh d.tym.pps1 (d.get Reg.TYM_PPS_OUT1_W.WIDTH_US 0)
    | 58 => d.outOn Reg.TYM_OUT_CTRL.F10 && decide (nsOf d.time % 100 < 50)
    | _ => Config.pinHigh i d.now
  if i < 8 then Store.get (fun _ => 3) d.pins i else 3 + b1 high

/-- The present state of pin `i` as a code of R486. (Log 145: DESIGN CHOICE) -/
def Dev.pinNow (d : Dev) (i : Nat) : Nat :=
  if !d.flag Reg.CHIP_SEAL.SEALED 0 then pinPre i
  else if d.pinReleased i then d.pinLevel i
  else fusePin d.fuse i

/-! ### What an entry reads as -/

/-- Is the constellation's composition defined for this NBITS16: index 256 c + 128 h + NBITS16 (R94)? -/
def compositionDefined (idx : Nat) : Bool := nbitsOk (6 + idx / 256) (idx % 128) && !(decide (idx / 128 % 2 = 1) && decide (idx < 256))

/-- The words of the local flow table (R224). -/
def Dev.localRead (d : Dev) (f : Nat) : List Nat :=
  [d.localWord f 0, d.localWord f 1, capN 0xFFFF (d.txReq f) + capN 0xFFFF (d.rxReq f) * pow2 16,
   b1 (d.flowShed f || d.path.shed.contains f) * 32 + b1 (d.fmx.breach.contains f) * 16 + b1 (d.rxInService f) * 8 +
     b1 (d.txInService f) * 4 + b1 (d.fdef f 0).decl * 2 + b1 (d.faisTx f)]

/-- The words of `CYP_FLOW` (R364). -/
def Dev.cypRead (d : Dev) (f : Nat) : List Nat :=
  let x := d.cyp f
  let txBank : Nat := match d.activeTx f with | some s => s % 2 | none => 0
  let lo (v : Nat) : List Nat := [trunc 32 v, trunc 32 (v / pow2 32)]
  [d.tab 0x51 0x01 f 0 + b1 x.warn * pow2 15 + d.txCipher f * pow2 12 + x.rxBank * pow2 9 + txBank * pow2 8 +
     b1 (d.activeRx f).isSome * 2 + b1 x.keyRaw] ++ lo x.txCtr ++ lo x.rxCtr ++ [x.tagFail, x.discard, x.tagOk]

/-- A slot's status words (R362). -/
def Dev.slotRead (d : Dev) (s : Nat) : List Nat :=
  let x := d.slot s
  [x.state * pow2 29 + b1 x.generated * pow2 28, if x.state = 0 then 0 else x.kcv, if x.state = 3 then x.switchAt else 0]

/-- 32 bytes as eight little-endian words. -/
def wordsOf (l : List Nat) (i : Nat) : List Nat := (List.range 8).map fun w => ofBytesLE (slice l (i + 4 * w) 4)

/-- A flow's defect status (R191). -/
def Dev.flowDefectWord (d : Dev) (f : Nat) : Nat :=
  ((List.range 3).foldl (fun a k =>
    let x := d.fdef f k
    a + pow2 k * (b1 x.raw * pow2 24 + b1 x.decl * pow2 16 + b1 x.rept * pow2 8)) 0) + b1 (d.flowSupp f)

/-- A line of the monitor's results, and a detector's outputs (R411, R412). -/
def Dev.resultRead (d : Dev) (e : Nat) : List Nat :=
  let x := d.monLine e
  [x.scaled * pow2 16 + x.code, b1 x.stale * pow2 31 + b1 x.test * pow2 30 + b1 x.out * pow2 29 + d.mon.runs % 65536]
def Dev.slotOutRead (d : Dev) (k : Nat) : List Nat :=
  let s := d.monSlot k
  [s.rms * pow2 16 + s.peak,
   b1 (d.unsettled k) * pow2 31 + b1 s.stale * pow2 30 + b1 s.gap * pow2 29 + b1 s.test * pow2 28 + s.env, s.windows, d.detDelay k]

/-- Word `w` of a set before any set has been applied: the header of this device, the delay term unset, the contents of R398,
and the CRC over them. -/
def Dev.bareWord (d : Dev) (kind n w : Nat) : Nat :=
  if w < 2 then (d.setHead (if kind = 3 then 5 else kind) n).getD w 0
  else if w = 3 ∧ kind ≤ 2 then 0xFFFFFFFF
  else d.setWord kind n w

/-- Word `w` of a coefficient set (R397, R398, R414): once a set is applied its header is not 0. (Log 17: DESIGN CHOICE) -/
def Dev.setRead (d : Dev) (kind n w : Nat) : Nat :=
  if setLen kind ≤ w then 0
  else if d.setWord kind n 0 != 0 then d.setWord kind n w
  else if w + 1 = setLen kind then setCrc ((List.range (setLen kind - 1)).map (d.bareWord kind n))
  else d.bareWord kind n w

/-- The ECC tables (R430). -/
def Dev.eccRead (d : Dev) (sel idx : Nat) : List Nat :=
  match sel with
  | 1 =>
    let c (k : Nat) : Nat := Store.get (fun _ => 0) d.ecc.counts (idx * 4 + k)
    [c 0, c 1, c 2, c 3 * pow2 16 + ((List.range 8).filter fun s => (d.spare idx s).isSome).length]
  | 2 =>
    match d.tracked (idx / 16) (idx % 16) with
    | some t =>
      [pow2 31 + b1 t.lasting * pow2 30 + b1 t.priority * pow2 29 + t.count * pow2 26 + trunc 22 t.word,
       capN 0xFFFFFFFF ((d.now - t.openAt) / ms 1)]
    | none => []
  | _ =>
    match d.spare (idx / 8) (idx % 8) with
    | some s => [pow2 31 + b1 s.failed * pow2 30 + b1 s.copying * pow2 29 + s.row]
    | none => []

/-- The words of an entry, without those that the table does not use. (Log 171: DEDUCED) -/
def Dev.entryWords (d : Dev) (k : PageKind) (i sel idx : Nat) : List Nat :=
  let p := pageOf k i
  let stored (n : Nat) : List Nat := (List.range n).map fun w => d.tab p sel idx w
  match k, sel with
  | .fuse, 1 => [if 48 ≤ idx ∧ idx ≤ 55 then 0 else d.fuseWord idx]
  | .fuse, 2 =>
    [b1 (d.pinReleased idx) * pow2 20 + (if d.flag Reg.CHIP_SEAL.SEALED 0 then fusePin d.fuse idx else 0) * pow2 16 +
      pinPre idx * pow2 8 + d.pinNow idx]
  | .mon, 2 => d.resultRead idx
  | .det, 2 => d.slotOutRead idx
  | .cal, 1 => [d.setRead 1 (idx / 32) (idx % 32)]
  | .cal, 2 => [d.setRead 2 (idx / 64) (idx % 64)]
  | .cal, 3 => [d.setRead 3 0 idx]
  | .tymS, 2 => stored 5
  | .car, 2 => d.slotRead idx
  | .cyp, 1 => d.cypRead idx
  | .trust, 2 =>
    wordsOf (if idx = 0 then d.ownIdent else if idx = 1 then d.trust.anchorDigest
      else if d.trust.pairing.isEmpty then [] else d.pairingDigest) 0
  | .trust, 3 => if d.idReady then wordsOf d.modulus (32 * idx) else []
  | .ecc, s => d.eccRead s idx
  | .tx, 5 => [if compositionDefined idx then trunc 32 (Config.composition idx) else 0]
  | .tx, 8 => [trunc 16 (Config.constLabel idx)]
  | .rx, 0x10 => [d.snrEntry i idx]
  | .fec, 1 => [ldpcEntry 0 idx]
  | .fec, 2 => [ldpcEntry 1 idx]
  | .fec, 0x10 => stored 1
  | .chime, 1 => stored 1
  | .frm, 1 => (List.range 7).map fun w => d.pmWord (d.le i).frm.pm idx w
  | .frmc, 2 => [d.flowDefectWord idx]
  | .frmc, 3 => (List.range 7).map fun w => d.pmWord (d.fpm (idx / 64)) (idx % 64) w
  | .fmxF, 1 => d.localRead idx
  | .fmxF, 6 => [d.fmx.tx.word idx]
  | .fmxF, 7 => [d.fmx.rx.word idx]
  | .fmxF, 8 => stored 8
  | _, _ => stored (tableMasks k sel).length

/-- The eight TBL_DATA words of an entry: words that the table does not use read 0. (Log 9: DESIGN CHOICE) -/
def Dev.readEntry (d : Dev) (k : PageKind) (i sel idx : Nat) : List Nat :=
  let l := d.entryWords k i sel idx
  (List.range 8).map fun w => trunc 32 (l.getD w 0)

/-- What a READ does beside loading the words: a detector's GAP is cleared (R412). -/
def Dev.entryRead (d : Dev) (k : PageKind) (sel idx : Nat) : Dev :=
  if k = .det ∧ sel = 2 then d.modSlot idx fun s => { s with gap := false } else d

/-! ### The checks of a write -/

/-- The transmit bank, mask and ramp tables (R63, R71, R81, R456). -/
def Dev.rampTable (d : Dev) (n sel : Nat) : List Nat :=
  (List.range 64).map fun k =>
    let h := Store.get (fun _ => 0) (d.le n).tx.rampHeld (sel * 64 + k)
    if h = 0 then d.tab (pageOf .tx n) sel k 0 else h - 1
def rampPairs (l : List Nat) : List (Nat × Nat) := l.zip (l.drop 1)
def rampErrs (l : List Nat) : List Err :=
  failIf (l.getD 0 0 != 0 || l.getD 63 0 != 65535 || (rampPairs l).any fun e => decide (e.2 < e.1)) .inconsistent ++
  failIf ((rampPairs l).any fun e => decide (16384 < (max e.1 e.2 - min e.1 e.2))) .range

def Dev.txTableErrs (d : Dev) (n sel idx w : Nat) : List Err :=
  if sel ≤ 2 then
    loadingErrs w ++
      (if sel - 1 = d.txActive n then failIf (d.txState n != 0) .busy else failIf (d.flag Reg.LE_TX_BL_CTRL.SWITCH n) .busy)
  else if sel ≤ 4 then
    failIf (decide (sgn 16 w < -4000) || decide (1200 < sgn 16 w)) .range ++
      failIf (sel - 3 == d.get Reg.LE_TX_MASK_CTRL.ACTIVE n || d.flag Reg.LE_TX_MASK_CTRL.COMMIT n) .busy
  else
    failIf (d.txState n == 3 || d.txState n == 5) .busy ++
      (if idx = 63 then rampErrs ((d.rampTable n sel).set 63 w) else [])

/-- The receive banks (R122). -/
def Dev.rxTableErrs (d : Dev) (n sel w : Nat) : List Err :=
  loadingErrs w ++
    (if sel - 1 = d.get Reg.LE_RX_BL_CTRL.ACTIVE n then failIf (d.rxState n != 0) .busy
     else failIf (d.flag Reg.LE_RX_BL_CTRL.SWITCH n) .busy)

/-- The local flow table (R195). -/
def Dev.localErrs (d : Dev) (f w0 w1 : Nat) : List Err :=
  let en := bitOf w0 31
  let lg := bitsOf w0 16 4
  let outside (b : Nat) : Bool := decide (b < 1000) || decide (65535 < b)
  failIf (en && !usedBit (d.flowWord d.homeTx f)) .state ++
  failIf (d.flowEn f && lg != d.flowGroup f) .state ++
  failIf (lg % 2 == 1 && decide (64 < d.flowNsort f)) .inconsistent ++
  failIf (en && (outside (lo16 w1) || outside (hi16 w1))) .range ++
  failIf (en && (decide (lo16 w1 < d.txReq f) || decide (hi16 w1 < d.rxReq f))) .capacity ++
  failIf (en && d.groupsOverfull d.homeTx f lg true) .capacity

/-- The bank tables (R204, R208, R224). -/
def Dev.bankErrs (d : Dev) (sel w : Nat) : List Err :=
  let bank := sel % 2
  failIf (bank == d.homeTx || bank == d.homeRx || (d.plannedPending && bank == d.plannedBank)) .busy ++
  (if sel ≤ 3 then
    failIf (typeOf w == 3) .reserved ++ failIf (usedBit w && (nsortOf w == 0 || decide (128 < nsortOf w))) .range
   else [])

/-- A carrier's delay terms (R299). -/
def delayErrs (ws : List Nat) : List Err := failIf (ws.any fun v => v != 0xFFFFFFFF && decide (1000000 < v)) .range

/-- An entry of the monitor's sequence, and of a detector slot (R403, R411, R412). -/
def Dev.seqErrs (d : Dev) (w : Nat) : List Err :=
  failIf (decide (47 < bitsOf w 0 6) || bitsOf w 8 2 == 3 || decide (4 < bitsOf w 16 3)) .range ++
  failIf (d.flag Reg.MON_STAT.RUN 0) .busy
def detErrs (w : Nat) : List Err := failIf (bitsOf w 16 16 == 0 || bitsOf w 8 4 == 0) .range

/-- Does the device own a descriptor: from HEAD to TAIL - 1 (R468)? -/
def Dev.descOwned (d : Dev) (idx : Nat) : Bool :=
  let c := idx / 64
  let h := d.getJ Reg.DMA_RING.HEAD 0 c
  decide ((idx % 64 + 64 - h) % 64 < (d.getJ Reg.DMA_RING.TAIL 0 c + 64 - h) % 64)

/-- Every check of a WRITE of entry `idx`, after the check of the index: reserved bits, read-only tables, and what the owning
chapter states. (Log 32: DEDUCED) -/
def Dev.entryErrs (d : Dev) (k : PageKind) (i sel idx : Nat) (ws : List Nat) : List Err :=
  let masks := tableMasks k sel
  let w := ws.getD 0 0
  if masks.isEmpty then failIf (beyondMasks (formatMasks k sel) ws) .reserved ++ [.state]
  else
    failIf (beyondMasks masks ws) .reserved ++
    match k, sel with
    | .dma, _ => failIf (d.descOwned idx) .busy
    | .mon, _ => d.seqErrs w
    | .det, _ => detErrs w
    | .cal, _ => failIf d.calBusy .busy
    | .tymS, _ => delayErrs (ws.take 4)
    | .car, _ => failIf (d.flag Reg.CAR_CMD_STAT.BUSY 0) .busy
    | .cyp, _ => d.cypErrs idx w
    | .trust, _ => failIf (d.flag Reg.CAR_TRUST_STAT.BUSY 0) .busy
    | .ecc, _ => d.spareErrs idx w
    | .tx, s => d.txTableErrs i s idx w
    | .rx, s => d.rxTableErrs i s w
    | .frmc, _ => integrationErrs idx w
    | .fmxF, 1 => d.localErrs idx w (ws.getD 1 0)
    | .fmxF, s => d.bankErrs s w
    | _, _ => []

/-! ### The effect of a write -/

/-- The words that a table uses, stored. -/
def Dev.storeEntry (d : Dev) (k : PageKind) (i sel idx : Nat) (ws : List Nat) : Dev :=
  d.over (List.range (tableMasks k sel).length) fun w d => d.setTab (pageOf k i) sel idx w (ws.getD w 0)

/-- A ramp point: held apart until point 63 completes the table (R81). -/
def Dev.rampWritten (d : Dev) (n sel idx w : Nat) : Dev :=
  let held (st : Store Nat) : Store Nat := Store.set (fun _ => 0) st (sel * 64 + idx) (w + 1)
  if idx < 63 then d.modTx n fun t => { t with rampHeld := held t.rampHeld }
  else
    let l := (d.rampTable n sel).set 63 w
    let d := d.over (List.range 64) fun k d => d.setTab (pageOf .tx n) sel k 0 (l.getD k 0)
    d.modTx n fun t => { t with rampHeld := t.rampHeld.clear fun key => key / 64 == sel }

/-- A write of the local flow table: the flow's service, its bound and the lane groups' loads follow (R184, R195, R253). -/
def Dev.localWritten (d : Dev) (f : Nat) (ws : List Nat) : Dev :=
  (d.watchRx [f] fun d => d.storeEntry .fmxF 0 1 f ws).recheckBounds.shedEval

/-- The detectors that an entry of the sequence feeds, before and after it is written, restart (R408). -/
def Dev.seqWritten (d : Dev) (e : Nat) (ws : List Nat) : Dev :=
  let before := allSlots.filter fun k => d.feeds e k
  let d := d.storeEntry .mon 0 1 e ws
  d.over allSlots fun k d => if before.contains k || d.feeds e k then d.restartSlot k else d

/-- An accepted WRITE of an entry. (Log 32: DEDUCED) -/
def Dev.writeEntry (d : Dev) (k : PageKind) (i sel idx : Nat) (ws : List Nat) : Dev :=
  match k, sel with
  | .mon, _ => d.seqWritten idx ws
  | .det, _ => (d.storeEntry k i sel idx ws).restartSlot idx
  | .cyp, _ => (d.setTab 0x51 0x01 idx 0 (bitsOf (ws.getD 0 0) 29 3 * pow2 29)).recheckBounds
  | .ecc, _ => d.spareWritten idx (ws.getD 0 0)
  | .tx, 6 => d.rampWritten i 6 idx (ws.getD 0 0)
  | .tx, 7 => d.rampWritten i 7 idx (ws.getD 0 0)
  | .fmxF, 1 => d.localWritten idx ws
  | _, _ => d.storeEntry k i sel idx ws

end Sys2Proof.Machine
end

