-- ==== Sys2Proof/Machine/Hdm.lean ====
section
/-! DEFINITION. HDM as the host sees it: its layout, reads and writes of lines, snapshots and captures (R294, R416 to R420, R433,
R439, R442 to R446, R465). -/

namespace Sys2Proof.Machine

/-! ### What HDM holds (R442) -/

/-- The sixteen bytes of a capture of time: seconds 8, nanoseconds 4, fraction 2, count 2. -/
def captureBytes (lo hi ns frac count : Nat) : List Nat :=
  bytesLE 8 (lo + pow2 32 * hi) ++ bytesLE 4 ns ++ bytesLE 2 frac ++ bytesLE 2 count

/-- The first 96 bytes of the time window, now (R294). -/
def Dev.window (d : Dev) : List Nat :=
  let g (f : Fld) : Nat := d.get f 0
  bytesLE 8 (stampSec d.time % pow2 48) ++ bytesLE 4 (stampNs d.time) ++ bytesLE 2 (stampFrac d.time) ++
  [d.tymState + d.src * 16,
   b1 (d.flag Reg.TYM_SPAN_STAT.VALID 0) + 2 * b1 (d.flag Reg.TYM_SPAN_STAT.ASYM_STALE 0) + 4 * b1 d.tym.step.isSome] ++
  bytesLE 4 d.tym.seq ++ bytesLE 4 d.holdShown ++ bytesLE 2 (g Reg.TYM_UTC.UTC_OFS) ++
  [g Reg.TYM_UTC.LEAP59 * 2 + g Reg.TYM_UTC.LEAP61] ++ List.replicate 5 0 ++
  bytesLE 8 (d.get64 Reg.TYM_SPAN_OFS_LO.THETA Reg.TYM_SPAN_OFS_HI.THETA 0) ++
  bytesLE 8 (d.get64 Reg.TYM_SPAN_MPD_LO.MPD Reg.TYM_SPAN_MPD_HI.MPD 0) ++ List.replicate 16 0 ++
  captureBytes (g Reg.TYM_PPS_IN_CAP_SEC_LO.SEC_LO) (g Reg.TYM_PPS_IN_CAP_SEC_HI.SEC_HI) (g Reg.TYM_PPS_IN_CAP_NS.NS)
    (g Reg.TYM_PPS_IN_CAP_FRAC.FRAC) d.tym.ppsCount ++
  captureBytes (g Reg.TYM_TCAL_CAP_SEC_LO.SEC_LO) (g Reg.TYM_TCAL_CAP_SEC_HI.SEC_HI) (g Reg.TYM_TCAL_CAP_NS.NS)
    (g Reg.TYM_TCAL_CAP_FRAC.FRAC) (g Reg.TYM_TCAL_CNT.EDGES)

/-- The sixteen bytes of a quad. -/
def Quad.bytes (e : Quad) : List Nat := bytesLE 4 e.w0 ++ bytesLE 4 e.w1 ++ bytesLE 4 e.w2 ++ bytesLE 4 e.w3

/-- The status line of queue `q` (R465). -/
def Dev.statusLine (d : Dev) (q : Nat) : List Nat :=
  let x := d.queue q
  bytesLE 2 x.wp ++ bytesLE 2 x.rp ++ bytesLE 2 x.depth ++ bytesLE 2 x.seq ++
  [x.epoch, b1 x.slug0 + 2 * b1 x.slug1 + 4 * d.get Reg.EVQ_CTRL.EN q, 0, 0] ++ bytesLE 4 (d.get Reg.EVQ_DROP.COUNT q)

/-- The header of a snapshot slot (R444). -/
def SnapSlot.header (x : SnapSlot) : List Nat :=
  bytesLE 4 x.seq ++ bytesLE 4 x.gnum ++ bytesLE 8 x.sec ++ bytesLE 4 x.ns ++ bytesLE 2 x.frac ++ [b1 x.forced]

/-- A snapshot slot. -/
def Dev.snap (d : Dev) (s : Nat) : SnapSlot := Store.get (fun _ => SnapSlot.reset) d.snaps s

/-- A byte of the HDM store by device offset, its errors apart. (Log 18: DESIGN CHOICE) -/
def State.hdmByte (s : State) (off : Nat) : Nat :=
  let d := s.dev
  if off < 0x1000 then d.window.getD off 0
  else if off < 0x11000 then
    ((d.queue ((off - 0x1000) / 0x4000)).slot ((off - 0x1000) % 0x4000 / 16)).bytes.getD (off % 16) 0
  else if off < 0x11100 then (d.statusLine ((off - 0x11000) / 0x40)).getD (off % 0x40) 0
  else if off < 0x100000 then 0
  else if off < 0xD00000 then
    let x := d.snap ((off - 0x100000) / 0x300000)
    let o := (off - 0x100000) % 0x300000
    if o < 0x1000 then x.header.getD o 0 else bitsOf (Store.get (fun _ => 0) x.img (o / 4 * 4)) (8 * (o % 4)) 8
  else if off < 0x1000000 then 0
  else if off < 0x1F00000 then (Store.get memReset s.mem off).toNat
  else if off < 0x1F10000 then d.ret.byte (off - 0x1F00000)
  else 0

/-- Do writes by the host, or by DMA, take effect at this offset (R442)? -/
def hdmWritable (off : Nat) : Bool := decide (0x1000000 ≤ off) && decide (off < 0x1F00000)

/-- Bytes written at rising offsets: those in areas that discard writes are discarded; an error that a written byte held is gone
(R419, R420). -/
def State.hdmWrite (s : State) : Nat → List (Option Byte) → State
  | _, [] => s
  | off, none :: rest => s.hdmWrite (off + 1) rest
  | off, some b :: rest =>
    if hdmWritable off then
      ({ s with mem := Store.set memReset s.mem off b, dev := s.dev.clearBad 8 off 1 } : State).hdmWrite (off + 1) rest
    else s.hdmWrite (off + 1) rest

/-! ### CXL.mem and BAR4 accesses (R417, R433, R439) -/

/-- The size of the range that the device claims: 256 MiB of HDM in CXL mode, the 32 MiB of BAR4 in PCIe mode. -/
def Dev.memSize (d : Dev) : Nat := if d.flag Reg.CXL_LINK_STAT.CXL 0 then 0x10000000 else 0x2000000

/-- Is HDM served: the link up, in CXL mode the decoder committed? -/
def Dev.memServed (d : Dev) : Bool :=
  d.flag Reg.CXL_LINK_STAT.UP 0 && (d.host.decoder || !d.flag Reg.CXL_LINK_STAT.CXL 0)

/-- Does an access reach memory, or is the address outside every range that the device claims? (Log 21: DEDUCED) -/
def Dev.memClaims (d : Dev) (addr : Nat) : Bool := decide (addr < d.memSize)

/-- A byte as a read finds it: a byte with an uncorrectable error reads with its data bits flipped, and its line is poisoned. -/
def State.hdmFound (s : State) (off : Nat) : Nat :=
  let b := s.dev.badByte 8 off
  if b.fails 8 then s.hdmByte off ^^^ b.mask else s.hdmByte off

/-- A line returned with poison is counted, and `CXL:POISON` raised at most once per second. (Log 20: DESIGN CHOICE) -/
def Dev.poisoned (d : Dev) : Dev :=
  let d := d.bump Reg.CXL_POISON_CNT.LINES 0
  if since d.host.poisonAt d.now (sec 1) then
    ({ d with host := { d.host with poisonAt := some d.now } } : Dev).raise Ev.poison 0 0 8
  else d

/-- A read of the 64-byte line at `addr`: the 64 bytes, then 1 where the line is poisoned. Before Memory_Active and above the
backed 32 MiB the bytes are zeros. (Log 18: DESIGN CHOICE, 20: DESIGN CHOICE, 138: DEDUCED) -/
def State.lineRead (s : State) (addr : Nat) : State :=
  let base := addr / 64 * 64
  let answer (t : State) (l : List Nat) (bad : Bool) : State := { t with dev := { t.dev with readData := l ++ [b1 bad] } }
  if s.dev.power.inReset then s
  else if !s.dev.memServed then { s with dev := { s.dev with readData := [] } }
  else if !s.dev.host.active || decide (0x2000000 ≤ base) then answer s (List.replicate 64 0) false
  else
    let bad := s.dev.rangeFails 8 base 64
    let bytes := (List.range 64).map fun i => s.hdmFound (base + i)
    let d := s.dev.rangeRead 8 base 64 3
    answer { s with dev := onlyIf bad Dev.poisoned d } bytes bad

/-- A write of a line with byte enables. (Log 138: DEDUCED) -/
def State.lineWrite (s : State) (addr : Nat) (enables : Nat) (bytes : List Byte) : State :=
  let base := addr / 64 * 64
  if s.dev.power.inReset || !s.dev.memServed || !s.dev.host.active || decide (0x2000000 ≤ base) then s
  else s.hdmWrite base ((List.range 64).map fun i => if bitOf enables i then some (bytes.getD i 0) else none)

/-- The store has been written to zero: `Memory_Info_Valid` and `Memory_Active` (R439). In FUSE_FAULT they stay 0 (R435).
(Log 133: DEDUCED, 138: DEDUCED) -/
def State.zeroDone (s : State) : State :=
  if s.dev.power.inReset || s.dev.host.zeroed || !s.dev.flag Reg.CHIP_SEAL.SEALED 0 then s
  else { s with mem := [], dev := { s.dev with host := { s.dev.host with zeroed := true, active := true } } }

/-! ### Snapshots (R443 to R445) -/

/-- The image of a page: its number with VALID and GNUM, and its registers 0x040 to 0x7FF, by byte offset from `base`. A
reserved or absent page has a zero image. -/
def Dev.pageImage (d : Dev) (p base gnum : Nat) : Store Nat :=
  match decodePage p with
  | none => []
  | some (k, i) =>
    let put (st : Store Nat) (off v : Nat) : Store Nat := Store.set (fun _ => 0) st off (Store.get (fun _ => 0) st off + v)
    let head := put (put [] base (p + pow2 16)) (base + 4) gnum
    ((rowsOf k).filter fun r => decide (0x40 ≤ r.off) && decide (r.off < 0x800)).foldl (fun st r =>
      (List.range r.num).foldl (fun st j => put st (base + 16 + (r.off + r.step * j - 0x40)) (d.live k i r j * pow2 r.lo)) st) head

/-- The words of a table with eight words an entry, from `base` on, without those that are 0. -/
def Dev.tableImage (d : Dev) (k : PageKind) (sel base : Nat) : Store Nat :=
  allFlows.flatMap fun f =>
    let l := d.readEntry k 0 sel f
    (List.range 8).filterMap fun w => if l.getD w 0 = 0 then none else some (base + 32 * f + 4 * w, l.getD w 0)

/-- The whole image of a snapshot. -/
def Dev.snapImage (d : Dev) (gnum : Nat) : Store Nat :=
  ((List.range 0x280).flatMap fun p => d.pageImage p (0x1000 + p * 0x800) gnum) ++
  d.tableImage .fmxF 8 0x141000 ++ d.tableImage .cyp 1 0x149000

/-- The slot with the lowest SEQ among those that are not held. -/
def Dev.snapPlace (d : Dev) : Option Nat :=
  ((List.range 4).filter fun s => !d.bit Reg.CXL_SNAP_HOLD.HOLD 0 s).foldl (fun a s =>
    match a with
    | some b => if (d.snap s).seq < (d.snap b).seq then some s else a
    | none => some s) none

/-- A snapshot is skipped. -/
def Dev.snapSkip (d : Dev) : Dev := (d.bump Reg.CXL_SNAP_STAT.SKIPPED 0).raise Ev.snapSkipped 0 0 0

/-- Is a snapshot due at the start of galley `gnum`? -/
def Dev.snapDue (d : Dev) (gnum : Nat) : Bool :=
  d.host.snapNow || (d.flag Reg.CXL_SNAP_CTRL.EN 0 && gnum % d.get Reg.CXL_SNAP_CTRL.PERIOD_GAL 0 == 0)

/-- A snapshot at the start of galley `gnum`: its records are taken now, and its slot has an odd SEQ while it is written.
(Log 131: DEDUCED) -/
def Dev.snapTake (d : Dev) (gnum : Nat) : Dev :=
  if !d.snapDue gnum then d
  else
    let forced := d.host.snapNow
    let d : Dev := { d with host := { d.host with snapNow := false } }
    match d.host.snapBusy, d.snapPlace with
    | none, some s =>
      let x : SnapSlot := ⟨((d.snap s).seq + 1) % pow2 32, gnum, stampSec d.time, stampNs d.time, stampFrac d.time, forced, d.snapImage gnum⟩
      { d with snaps := Store.set (fun _ => SnapSlot.reset) d.snaps s x, host := { d.host with snapBusy := some s } }
    | _, _ => d.snapSkip

/-- The slot being written is complete: SEQ is even, and `CXL:SNAP_DONE` is raised. -/
def Dev.snapDone (d : Dev) : Dev :=
  match d.host.snapBusy with
  | none => d
  | some s =>
    let x := d.snap s
    let y : SnapSlot := { x with seq := (x.seq + 1) % pow2 32 }
    let d : Dev := { d with snaps := Store.set (fun _ => SnapSlot.reset) d.snaps s y, host := { d.host with snapBusy := none } }
    (d.set Reg.CXL_SNAP_STAT.LAST 0 s).raise Ev.snapDone 0 s (y.seq % pow2 16)

/-! ### Captures (R446) -/

/-- The longest capture of a source, in KiB. -/
def captureLimit (src : Nat) : Nat := if src = 1 then 15359 else 1024

/-- Is subcarrier `n` of line engine `m` off in the receive bank in use? -/
def Dev.dscOff (d : Dev) (m n : Nat) : Bool :=
  constOf (d.tab (pageOf .rx m) (1 + d.get Reg.LE_RX_BL_CTRL.ACTIVE m) n 0) == 0

/-- The checks of GO with these settings (R446). -/
def Dev.captureErrs (d : Dev) (src le dsc : Nat) : List Err :=
  failIf (src == 0 || decide (4 ≤ src)) .reserved ++
  failIf (decide (1 ≤ src ∧ src ≤ 3) && decide (captureLimit src < d.get Reg.CXL_CAP_LEN.LEN_KIB 0)) .range ++
  failIf (d.bootWait || (src == 1 && (!d.rxLocked le || d.dscOff le dsc))) .state ++
  failIf (d.flag Reg.CXL_CAP_CTRL.RUN 0) .busy

/-- GO: the capture is armed for the next galley start. -/
def Dev.captureArm (d : Dev) : Dev :=
  ((d.setB Reg.CXL_CAP_CTRL.RUN 0 true).setB Reg.CXL_CAP_CTRL.DONE 0 false) |> fun e => { e with cap := ⟨true, 0, 0⟩ }

/-- The galley start at which an armed capture begins, with the ADC sample index of its first sample. -/
def Dev.captureBegin (d : Dev) (gnum : Nat) : Dev :=
  if !d.cap.armed then d
  else
    let index := if d.get Reg.CXL_CAP_CTRL.SRC 0 = 2 then d.sampleIndex (d.get Reg.CXL_CAP_CTRL.LE 0) d.now else 0
    { d with cap := ⟨false, gnum, index⟩ }

/-- The header of a capture of `n` bytes. (Log 131: DEDUCED) -/
def Dev.captureHeader (d : Dev) (n : Nat) : List Nat :=
  bytesLE 4 d.cap.gnum ++ [0, 0, 0, 0] ++ bytesLE 8 d.cap.index ++
  [d.get Reg.CXL_CAP_CTRL.SRC 0, d.get Reg.CXL_CAP_CTRL.LE 0, d.get Reg.CXL_CAP_CTRL.DSC 0, 0] ++ bytesLE 4 n ++ [1] ++
  List.replicate 39 0

/-- The capture ends with the samples taken: the samples, then the header with COMPLETE. (Log 131: DEDUCED, 138: DEDUCED) -/
def State.captureDone (s : State) (samples : List Byte) : State :=
  let d := s.dev
  if !d.runs || !d.flag Reg.CXL_CAP_CTRL.RUN 0 || d.cap.armed then s
  else
    let data := samples.take (d.get Reg.CXL_CAP_LEN.LEN_KIB 0 * 1024)
    let s := s.hdmWrite 0x1000040 (data.map some)
    let s := s.hdmWrite 0x1000000 ((d.captureHeader data.length).map fun v => some (BitVec.ofNat 8 v))
    let d := ((s.dev.setB Reg.CXL_CAP_CTRL.RUN 0 false).setB Reg.CXL_CAP_CTRL.DONE 0 true)
    { s with dev := d.raise Ev.captureDone 0 0 (d.get Reg.CXL_CAP_CTRL.SRC 0) }

end Sys2Proof.Machine
end

