-- ==== Sys2Proof/Machine/Dma.lean ====
section
/-! DEFINITION. The DMA channels: descriptors, transfers, completion and halts (R417, R434, R468 to R471). -/

namespace Sys2Proof.Machine

/-- Word `w` of the descriptor at HEAD of channel `c`. -/
def Dev.dmaHead (d : Dev) (c : Nat) : Nat := d.getJ Reg.DMA_RING.HEAD 0 c
def Dev.descWord (d : Dev) (c w : Nat) : Nat := d.tab 0x11 0x01 (c * 64 + d.dmaHead c) w
def Dev.setDescWord (d : Dev) (c w v : Nat) : Dev := d.setTab 0x11 0x01 (c * 64 + d.dmaHead c) w v

/-- The causes of a halt (R471). -/
inductive DmaHalt where
  | ecc (region : Nat)
  | host
  | table (code : Nat)
  | desc (code : Nat)
  | readOnly
deriving DecidableEq, Repr

def DmaHalt.cause : DmaHalt → Nat
  | .ecc _ => 1 | .host => 2 | .table _ => 3 | .desc _ => 4 | .readOnly => 5
def DmaHalt.code : DmaHalt → Nat
  | .ecc r => r | .host => 0 | .table c => c | .desc c => c | .readOnly => 0

/-- The channel halts: the descriptor's status, the channel's status, `DMA:HALT` and its vector (R471). (Log 136: DEDUCED) -/
def Dev.dmaHalt (d : Dev) (c : Nat) (h : DmaHalt) : Dev :=
  let d := d.setDescWord c 6 (pow2 30 + h.cause * pow2 8 + h.code)
  let d := ((d.setJ Reg.DMA_STAT.HALT 0 c 1).setJ Reg.DMA_STAT.RUN 0 c 0).setJ Reg.DMA_STAT.CAUSE 0 c h.cause
  let d := (d.setJ Reg.DMA_STAT.CODE 0 c h.code).setJ Reg.DMA_STAT.INDEX 0 c (d.dmaHead c)
  (d.raise Ev.dmaHalt 0 c (h.cause * 256 + h.code)).sendVector (4 + c)

/-! ### Checks of a descriptor (R469, R471) -/

/-- Does a page serve its table now: not a reserved page, and in BOOT_WAIT and FUSE_FAULT only those that answer (R370, R435)?
(Log 108: DEDUCED) -/
def Dev.pageServed (d : Dev) (p : Nat) : Bool :=
  (decodePage p).isSome &&
    (if d.flag Reg.CHIP_SEAL.FAULT 0 then p == 0
     else !d.bootWait || decide (p < 0x30) || p == 0x52 || p == 0x53)

/-- The place of an entry in table space: page, TBL_SEL and first index. (Log 136: DEDUCED) -/
def tablePlace (addr : Nat) : Nat × Nat × Nat := (bitsOf addr 32 10, bitsOf addr 24 8, bitsOf addr 0 16)

/-- Are the address and the length of one side of a descriptor good? (Log 136: DEDUCED) -/
def Dev.sideErr (d : Dev) (space addr len : Nat) (write : Bool) : Option DmaHalt :=
  if 3 ≤ space then some (.desc Err.reserved.code)
  else if space = 2 then
    let (p, sel, idx) := tablePlace addr
    if len = 0 ∨ len % 32 ≠ 0 ∨ addr ≠ p * pow2 32 + sel * pow2 24 + idx then some (.desc Err.range.code)
    else if write then none
    else
      match decodePage p with
      | none => some (.desc Err.range.code)
      | some (k, _) =>
        if (List.range (len / 32)).all fun e => tableIndexOk k sel (idx + e) then (if d.pageServed p then none else some (.desc Err.range.code))
        else some (.desc Err.range.code)
  else if len < 4 ∨ 4194304 < len ∨ len % 4 ≠ 0 ∨ addr % 4 ≠ 0 then some (.desc Err.range.code)
  else if space = 1 ∧ 0x2000000 < addr + len then some (.desc Err.range.code)
  else none

/-! ### The two sides of a transfer -/

/-- What a source yields: the bytes read, the machine after the reads, and the halt that cuts it short. -/
structure DmaRead where
  bytes : List Nat
  state : State
  halt : Option DmaHalt

/-- The bytes of an entry's eight words. -/
def entryBytes (ws : List Nat) : List Nat := ws.flatMap (bytesLE 4)

/-- A source of `len` bytes at `addr`; `host` is what host memory holds there, if it answered. -/
def State.dmaSource (s : State) (space addr len : Nat) (host : Option (List Nat)) : DmaRead :=
  if space = 0 then
    match s.dev.flag Reg.CXL_LINK_STAT.UP 0, host with
    | true, some l => ⟨(List.range len).map fun i => l.getD i 0, s, none⟩
    | _, _ => ⟨[], s, some .host⟩
  else if space = 1 then
    let d := s.dev
    let n := ((List.range (len / 4)).find? fun i => d.rangeFails 8 (addr + 4 * i) 4).elim len fun i => 4 * i
    let halt := if n < len then some (.ecc 8) else none
    ⟨(List.range n).map fun i => s.hdmByte (addr + i), { s with dev := d.rangeRead 8 addr (min len (n + 4)) 2 }, halt⟩
  else
    let (p, sel, idx) := tablePlace addr
    match decodePage p with
    | none => ⟨[], s, none⟩
    | some (k, i) =>
      let es := List.range (len / 32)
      ⟨es.flatMap fun e => entryBytes (s.dev.readEntry k i sel (idx + e)),
       { s with dev := s.dev.over es fun e d => d.entryRead k sel (idx + e) }, none⟩

/-- Table entries written from bytes, up to the first that is rejected. (Log 136: DEDUCED) -/
def Dev.dmaEntries (d : Dev) (p sel : Nat) : Nat → List (List Nat) → Dev × Option DmaHalt
  | _, [] => (d, none)
  | idx, ws :: rest =>
    match decodePage p with
    | none => (d, some (.table Err.index.code))
    | some (k, i) =>
      if !tableIndexOk k sel idx then (d, some (.table Err.index.code))
      else
        let lock := failIf (!d.flag Hdr.CTRL.ENABLE p) .locked ++ failIf (!d.pageServed p) .state
        match firstErr (lock ++ d.entryErrs k i sel idx ws) with
        | some e => (d, some (.table e.code))
        | none => Dev.dmaEntries (d.writeEntry k i sel idx ws) p sel (idx + 1) rest

/-- Bytes in entries of eight little-endian words. -/
def entriesOf (l : List Nat) : List (List Nat) := (List.range (l.length / 32)).map fun e => wordsOf l (32 * e)

/-- A destination takes bytes; `c` is the channel. -/
def State.dmaDest (s : State) (c space addr : Nat) (bytes : List Nat) : State × Option DmaHalt :=
  if space = 0 then
    if !s.dev.flag Reg.CXL_LINK_STAT.UP 0 then (s, some .host)
    else
      ({ s with dev := { s.dev with host := { s.dev.host with toHost := Store.set (fun _ => (0, [])) s.dev.host.toHost c (addr, bytes) } } }, none)
  else if space = 1 then
    let n := ((List.range bytes.length).find? fun i => !hdmWritable (addr + i)).elim bytes.length id
    (s.hdmWrite addr ((bytes.take n).map fun v => some (BitVec.ofNat 8 v)), if n < bytes.length then some .readOnly else none)
  else
    let (p, sel, idx) := tablePlace addr
    let (d, h) := s.dev.dmaEntries p sel idx (entriesOf bytes)
    ({ s with dev := d }, h)

/-! ### Descriptors (R470) -/

/-- May channel `c` take a descriptor? -/
def Dev.dmaReady (d : Dev) (c : Nat) : Bool :=
  d.getJ Reg.DMA_CTRL.EN 0 c == 1 && d.getJ Reg.DMA_STAT.HALT 0 c == 0 && d.getJ Reg.DMA_STAT.RUN 0 c == 0 &&
    d.dmaHead c != d.getJ Reg.DMA_RING.TAIL 0 c

/-- The next descriptor of channel `c`: checked, and its bytes moved. The halts of its source come before those of its
destination. `host` is what host memory answers to its reads; none where a read completes with UR, CA or poison.
(Log 137: DESIGN CHOICE, 138: DEDUCED) -/
def State.dmaStart (s : State) (c : Nat) (host : Option (List Nat)) : State :=
  let d := s.dev
  if !d.runs || !d.dmaReady c then s
  else
    let ctl := d.descWord c 0
    let src := bitsOf ctl 4 4
    let dst := bitsOf ctl 0 4
    let len := d.descWord c 1
    let from_ := d.descWord c 2 + pow2 32 * d.descWord c 3
    let dest := d.descWord c 4 + pow2 32 * d.descWord c 5
    let halt (t : State) (h : DmaHalt) : State := { t with dev := t.dev.dmaHalt c h }
    match d.sideErr src from_ len false, d.sideErr dst dest len true with
    | some h, _ => halt s h
    | none, some h => halt s h
    | none, none =>
      let r := s.dmaSource src from_ len host
      let (t, h) := r.state.dmaDest c dst dest r.bytes
      match r.halt, h with
      | _, some h => halt t h
      | some h, none => halt t h
      | none, none =>
        let d := t.dev.setJ Reg.DMA_STAT.RUN 0 c 1
        { t with dev := { d with host := { d.host with moved := Store.set (fun _ => 0) d.host.moved c len } } }

/-- The descriptor in progress completes: DATA7, then DATA6 with DONE; the next descriptor may follow. -/
def Dev.dmaDone (d : Dev) (c : Nat) : Dev :=
  if d.getJ Reg.DMA_STAT.RUN 0 c != 1 then d
  else
    let head := d.dmaHead c
    let ctl := d.descWord c 0
    let d := (d.setDescWord c 7 (Store.get (fun _ => 0) d.host.moved c)).setDescWord c 6 (pow2 31)
    let d : Dev := { d with host := { d.host with moved := Store.set (fun _ => 0) d.host.moved c 0 } }
    let d := ((d.setJ Reg.DMA_STAT.RUN 0 c 0).setJ Reg.DMA_RING.HEAD 0 c ((head + 1) % 64)).addSatJ Reg.DMA_DONE.COUNT 0 c 1
    let d := onlyIf (bitOf ctl 9) (fun d => d.raise Ev.dmaDone 0 c head) d
    onlyIf (bitOf ctl 8) (fun d => d.sendVector (4 + c)) d

/-- DMA_CTRL.RESET: HALT clears, and the descriptors still posted are discarded without status (R471). -/
def Dev.dmaReset (d : Dev) (c : Nat) : Dev :=
  let d := ((d.setJ Reg.DMA_STAT.HALT 0 c 0).setJ Reg.DMA_STAT.RUN 0 c 0).setJ Reg.DMA_RING.HEAD 0 c (d.getJ Reg.DMA_RING.TAIL 0 c)
  { d with host := { d.host with moved := Store.set (fun _ => 0) d.host.moved c 0 } }

/-- A new TAIL: the channel must be enabled and not halted, and TAIL neither reaches HEAD nor moves back past it (R468,
R476). (Log 136: DEDUCED) -/
def Dev.tailErrs (d : Dev) (c tail : Nat) : List Err :=
  let head := d.dmaHead c
  let old := d.getJ Reg.DMA_RING.TAIL 0 c
  failIf (d.getJ Reg.DMA_CTRL.EN 0 c == 0 || d.getJ Reg.DMA_STAT.HALT 0 c == 1) .state ++
  failIf (decide ((tail + 64 - head) % 64 < (old + 64 - head) % 64)) .range

end Sys2Proof.Machine
end

