-- ==== Sys2Proof/Machine/Link.lean ====
section
/-! DEFINITION. The CXL link, resets of it, bad accesses and the CDAT object (R432 to R434, R440, R441, R447, R478). -/

namespace Sys2Proof.Machine

/-- The code of `CXL:LINK` (R472). -/
def linkCode (up : Bool) (width rate : Nat) : Nat := b1 up * pow2 15 + width * pow2 8 + rate

/-- Link-up in CXL mode or PCIe mode, at a width and a rate. A link in CXL mode below 8 GT/s retrains once and comes up in PCIe mode
(R432). Memory_Active is set again where the store has been zeroed (R478). In FUSE_FAULT it stays 0 (R435). (Log 133: DEDUCED) -/
def Dev.linkUp (d : Dev) (cxl : Bool) (width rate : Nat) : Dev :=
  if d.flag Reg.CXL_LINK_STAT.UP 0 then d
  else
    let slow := cxl && decide (rate < 3)
    let d := onlyIf slow (fun d => d.bump Reg.CXL_LINK_CNT.RETRAIN 0) d
    let d := ((d.setB Reg.CXL_LINK_STAT.UP 0 true).setB Reg.CXL_LINK_STAT.CXL 0 (cxl && !slow)).set Reg.CXL_LINK_STAT.WIDTH 0 width
    let d := d.set Reg.CXL_LINK_STAT.RATE 0 rate
    let d : Dev := { d with host := { d.host with active := d.host.zeroed } }
    d.raise Ev.link 0 0 (linkCode true width rate)

/-- Exit from link-up, with `CXL:LINK`. -/
def Dev.linkExit (d : Dev) : Dev :=
  if d.flag Reg.CXL_LINK_STAT.UP 0 then
    let code := linkCode false (d.get Reg.CXL_LINK_STAT.WIDTH 0) (d.get Reg.CXL_LINK_STAT.RATE 0)
    d.raise Ev.link 0 0 code
  else d

/-- The link goes down, which is a CXL reset (R434, R477). -/
def Dev.linkDown (d : Dev) : Dev :=
  if d.flag Reg.CXL_LINK_STAT.UP 0 then (d.bump Reg.CXL_LINK_CNT.DOWN 0).linkExit.cxlReset else d

/-- A CXL reset by `CXL_PERST_L` or a hot reset: the link leaves link-up (R477, R478). -/
def Dev.cxlSource (d : Dev) : Dev := d.linkExit.cxlReset

/-- A BAR0 access of the wrong size or alignment (R447): a read returns all ones in every enabled byte. (Log 29: DEDUCED) -/
def Dev.badAccess (d : Dev) (read : Bool) (bytes : Nat) : Dev :=
  let d := d.bump Reg.CXL_BAD_ACCESS.COUNT 0
  let d : Dev := if read then { d with readData := List.replicate bytes 0xFF } else d
  if since d.host.badAt d.now (sec 1) then
    ({ d with host := { d.host with badAt := some d.now } } : Dev).raise Ev.badAccess 0 0 0
  else d

/-- `HOLDOFF_US` after a queue vector's signalling ends: the conditions kept signal it once (R467). -/
def Dev.holdoffEnd (d : Dev) (q : Nat) : Dev :=
  let x := d.queue q
  if x.holdPend then
    let d := d.until x.holdUntil
    let d := d.setQueue q { d.queue q with holdPend := false }
    d.queueVector q
  else d

/-- A mismatch of the two copies of a queue's positions (R464). (Log 134: DEDUCED) -/
def Dev.queueIntegrity (d : Dev) (q : Nat) : Dev :=
  let x := d.queue q
  let was := d.bit Reg.CHIP_STICKY.EVQ_INTEGRITY 0 q
  let d := d.setQueue q { x with wp := 0, rp := 0, depth := 0, slug0 := false, slug1 := false }
  let d := d.putBit Reg.CHIP_STICKY.EVQ_INTEGRITY 0 q true
  if was then d else d.sendVector 21

/-! ### CDAT (R441) -/

/-- The DSMAS structure. (Log 13: PRESUMED) -/
def dsmas : List Nat := [0, 0] ++ bytesLE 2 24 ++ [0, 0, 0, 0] ++ bytesLE 8 0 ++ bytesLE 8 0x10000000

/-- A DSLBIS structure of a data type: its base unit and entry. (Log 13: PRESUMED) -/
def dslbis (type unit entry : Nat) : List Nat :=
  [1, 0] ++ bytesLE 2 24 ++ [0, 0, type, 0] ++ bytesLE 8 unit ++ bytesLE 2 entry ++ [0, 0, 0, 0, 0, 0]

/-- The structures in order: latencies in ps, bandwidths in MB/s. -/
def cdatEntries : List (List Nat) := [dsmas, dslbis 1 1000 700, dslbis 2 1000 700, dslbis 4 1 16000, dslbis 5 1 12000]

/-- The header: length, revision 1, the checksum that makes the bytes of the whole table sum to 0, and sequence 0. (Log 13: PRESUMED) -/
def cdatHeader : List Nat :=
  let body := cdatEntries.flatten
  let head (sum : Nat) : List Nat := bytesLE 4 (16 + body.length) ++ [1, sum] ++ List.replicate 10 0
  head ((256 - ((head 0 ++ body).foldl (· + ·) 0) % 256) % 256)

/-- A table access for entry handle `i`: the header, then the structures; the last answers with the next handle 0xFFFF.
(Log 13: PRESUMED) -/
def cdatReply (i : Nat) : DoeReply :=
  let next := if i < cdatEntries.length then i + 1 else 0xFFFF
  if i = 0 then .cdat true next cdatHeader else .cdat false next (cdatEntries.getD (i - 1) [])

/-- A CDAT object in the mailbox. -/
def Dev.cdat (d : Dev) (dwords entry : Nat) : Dev := d.doe dwords false (cdatReply entry)

end Sys2Proof.Machine
end

