-- ==== Sys2Proof/Machine/Host.lean ====
section
/-! DEFINITION. Host accesses to registers: the checks of a write in the order of R452 with the checks that the chapters
state, its effect, table commands (R455), the common header (R448, R450, R454, R457) and reads. -/

namespace Sys2Proof.Machine

/-! ### What a written word says -/

/-- The value that a word gives to a field. -/
def FieldRow.value (r : FieldRow) (w : Nat) : Nat := bitsOf w r.lo r.width
def Fld.of (f : Fld) (w : Nat) : Nat := bitsOf w f.lo f.width
def Fld.on (f : Fld) (w : Nat) : Bool := f.of w == 1

/-- Does the word set a bit that belongs to no field (R9)? (Log 22: DEDUCED, 23: DEDUCED) -/
def reservedSet (rows : List FieldRow) (w : Nat) : Bool :=
  (List.range 32).any fun b => bitOf w b && rows.all fun r => !(decide (r.lo ≤ b) && decide (b < r.lo + r.width))

/-- Does a write reach the field? (Log 22: DEDUCED) -/
def FieldRow.written (r : FieldRow) : Bool := r.acc == .RW || r.acc == .WO || r.acc == .WC

/-- The ranges of the fields; a register of counters takes 0 only. -/
def rangeErrs (rows : List FieldRow) (w : Nat) : List Err :=
  if rows.any fun r => r.count then failIf (w != 0) .range
  else failIf (rows.any fun r => r.written && (decide (r.value w < r.rmin) || decide (r.rmax < r.value w))) .range

/-- A signed field beyond a limit. -/
def beyond (f : Fld) (w limit : Nat) : List Err := failIf (decide (limit < (sgn f.width (f.of w)).natAbs)) .range

/-- Fields whose stored value a write would change. -/
def Dev.changes (d : Dev) (f : Fld) (i w : Nat) : Bool := f.of w != d.get f i

/-! ### Checks that the chapters state -/

/-- The common header and the indirect window (R450, R455, R457). -/
def fixedEnable (p : Nat) : Bool :=
  decide (p < 0x10) || p == 0x10 || p == 0x50 || p == 0x52 || p == 0x53 || p == 0x60 || p == 0x61

def Dev.headerErrs (d : Dev) (k : PageKind) (i off w : Nat) : List Err :=
  let p := pageOf k i
  let noEvent := failIf ((List.range 32).any fun b => bitOf w b && decide ((eventsOf k).2 ≤ b)) .reserved
  match off with
  | 0x008 =>
    if Hdr.CTRL.BLK_RESET.on w then
      failIf (fixedEnable p) .locked ++ failIf (d.flag Hdr.CTRL.ENABLE p) .state ++ failIf (!d.idle k i) .notIdle
    else []
  | 0x024 => noEvent
  | 0x028 => noEvent
  | 0x02C => noEvent
  | 0x800 => failIf (w != 0 && (tableSize k w).isNone) .reserved
  | 0x828 =>
    let op := Hdr.TBL_CMD.OP.of w
    let sel := d.get Hdr.TBL_SEL.SEL p
    let idx := d.get Hdr.TBL_INDEX.INDEX p
    if op = 3 then [.reserved]
    else if op = 0 then []
    else
      let ws := (List.range 8).map fun j => d.getJ Hdr.TBL_DATA.DATA p j
      if !tableIndexOk k sel idx then
        failIf (op == 2 && (tableSize k sel).isSome && (d.entryErrs k i sel idx ws).contains .reserved) .reserved ++ [.index]
      else if op = 2 then d.entryErrs k i sel idx ws
      else []
  | _ => []

/-- Transmit, DAC and pace pages (R34, R35, R64, R71, R77, R90, R91). (Log 27: DEDUCED) -/
def Dev.txErrs (d : Dev) (k : PageKind) (n off w : Nat) : List Err :=
  let st := d.txState n
  let moving := st == 2 || st == 3 || st == 5 || st == 7
  match k, off with
  | .pace, 0x44 =>
    let e := Reg.LE_PG_THRESH.EVT_MARGIN.of w
    let v := Reg.LE_PG_THRESH.VREQ_MARGIN.of w
    failIf (!(decide (e < v) && decide (v < d.get Reg.LE_PG_HIGH.HIGH_MARGIN n))) .inconsistent
  | .pace, 0x48 => failIf (!decide (d.get Reg.LE_PG_THRESH.VREQ_MARGIN n < Reg.LE_PG_HIGH.HIGH_MARGIN.of w)) .inconsistent
  | .pace, 0x58 => failIf (d.member n) .state
  | .tx, 0x40 =>
    let req := Reg.LE_TX_CTRL.REQ.of w
    failIf (decide (4 ≤ req)) .reserved ++ failIf (Reg.LE_TX_CTRL.KILL.on w && req != 0) .inconsistent ++
      (if req = 0 then [] else d.reqErrs n req)
  | .tx, 0x48 => failIf (!(st == 0 || st == 8)) .state
  | .tx, 0x4C => if Reg.LE_TX_BL_CTRL.SWITCH.on w then d.blErrs n else []
  | .tx, 0x64 => failIf (Reg.LE_TX_MASK_CTRL.COMMIT.on w && d.flag Reg.LE_TX_MASK_CTRL.COMMIT n) .busy
  | .tx, 0x68 => beyond Reg.LE_TX_XY.Y_GAIN w 20
  | .tx, 0x6C => failIf moving .busy
  | .tx, 0x70 => failIf moving .busy
  | .tx, 0x74 => failIf (Reg.LE_TX_PRBS.MODE.of w == 3) .reserved ++ failIf (d.member n) .state
  | _, _ => []

/-- Receive, CDE and FEC pages (R101, R107, R122, R124, R125, R128, R131, R456). -/
def Dev.rxErrs (d : Dev) (k : PageKind) (n off w : Nat) : List Err :=
  let st := d.rxState n
  match k, off with
  | .rx, 0x40 => failIf (Reg.LE_RX_CTRL.EN.on w && d.get Reg.LE_RX_FREQ.FREQ_MHZ n == 0) .inconsistent
  | .rx, 0x44 =>
    failIf (st != 0) .state ++
      failIf (Reg.LE_RX_CFG.FE_FILT.on w && decide (10 < Reg.LE_RX_CFG.ROLLOFF.of w)) .inconsistent
  | .rx, 0x48 => failIf (w != 0 && !(decide (184500000 ≤ w) && decide (w ≤ 197000000))) .range ++ failIf (st != 0) .state
  | .rx, 0x5C => if Reg.LE_RX_BL_CTRL.SWITCH.on w then d.rxSwitchErrs n else []
  | .rx, 0x60 => failIf (Reg.LE_RX_PRBS.MODE.of w == 3) .reserved ++ failIf (d.member n) .state
  | .cde, 0x40 => failIf (d.changes Reg.LE_CDE_CTRL.MODE n w && !(st == 0 || st == 1)) .state
  | .cde, 0x44 => beyond Reg.LE_CDE_SET.D_SET w 8000000 ++ failIf (!d.cdeManual n) .state
  | .fec, 0x40 => d.fecCfgErrs n (Reg.LE_FEC_CFG.RATE.of w) (Reg.LE_FEC_CFG.CODE.of w)
  | .fec, 0x44 => failIf (d.le n).fec.iterPend.isSome .busy
  | _, _ => []

/-- Framer, bundle, deskew and lane group pages (R188, R208, R215, R216, R221, R256, R258, R260, R261). -/
def Dev.flowErrs (d : Dev) (k : PageKind) (i off w : Nat) : List Err :=
  match k, off with
  | .frm, 0x50 => failIf (Reg.FRM_BDI_CTRL.INHIBIT.on w && Reg.FRM_BDI_CTRL.FORCE.on w) .inconsistent
  | .fmxB, 0x44 =>
    if Reg.FMX_BND_CTRL.RETURN.of w = 0 then [] else d.returnErrs (Reg.FMX_BND_CTRL.RETURN.of w)
  | .fmxB, 0x64 =>
    (if Reg.FMX_MAP_CTRL.COMMIT.on w then d.commitErrs else []) ++ (if Reg.FMX_MAP_CTRL.CANCEL.on w then d.cancelErrs else [])
  | .hlnG, 0x40 => d.hlnCtrlErrs i w
  | .hlnL, _ => if (off - 0x40) % 0x20 = 0 then d.laneCtrlErrs i ((off - 0x40) / 0x20) w else []
  | .hlnE, _ =>
    failIf (decide (32 < Reg.HLN_TXFIR.PRE2.of w + Reg.HLN_TXFIR.PRE1.of w + Reg.HLN_TXFIR.POST1.of w) && decide (off < 0x60)) .inconsistent
  | _, _ => []

/-- The checks of `TYM_INCR` (R264, R295): the pair is checked when it is applied. -/
def Dev.incrErrs (d : Dev) (lo : Nat) : List Err :=
  let v := lo + pow2 32 * d.get Reg.TYM_INCR_HI.INCR_HI 0
  failIf (decide (v < incrMin) || decide (incrMax < v)) .range

/-- Tympan, Carillon, CYP and trust pages (R268, R275, R295, R297, R343, R370, R376). -/
def Dev.timeErrs (d : Dev) (k : PageKind) (off w : Nat) : List Err :=
  match k, off with
  | .tymC, 0x40 => failIf (Reg.TYM_CTRL.SRC.of w == 3) .reserved
  | .tymC, 0x48 => d.incrErrs w ++ failIf (d.src != 0) .state
  | .tymC, 0x4C => failIf (d.src != 0) .state
  | .tymT, 0x5C => d.adjErrs (Reg.TYM_ADJ_CMD.CMD.of w)
  | .tymT, 0x64 => failIf (decide (4 ≤ Reg.TYM_EXT_CTRL.BAUD.of w)) .reserved
  | .tymT, 0x98 => beyond Reg.TYM_PPS_OUT0_OFS.OFS_PS w 10000000
  | .tymT, 0xA0 => beyond Reg.TYM_PPS_OUT1_OFS.OFS_PS w 10000000
  | .tymS, 0x5C => beyond Reg.TYM_ASYM_USER.PS w 1000000000
  | .car, 0x40 => d.carErrs (Reg.CAR_CMD.OP.of w) (Reg.CAR_CMD.ARG.of w)
  | .trust, 0x44 => d.trustErrs (Reg.CAR_TRUST_CMD.OP.of w)
  | .mcu, 0x50 => d.loadErrs (Reg.MCU_BOOT_CMD.OP.of w) (Reg.MCU_BOOT_CMD.LEN_KIB.of w)
  | _, _ => []

/-- Monitor, calibration, ECC, chip, host link, queue and DMA pages (R37, R385, R403, R405, R406, R410, R413, R427, R446, R461,
R473, R474, R476, R505, R510). -/
def Dev.unitErrs (d : Dev) (k : PageKind) (i off w : Nat) : List Err :=
  let running := d.flag Reg.CXL_CAP_CTRL.RUN 0
  match k, off with
  | .vcore, 0x40 => d.floorErrs (Reg.CHIP_VCORE_FLOOR.FLOOR_MV.of w)
  | .vcore, 0x4C => failIf d.anyMember .state
  | .chip0, 0x58 => failIf (Reg.CHIP_RST_CMD.OP.of w != 0xA5) .reserved
  | .mon, 0x40 =>
    failIf (decide (5 ≤ Reg.MON_SEQ_CTRL.TRIG.of w)) .reserved ++
      failIf (d.flag Reg.MON_STAT.RUN 0 && (d.changes Reg.MON_SEQ_CTRL.TRIG 0 w || d.changes Reg.MON_SEQ_CTRL.LAST 0 w ||
        d.changes Reg.MON_SEQ_CTRL.PERIOD_US 0 w)) .busy
  | .mon, 0x54 =>
    failIf (Reg.MON_INJ.GAIN.of w == 3) .range ++
      (if Reg.MON_INJ.GO.on w then d.injErrs (Reg.MON_INJ.GAIN.of w) (Reg.MON_INJ.INPUT.of w) else [])
  | .mon, 0x58 => failIf (Reg.MON_TDAC.INPUT.of w == 43 || decide (47 < Reg.MON_TDAC.INPUT.of w)) .range
  | .cal, 0x40 => d.calErrs (Reg.CAL_CMD.OP.of w) (Reg.CAL_CMD.KIND.of w)
  | .cal, 0x48 => failIf d.calBusy .busy
  | .cal, 0x4C => failIf d.calBusy .busy
  | .cal, 0x50 => beyond Reg.CAL_REF_PS.PS w 10000000 ++ failIf d.calBusy .busy
  | .ecc, 0x54 =>
    if Reg.ECC_INJ.GO.on w then
      Dev.eccInjErrs (Reg.ECC_INJ.REGION.of w) (Reg.ECC_INJ.BITS.of w) (d.get Reg.ECC_INJ_ADDR.OFFSET 0)
    else []
  | .hdm, 0x4C =>
    if Reg.CXL_CAP_CTRL.GO.on w then
      d.captureErrs (Reg.CXL_CAP_CTRL.SRC.of w) (Reg.CXL_CAP_CTRL.LE.of w) (Reg.CXL_CAP_CTRL.DSC.of w)
    else failIf running .busy
  | .evq, 0x40 => failIf (!Reg.EVQ_CTRL.EN.on w && decide (0 < (d.queue i).depth)) .notIdle
  | .evq, 0x4C => failIf (!(d.queue i).popAllowed w) .range
  | .dma, _ => if (off - 0x40) % 0x10 = 4 then d.tailErrs ((off - 0x40) / 0x10) (Reg.DMA_RING.TAIL.of w) else []
  | _, _ => []

/-- Every check of a write of a register. (Log 22: DEDUCED) -/
def Dev.writeErrs (d : Dev) (k : PageKind) (i off w : Nat) : List Err :=
  let rows := fieldsAt k off
  if rows.isEmpty then [.reserved]
  else
    failIf (reservedSet rows w) .reserved ++
    failIf (decide (0x40 ≤ off) && !d.flag Hdr.CTRL.ENABLE (pageOf k i)) .locked ++
    rangeErrs rows w ++
    (if off < 0x40 ∨ 0x800 ≤ off then d.headerErrs k i off w
     else d.txErrs k i off w ++ d.rxErrs k i off w ++ d.flowErrs k i off w ++ d.timeErrs k off w ++ d.unitErrs k i off w)

/-! ### The effect of an accepted write -/

/-- One field takes its part of the word: RW fields and shadows the value, W1C bits written 1 clear, counts clear. -/
def Dev.storeField (d : Dev) (k : PageKind) (i off w : Nat) (r : FieldRow) : Dev :=
  let key := r.key k i (r.index off)
  let put (v : Nat) : Dev := { d with regs := Store.set regReset d.regs key v }
  match r.acc with
  | .RW => put (if r.count then 0 else r.value w)
  | .WC => if r.width = 1 then d else put (r.value w)
  | .W1C => let v := Store.get regReset d.regs key; put (v - (v &&& r.value w))
  | _ => d
def Dev.storeWord (d : Dev) (k : PageKind) (i off w : Nat) : Dev :=
  (fieldsAt k off).foldl (fun d r => d.storeField k i off w r) d

/-- A CAR_CMD write (R342). -/
def Dev.carCommand (d : Dev) (op arg : Nat) : Dev :=
  match op with
  | 1 => d.importStart
  | 2 => d.generateStart arg
  | 3 => d.armStart arg
  | 4 => d.eraseStart 4 arg [arg]
  | 5 => d.eraseStart 5 arg ((List.range 4).map fun k => arg / 4 * 4 + k)
  | 6 => d.zeroise
  | 7 => ((d.carStart 7 0).drawNonce).carEnd 0 0
  | 8 => d.alarmClear
  | _ => d

/-- A CAL_CMD write (R385). -/
def Dev.calCommand (d : Dev) (op kind n : Nat) : Dev :=
  match op with
  | 1 => if kind = 5 then d.calRunMon else d.calRunLe kind n
  | 2 => d.calRestore
  | 3 => d.calAbort
  | _ => d

/-- A REQ or KILL write (R77, R83, R321). -/
def Dev.txCtrl (d : Dev) (n w : Nat) : Dev :=
  let req := Reg.LE_TX_CTRL.REQ.of w
  let kill := Reg.LE_TX_CTRL.KILL.on w
  let d := onlyIf kill (fun d => d.calTxLost n) (d.killWritten n kill)
  if req = 0 then d else (d.setB Reg.LE_CHM_STAT.BEACON_ABS n false).request n req

/-- A write of the transmit, DAC or pace page took effect. -/
def Dev.txEffect (d : Dev) (k : PageKind) (n off w : Nat) : Dev :=
  match k, off with
  | .pace, 0x40 => d.paceFollow n
  | .pace, 0x44 => d.paceFollow n
  | .pace, 0x48 => d.paceFollow n
  | .pace, 0x58 => d.recheckBounds
  | .tx, 0x40 => d.txCtrl n w
  | .tx, 0x4C => if Reg.LE_TX_BL_CTRL.SWITCH.on w then d.blSwitch n else d
  | .tx, 0x64 => if Reg.LE_TX_MASK_CTRL.COMMIT.on w then d.maskCommit n else d
  | .tx, 0x48 => d.recheckBounds
  | _, _ => d

/-- A change of MODE: a MANUAL D_set that waited is given up, and LE_CDE_SET shows the D_set in force (R107, R128). -/
def Dev.cdeMode (d was : Dev) (n : Nat) : Dev :=
  if d.cdeManual n = was.cdeManual n then d
  else (d.setS Reg.LE_CDE_SET.D_SET n (d.dSet n)).modRx n fun r => { r with dNext := none }

/-- A write of the receive path's pages took effect; `was` is the device before it. A MANUAL D_set that is the one in force is
no change of D_set, and takes back one that waits (R107, R108). -/
def Dev.rxEffect (d was : Dev) (k : PageKind) (n off w : Nat) : Dev :=
  match k, off with
  | .rx, 0x40 =>
    let d := d.rxReconsider n
    let d := onlyIf (!Reg.LE_RX_CTRL.EN.on w) (fun d => d.calRxLost n) d
    if Reg.LE_RX_CTRL.REACQ.on w then d.reacquire n else d
  | .rx, 0x44 => d.recheckBounds
  | .rx, 0x5C => if Reg.LE_RX_BL_CTRL.SWITCH.on w then d.rxBlSwitch n else d
  | .rx, 0x60 => d.prbsMode (was.get Reg.LE_RX_PRBS.MODE n) n
  | .cde, 0x40 => d.cdeMode was n
  | .cde, 0x44 => d.modRx n fun r => { r with dNext := if sgn 32 w = r.dUse then none else some (sgn 32 w) }
  | .fec, 0x40 => d.fecCfg n (Reg.LE_FEC_CFG.RATE.of w) (Reg.LE_FEC_CFG.CODE.of w)
  | .fec, 0x44 => if Reg.LE_FEC_ITER.COMMIT.on w then d.iterCommit n else d
  | .fec, 0x8C => if w = 1 then d.modFec n fun x => { x with clearPend := true } else d
  | _, _ => d

/-- A write of the framer's, the bundle's or the lane groups' pages took effect; `was` is the device before it. -/
def Dev.flowEffect (d was : Dev) (k : PageKind) (i off w : Nat) : Dev :=
  match k, off with
  | .frmc, 0x40 =>
    let d := if Reg.FRM_PM_CTRL.EN.on w then d else d.pmInhibit
    if Reg.FRM_PM_CTRL.CLR.on w then d.pmClrWritten else d
  | .fmxB, 0x44 => if Reg.FMX_BND_CTRL.RETURN.of w = 0 then d else d.returnCarriers (Reg.FMX_BND_CTRL.RETURN.of w)
  | .fmxB, 0x64 =>
    let d := if Reg.FMX_MAP_CTRL.COMMIT.on w then d.commitPlanned else d
    if Reg.FMX_MAP_CTRL.CANCEL.on w then d.plannedEnd 5 else d
  | .fmxB, 0x68 => d.placeTry w
  | .hlnG, 0x40 => d.hlnCtrlApply i w (was.grpEn i)
  | .hlnL, _ => if (off - 0x40) % 0x20 = 0 then d.laneCtrlApply i ((off - 0x40) / 0x20) else d
  | _, _ => d

/-- A write of the pages of Tympan, Carillon or the trust unit took effect; `was` is the device before it. -/
def Dev.timeEffect (d was : Dev) (k : PageKind) (off w : Nat) : Dev :=
  match k, off with
  | .tymC, 0x40 => d.srcWritten was.tymState
  | .tymC, 0x48 => d.incrWritten
  | .tymT, 0x5C => d.adjust (Reg.TYM_ADJ_CMD.CMD.of w)
  | .tymT, 0x64 => d.checkSource
  | .tymT, 0x94 => { d with pins := Store.set (fun _ => 3) d.pins outCtrlKey 1 }
  | .tymS, 0x5C => d.checkAsym
  | .car, 0x40 => d.carCommand (Reg.CAR_CMD.OP.of w) (Reg.CAR_CMD.ARG.of w)
  | .trust, 0x44 => d.trustStart (Reg.CAR_TRUST_CMD.OP.of w)
  | .mcu, 0x50 => d.loadImage (Reg.MCU_BOOT_CMD.LEN_KIB.of w)
  | _, _ => d

/-- A MON_SEQ_CTRL write (R402): GO triggers under TRIG 0, and TRIG 4 runs without a trigger. `was` is TRIG before it. (Log 119: DEDUCED) -/
def Dev.monCtrl (d : Dev) (was w : Nat) : Dev :=
  let trig := Reg.MON_SEQ_CTRL.TRIG.of w
  let d := onlyIf (trig == 1 && was != 1) (fun d => d.modMon fun m => { m with trigAt := d.now }) d
  let d := onlyIf (trig == 4 && !d.flag Reg.MON_STAT.RUN 0) (fun d => d.monStart) d
  if Reg.MON_SEQ_CTRL.GO.on w && trig == 0 then d.monTrigger else d

/-- A write of the other pages took effect; `was` is the device before it. -/
def Dev.unitEffect (d was : Dev) (k : PageKind) (i off w : Nat) : Dev :=
  match k, off with
  | .vcore, 0x40 => d.floorWritten (Reg.CHIP_VCORE_FLOOR.FLOOR_MV.of w)
  | .rst, _ =>
    if 0x48 ≤ off ∧ off < 0x64 then d.setJ Reg.RST_DIP_CNT.MIN_MV 0 ((off - 0x48) / 4) 0 else d
  | .mon, 0x40 => d.monCtrl (was.get Reg.MON_SEQ_CTRL.TRIG 0) w
  | .mon, 0x54 => if Reg.MON_INJ.GO.on w then d.inject else d
  | .mon, 0x58 => d.tdacWritten
  | .cal, 0x40 => d.calCommand (Reg.CAL_CMD.OP.of w) (Reg.CAL_CMD.KIND.of w) (Reg.CAL_CMD.LE.of w)
  | .ecc, 0x54 =>
    if Reg.ECC_INJ.GO.on w then
      d.eccInject (Reg.ECC_INJ.REGION.of w) (Reg.ECC_INJ.BITS.of w) (d.get Reg.ECC_INJ_ADDR.OFFSET 0)
    else d
  | .hdm, 0x40 => if Reg.CXL_SNAP_CTRL.NOW.on w then { d with host := { d.host with snapNow := true } } else d
  | .hdm, 0x4C => if Reg.CXL_CAP_CTRL.GO.on w then d.captureArm else d
  | .evq, 0x4C => d.setQueue i ((d.queue i).popTo w)
  | .evqC, 0x40 =>
    d.over (List.range 4) fun q d => if bitOf w q then d else d.setQueue q { d.queue q with holdPend := false }
  | .dma, _ =>
    if (off - 0x40) % 0x10 = 0 && Reg.DMA_CTRL.RESET.on w then d.dmaReset ((off - 0x40) / 0x10) else d
  | _, _ => d

/-! ### The common header -/

/-- The keys of the tables of a page that BLK_RESET returns to their reset contents: those that are written, and the flow
counters. -/
def blkTables (k : PageKind) (p key : Nat) : Bool :=
  let sel := key / 8 / 65536 % 256
  key / 8 / 65536 / 256 == p && (!(tableMasks k sel).isEmpty || (k == .fmxF && sel == 8))

/-- What the block does once its fields stand at their reset values again: requests that the cleared fields held are gone, and
what depends on the settings follows them. (Log 26: DEDUCED) -/
def Dev.blkFollow (d : Dev) (k : PageKind) (i : Nat) : Dev :=
  match k with
  | .pace => d.recheckBounds.paceFollow i
  | .tx =>
    ((d.modTx i fun t => { t with switchAt := none, maskWait := none, rampHeld := [] }).modChm i fun c =>
      { c with proposal := none }).recheckBounds
  | .rx =>
    ((d.prbsMode (d.get Reg.LE_RX_PRBS.MODE i) i).modRx i fun r => { r with switchAt := none }).recheckBounds
  | .cde => ((d.set Reg.LE_CDE_PREDELAY.N i 64).modRx i fun r => { r with dNext := none, dUse := 0, hasD := false }).recheckBounds
  | .fec =>
    let d := (d.fecZero i).modFec i fun x => { x with iterPend := none, clearPend := false }
    d.fecCfg i (d.get Reg.LE_FEC_CFG.RATE i) (d.get Reg.LE_FEC_CFG.CODE i)
  | .fmxB => d.modFmx fun x => { x with plannedAt := none, plannedSaid := false }
  | .fmxF =>
    (d.over allFlows fun f d => d.modFpm f fun p => { p with inh := true }).recheckBounds.shedEval
  | .hlnG =>
    let d := (d.set Reg.HLN_RS_CW_LO.CW i 0).set Reg.HLN_RS_CW_HI.CW i 0
    ((d.set Reg.HLN_RS_SYM_LO.SYM i 0).set Reg.HLN_RS_SYM_HI.SYM i 0).set Reg.HLN_RS_UNC.UNC i 0
  | .hlnL => d.over (List.range 8) fun l d => d.laneCtrlApply i l
  | .tymC => d.incrWritten
  | .tymS => d.checkAsym
  | .cyp => d.recheckBounds
  | .mon => (d.over allSlots fun j d => d.restartSlot j).tdacWritten
  | .det => d.over allSlots fun j d => d.restartSlot j
  | .evq =>
    d.setQueue i { d.queue i with slots := [], wp := 0, rp := 0, depth := 0, slug0 := false, slug1 := false }
  | _ => d

/-- BLK_RESET (R450, R474): RW, WC and WO fields, counters and RW tables return to their reset values; the header stands.
(Log 26: DEDUCED) -/
def Dev.blkReset (d : Dev) (k : PageKind) (i : Nat) : Dev :=
  let p := pageOf k i
  let d := ((rowsOf k).filter fun r => r.written).foldl (fun d r =>
    (List.range r.num).foldl (fun d j =>
      { d with regs := Store.set regReset d.regs (r.key k i j) r.reset }) d) d
  ({ d with tabs := Store.clear d.tabs (blkTables k p) } : Dev).blkFollow k i

/-- A CTRL write (R450). (Log 24: DEDUCED, 25: DESIGN CHOICE) -/
def Dev.ctrlWritten (d : Dev) (k : PageKind) (i w : Nat) : Dev :=
  let d := d.setB Hdr.CTRL.ENABLE (pageOf k i) (Hdr.CTRL.ENABLE.on w)
  let d := onlyIf (Hdr.CTRL.BLK_RESET.on w) (fun d => d.blkReset k i) d
  d.freezePage k i (Hdr.CTRL.FREEZE.on w)

/-- INDEX advances after an accepted table command with AUTO_INC. -/
def Dev.tblNext (d : Dev) (p w : Nat) : Dev :=
  if Hdr.TBL_CMD.AUTO_INC.on w then d.set Hdr.TBL_INDEX.INDEX p (d.get Hdr.TBL_INDEX.INDEX p + 1) else d

/-- A READ of the selected entry: its words in TBL_DATA (R455). -/
def Dev.tblRead (d : Dev) (k : PageKind) (i w : Nat) : Dev :=
  let p := pageOf k i
  let sel := d.get Hdr.TBL_SEL.SEL p
  let idx := d.get Hdr.TBL_INDEX.INDEX p
  let l := d.readEntry k i sel idx
  let d := d.over (List.range 8) fun j d => d.setJ Hdr.TBL_DATA.DATA p j (l.getD j 0)
  (d.entryRead k sel idx).tblNext p w

/-- A WRITE of the selected entry from TBL_DATA (R455). -/
def Dev.tblWrite (d : Dev) (k : PageKind) (i w : Nat) : Dev :=
  let p := pageOf k i
  let l := (List.range 8).map fun j => d.getJ Hdr.TBL_DATA.DATA p j
  (d.writeEntry k i (d.get Hdr.TBL_SEL.SEL p) (d.get Hdr.TBL_INDEX.INDEX p) l).tblNext p w

/-- A write of the header or of the indirect window took effect. -/
def Dev.headerEffect (d : Dev) (k : PageKind) (i off w : Nat) : Dev :=
  let p := pageOf k i
  match off with
  | 0x008 => d.ctrlWritten k i w
  | 0x018 => (d.set Hdr.ERR_CODE.CODE p 0).set Hdr.ERR_OFFSET.OFFSET p 0
  | 0x02C => d.over ((List.range 32).filter fun b => bitOf w b) fun b d => d.raiseForced ⟨k, b⟩ i
  | 0x828 =>
    if Hdr.TBL_CMD.OP.of w = 1 then d.tblRead k i w else if Hdr.TBL_CMD.OP.of w = 2 then d.tblWrite k i w else d
  | _ => d

/-- `GLOBAL_FENCE` (R454): commands take effect in order here, so the fence takes effect at once. (Log 28: DEDUCED) -/
def Dev.fence (d : Dev) : Dev :=
  let left := if d.locked then d.galleyFrom (d.now + 1) - d.now else 0
  (d.set Reg.GLOBAL_FENCE.GNUM 0 d.gnum).set Reg.GLOBAL_FENCE.TO_EDGE_NS 0 (capN 20480 left)

/-- An accepted write of a register. -/
def Dev.writeEffect (d : Dev) (k : PageKind) (i off w : Nat) : Dev :=
  let e := d.storeWord k i off w
  if off < 0x40 ∨ 0x800 ≤ off then e.headerEffect k i off w
  else (((e.txEffect k i off w).rxEffect d k i off w).flowEffect d k i off w |>.timeEffect d k off w).unitEffect d k i off w

/-! ### Writes -/

/-- A write of a register of a page that exists: rejected with the first error in the order of R452, or carried out. -/
def Dev.writeReg (d : Dev) (k : PageKind) (i off w : Nat) : Dev :=
  d.checked (pageOf k i) off (d.writeErrs k i off w) fun d => d.writeEffect k i off w

/-- A write to a page by its number: a reserved page, and in FUSE_FAULT any but page 0, discards it; a page that does not answer
in BOOT_WAIT rejects it (R370, R435, R447). (Log 29: DEDUCED, 31: DESIGN CHOICE) -/
def Dev.pageWrite (d : Dev) (p off w : Nat) : Dev :=
  match decodePage p with
  | none => d
  | some (k, i) =>
    if d.flag Reg.CHIP_SEAL.FAULT 0 && p != 0 then d
    else if !d.pageServed p then d.reject p off .state
    else if p = 0 ∧ off = 0x80 then d.fence
    else d.writeReg k i off w

/-- A field of a word given a value. -/
def Fld.put (f : Fld) (v w : Nat) : Nat := w - f.of w * pow2 f.lo + trunc f.width v * pow2 f.lo

/-- The word that a write must carry to change nothing: what the settings of a register hold. (Log 30: DESIGN CHOICE) -/
def Dev.keepWord (d : Dev) (k : PageKind) (i off : Nat) : Nat :=
  wordOf ((fieldsAt k off).filter fun r => (r.acc == .RW && !r.count) || (r.acc == .WC && r.width != 1)) off fun r j =>
    Store.get regReset d.regs (r.key k i j)

/-- A command that is a write of one register, with the word it makes of the settings that stand. (Log 30: DESIGN CHOICE) -/
def Dev.command (d : Dev) (k : PageKind) (i off : Nat) (f : Nat → Nat) : Dev :=
  d.pageWrite (pageOf k i) off (f (d.keepWord k i off))

/-- The same by page number. (Log 30: DESIGN CHOICE) -/
def Dev.pageCommand (d : Dev) (p off : Nat) (f : Nat → Nat) : Dev :=
  match decodePage p with
  | none => d
  | some (k, i) => d.command k i off f

/-- A write of the MSI-X table: unmasking a vector signals it if it is pending (R466). -/
def Dev.msixWrite (d : Dev) (v dword w : Nat) : Dev :=
  let d : Dev := { d with msix := Store.set msixReset d.msix (v * 4 + dword) w }
  if dword = 3 && !bitOf w 0 && Store.get msixReset d.msix (pbaKey v) == 1 then
    ({ d with msix := Store.set msixReset d.msix (pbaKey v) 0 } : Dev).sendVector v
  else d

/-- The HDM decoder's commit (R433, R439): in CXL mode only. (Log 132: PRESUMED) -/
def Dev.decoderWrite (d : Dev) (w : Nat) : Dev :=
  { d with host := { d.host with decoder := d.flag Reg.CXL_LINK_STAT.CXL 0 && bitOf w 0 } }

/-- A host write by where it lands. A page access that is not 4-byte aligned is a bad access (R447). -/
def Dev.spaceWrite (d : Dev) (sp : Space) (w : Nat) : Dev :=
  match sp with
  | .page p off => if off % 4 = 0 then d.pageWrite p off w else d.badAccess false 4
  | .msix v dword => d.msixWrite v.val dword.val w
  | .decoder => d.decoderWrite w

/-- A write of 0xA5 to `CHIP_RST_CMD` that is accepted (R477): the reset follows 10 µs later. -/
def Dev.softReset (d : Dev) (sp : Space) (w : Nat) : Bool :=
  match sp with
  | .page p off => p == 0 && off == 0x58 && (firstErr (d.writeErrs .chip0 0 0x58 w)).isNone
  | _ => false

/-- A host write to the machine. (Log 31: DESIGN CHOICE, 139: DESIGN CHOICE) -/
def State.hostWrite (s : State) (sp : Space) (w : Nat) : State :=
  if s.dev.power.inReset then s
  else if s.dev.softReset sp w then ({ s with dev := s.dev.wait (us 10) } : State).chipReset 5 0
  else { s with dev := s.dev.spaceWrite sp w }

/-! ### Reads -/

/-- A read of a register of a page that exists: the word, and the device after it. -/
def Dev.readWord (d : Dev) (k : PageKind) (i off : Nat) : Nat × Dev :=
  let held := d.frozenPage k i
  if k == .evq && off == 0x60 && !held then
    let x := (d.queue i).pop
    (x.popped.w0, d.setQueue i x)
  else if k == .mon && off == 0x48 && !held then (d.shownWord k i off, d.dataRead)
  else if latches k off then d.rlRead k i off
  else (d.shownWord k i off, d)

/-- A read of a page by its number; what does not answer reads 0. (Log 20: DESIGN CHOICE, 29: DEDUCED) -/
def Dev.pageRead (d : Dev) (p off : Nat) : Dev :=
  match decodePage p with
  | none => { d with readData := [0] }
  | some (k, i) =>
    if !d.pageServed p then { d with readData := [0] }
    else
      let (v, e) := d.readWord k i off
      { e with readData := [v] }

end Sys2Proof.Machine
end

