-- ==== Sys2Proof/Machine/GalleyStart.lean ====
section
/-! DEFINITION. The transmit grid's boundaries: what happens at a galley start itself, and the forme boundaries (R22, R80, R265).
Switches, commits and steps that wait for a boundary are commands of their own. -/

namespace Sys2Proof.Machine

/-- The galley start recorded: GNUM, T_grid, the INCR now in force, and the index of the galley after it (R161, R264, R265). -/
def Dev.galleyRecord (d : Dev) : Dev :=
  let start := d.nextGalley
  let d := (d.until start).applyIncr
  let T := d.timeAt start
  { d with
    gnum := d.nextGnum
    galleys := d.galleys + 1
    formes := 0
    nextGalley := start + galleyNs
    tgrid := T
    grid := ((start, T, d.incr) :: d.grid).take 64 }

/-- At a galley start the ADC sample index of every line engine whose ADC bank is on is latched, i_ref(g) (R265); those of the last 64
galleys are kept. -/
def Dev.latchIndex (d : Dev) (n : Nat) : Dev :=
  if (d.le n).rx.indexAt.isSome then
    d.modRx n fun r => { r with irefs := ((d.now, d.sampleIndex n d.now) :: r.irefs).take 64 }
  else d

/-- What the start of galley `g` does on line engine `n`: the transmit marker of the sample galley, the Y gain, and the end of
a time report that was not sent (R72, R278, R311). -/
def Dev.leGalley (d : Dev) (g n : Nat) : Dev :=
  let d := (d.txMarker n g).modTx n fun t => { t with yEff := d.get Reg.LE_TX_XY.Y_GAIN n }
  if g % 256 = 0 then d.chimeDrop n tyReport else d

/-- A galley starts on the transmit grid (R265); a new MAX_NS is in force (R203). (Log 45: DESIGN CHOICE, 179: DEDUCED) -/
def Dev.galleyStart (d : Dev) : Dev :=
  if !d.locked then d
  else
    let prev := d.gnum
    let d := d.galleyRecord
    let g := d.gnum
    let d := d.modFmx fun x => { x with maxNs := d.get Reg.FMX_DSK_CTRL.MAX_NS 0 }
    let d := (d.over allLe fun n d => (d.latchIndex n).leGalley g n).cypGalley prev g
    (((d.judgeFirsts.calGalley g).snapTake g).captureBegin g).monTrigIf 2

/-- A forme boundary of the open galley (R80). -/
def Dev.formeStart (d : Dev) : Dev :=
  if d.galleys = 0 ∨ 16 ≤ d.formes then d
  else
    let start := d.galleyAt d.galleyNow + d.formes * formeNs
    { (d.until start).buildForme d.formes start with formes := d.formes + 1 }

/-- BSIG and KSIG of the next galley freeze 1 µs before its start (R212, R349). -/
def Dev.signalFreeze (d : Dev) : Dev :=
  if !d.locked then d
  else
    let d := d.until (d.nextGalley - us 1)
    (d.bsigFreeze d.nextGnum).ksigFreeze d.nextGnum

end Sys2Proof.Machine
end

