-- ==== Sys2Proof/Machine/ExecBoot.lean ====
section
/-! DEFINITION. The meanings of secure boot, identity, attestation, trust commands and core traps: one definition for each row
of the opcode table, over the shared operations of the unit. -/

namespace Sys2Proof.Machine

/-- An image slot as the flash answers it. -/
def imageOf : Option (List Byte) → Image
  | some b => ⟨true, natsOf b⟩
  | none => ⟨false, []⟩

/-- The check of the image staged in HDM from offset 0x1000000 (R370). -/
def State.hostImageChecked (s : State) : State :=
  s.liftRun fun d => d.hostImageDone fun i => (Store.get memReset s.mem (0x1000000 + i)).toNat

/-- `ANCHOR_INSTALL` (R376). CAR_TRUST_CMD ANCHOR_INSTALL installs the owner anchor record after its checks. -/
def execAnchorInstall (s : State) : Host.Outcome State Fault Refusal :=
  .next (s.lift fun d => d.command .trust 0 0x044 fun _ => Reg.CAR_TRUST_CMD.OP.put 1 0)

/-- `PAIR_INSTALL` (R376). CAR_TRUST_CMD PAIR_INSTALL installs the pairing record after its checks and sends the pairing
digest to the partner. -/
def execPairInstall (s : State) : Host.Outcome State Fault Refusal :=
  .next (s.lift fun d => d.command .trust 0 0x044 fun _ => Reg.CAR_TRUST_CMD.OP.put 2 0)

/-- `PAIR_CLEAR` (R376). CAR_TRUST_CMD PAIR_CLEAR removes the pairing record when no carrier is a member. -/
def execPairClear (s : State) : Host.Outcome State Fault Refusal :=
  .next (s.lift fun d => d.command .trust 0 0x044 fun _ => Reg.CAR_TRUST_CMD.OP.put 3 0)

/-- `ROM_BOOT` (R369). After the seal the ROM checks and loads an image slot, records measurements and enters RUN or
BOOT_WAIT. -/
def execRomBoot (slotA slotB : Option (List Byte)) (chain : List Byte) (chainOk : Bool) (s : State) :
    Host.Outcome State Fault Refusal :=
  .next (s.liftRun fun d => d.romBoot (imageOf slotA) (imageOf slotB) (natsOf chain) chainOk)

/-- `IDENTITY_DERIVED` (R372). Identity key derivation completes and is checked against IDENT, setting READY or FAULT. -/
def execIdentityDerived (s : State) : Host.Outcome State Fault Refusal :=
  .next (s.liftRun fun d => d.identityDerived)

/-- `IDENTITY_TIMEOUT` (R372). Derivation exceeds 3 s, FAULT is set and CAR:ID_FAULT is raised. -/
def execIdentityTimeout (s : State) : Host.Outcome State Fault Refusal :=
  .next (s.liftRun fun d => d.identityTimeout)

/-- `LOAD` (R370). MCU_BOOT_CMD LOAD in BOOT_WAIT starts the check of the staged host image, or is rejected. -/
def execLoad (lenKib : Fin 8192) (s : State) : Host.Outcome State Fault Refusal :=
  .next (s.lift fun d => d.command .mcu 0 0x050 fun _ => Reg.MCU_BOOT_CMD.OP.put 1 lenKib.val)

/-- `HOST_IMAGE_CHECK_DONE` (R370). The check of a host-loaded image ends, and it boots or FAIL_HOST is written. -/
def execHostImageCheckDone (s : State) : Host.Outcome State Fault Refusal :=
  .next (s.hostImageChecked)

/-- `GET_VERSION` (R378). An SPDM GET_VERSION request is answered with version 1.2. -/
def execGetVersion (dwords : Nat) (s : State) : Host.Outcome State Fault Refusal :=
  .next (s.lift fun d => d.spdmVersion dwords)

/-- `GET_CAPABILITIES` (R378). An SPDM GET_CAPABILITIES request is answered, or Busy before RUN and READY. -/
def execGetCapabilities (dwords : Nat) (s : State) : Host.Outcome State Fault Refusal :=
  .next (s.lift fun d => d.spdmCapabilities dwords)

/-- `NEGOTIATE_ALGORITHMS` (R378). An SPDM NEGOTIATE_ALGORITHMS request is answered with the supported algorithms. -/
def execNegotiateAlgorithms (dwords : Nat) (s : State) : Host.Outcome State Fault Refusal :=
  .next (s.lift fun d => d.spdmAlgorithms dwords)

/-- `GET_DIGESTS` (R374). An SPDM GET_DIGESTS request reports slot 0, or reports it empty. -/
def execGetDigests (dwords : Nat) (s : State) : Host.Outcome State Fault Refusal :=
  .next (s.lift fun d => d.spdmDigests dwords)

/-- `GET_CERTIFICATE` (R374). An SPDM GET_CERTIFICATE request returns a portion of the identity chain. -/
def execGetCertificate (dwords slot offset len : Nat) (s : State) : Host.Outcome State Fault Refusal :=
  .next (s.lift fun d => d.spdmCertificate dwords slot offset len)

/-- `CHALLENGE` (R378). An SPDM CHALLENGE request is answered with a signature by the identity key. -/
def execChallenge (dwords slot summary : Nat) (s : State) : Host.Outcome State Fault Refusal :=
  .next (s.lift fun d => d.withTrust d.idReady fun d => d.spdmChallenge dwords slot summary)

/-- `GET_MEASUREMENTS` (R379). An SPDM GET_MEASUREMENTS request is answered with the measurement blocks built by the trust
unit. -/
def execGetMeasurements (dwords operation : Nat) (signed : Bool) (s : State) : Host.Outcome State Fault Refusal :=
  .next (s.lift fun d => d.withTrust d.idReady fun d => d.spdmMeasurements dwords operation signed)

/-- `SPDM_UNSUPPORTED_REQUEST` (R378). An SPDM request outside the supported list is answered with ERROR UnsupportedRequest.
-/
def execSpdmUnsupportedRequest (dwords : Nat) (s : State) : Host.Outcome State Fault Refusal :=
  .next (s.lift fun d => d.spdmUnsupported dwords)

/-- `FETCH_TRAP` (R418). An uncorrectable error on a core's fetch or load traps and halts the core. -/
def execFetchTrap (core : Fin 4) (region : Fin 16) (off : Nat) (s : State) : Host.Outcome State Fault Refusal :=
  .next (s.liftRun fun d => d.fetchTrap core.val region.val off)

/-- `CORE_RESTART` (R418). Firmware rewrites and checks the trapped core's memory and releases it, or holds it until reset. -/
def execCoreRestart (core : Fin 4) (ok : Bool) (s : State) : Host.Outcome State Fault Refusal :=
  .next (s.liftRun fun d => d.coreRestart core.val ok)

/-- `TRUST_CMD_DONE` (R376). A running trust command ends: BUSY clears, RESULT and DETAIL are written, the record is installed
or not, and CAR:TRUST_DONE is raised. -/
def execTrustCmdDone (s : State) : Host.Outcome State Fault Refusal :=
  .next (s.liftRun fun d => d.withTrust (d.flag Reg.CAR_TRUST_STAT.BUSY 0) Dev.trustDone)

end Sys2Proof.Machine
end

