-- ==== Sys2Proof/Machine/ExecBundling.lean ====
section
/-! DEFINITION. The meanings of deskew, PLACE, announcements and map switches: one definition for each row of the opcode
table, over the shared operations of the unit. -/

namespace Sys2Proof.Machine

/-- `DESKEW_RELEASE` (R202). Formes with one GNUM and FNUM are released to cell reassembly once they have arrived from every
carrier, and cells are delivered. -/
def execDeskewRelease (gnum fnum : Nat) (s : State) : Host.Outcome State Fault Refusal :=
  .next (s.liftRun fun d => d.deskewRelease gnum fnum)

/-- `DESKEW_TIMEOUT` (R202). MAX_NS passes without a carrier's forme; its sorts are absent and raw DESKEW is asserted. -/
def execDeskewTimeout (gnum fnum : Nat) (s : State) : Host.Outcome State Fault Refusal :=
  .next (s.liftRun fun d => d.deskewTimeout gnum fnum)

/-- `PLACE_COMPUTE` (R206). A change of the members, EXCL or the home runs PLACE, which completes within 20 us. -/
def execPlaceCompute (s : State) : Host.Outcome State Fault Refusal :=
  .next (s.liftRun fun d => d.placeCompute)

/-- `PLACE_TRY` (R221). A write of FMX_PLACE_TRY runs PLACE against a trial mask and reports the flows moved and shed. -/
def execPlaceTry (mask : Fin 256) (s : State) : Host.Outcome State Fault Refusal :=
  .next (s.lift fun d => d.command .fmxB 0 0x068 fun _ => mask.val)

/-- `BSIG_FREEZE` (R212). The BSIG and KSIG of the next galley freeze 1 us before its start and carry the pending
announcements, switches and checkpoints. -/
def execBsigFreeze (s : State) : Host.Outcome State Fault Refusal :=
  .next (s.liftRun fun d => d.signalFreeze)

/-- `TX_MAP_SWITCH` (R212). At galley A + 2 FMX deals under the new map, and FMX:REMAP and FMX:SHED are raised. -/
def execTxMapSwitch (s : State) : Host.Outcome State Fault Refusal :=
  .next (s.liftRun fun d => d.txMapSwitch)

/-- `BSIG_RECEIVE` (R213). A received galley's BSIG is taken, and announcements, MAP_ID checks, JOIN and READY are processed.
-/
def execBsigReceive (gnum : Nat) (s : State) : Host.Outcome State Fault Refusal :=
  .next (s.liftRun fun d => d.bsigReceive gnum)

/-- `RX_MAP_SWITCH` (R213). A receiver applies the announced map to the received galley of the switch. -/
def execRxMapSwitch (gnum : Nat) (s : State) : Host.Outcome State Fault Refusal :=
  .next (s.liftRun fun d => d.rxMapSwitch gnum)

/-- `COMMIT` (R215). A write of 1 to FMX_MAP_CTRL.COMMIT requests a planned switch, locks the shadow and sets READY, or is
rejected. -/
def execCommit (s : State) : Host.Outcome State Fault Refusal :=
  .next (s.lift fun d => d.command .fmxB 0 0x064 (Reg.FMX_MAP_CTRL.COMMIT.put 1))

/-- `CANCEL` (R215). A write of 1 to FMX_MAP_CTRL.CANCEL cancels a pending planned switch, or is rejected. -/
def execCancel (s : State) : Host.Outcome State Fault Refusal :=
  .next (s.lift fun d => d.command .fmxB 0 0x064 (Reg.FMX_MAP_CTRL.CANCEL.put 1))

/-- `MAP_SWITCH_TIMEOUT` (R215). No READY arrives from the partner within 10 s, and the planned switch ends with RESULT 3. -/
def execMapSwitchTimeout (s : State) : Host.Outcome State Fault Refusal :=
  .next (s.liftRun fun d => d.plannedTimeout)

/-- `RETURN` (R216). A write of FMX_BND_CTRL.RETURN clears EXCL bits and starts an announcement with reason RETURN, or is
rejected. -/
def execReturnBundle (mask : Fin 256) (s : State) : Host.Outcome State Fault Refusal :=
  .next (s.lift fun d => d.command .fmxB 0 0x044 (Reg.FMX_BND_CTRL.RETURN.put mask.val))

/-- `DEPARTURE_COMPLETE` (R217). A planned departure completes: JOIN is withdrawn, DEPART_WAIT clears and the held request
proceeds. -/
def execDepartureComplete (le : Fin 8) (s : State) : Host.Outcome State Fault Refusal :=
  .next (s.liftRun fun d => (d.departComplete le.val).calStep)

/-- `DEPART_FORCED` (R217). The receive condition is still unmet 100 ms after the transmit switch; the departure completes and
FMX:DEPART_FORCED is raised. -/
def execDepartForced (le : Fin 8) (s : State) : Host.Outcome State Fault Refusal :=
  .next (s.liftRun fun d => (d.departForced le.val).calStep)

end Sys2Proof.Machine
end

