-- ==== Sys2Proof/Machine/ExecCalibrate.lean ====
section
/-! DEFINITION. The meanings of the calibration controller: one definition for each row of the opcode table, over the shared
operations of the unit. -/

namespace Sys2Proof.Machine

/-- `CAL_RUN_ADC` (R392). CAL_CMD RUN with KIND ADC starts an ADC calibration of one line engine through its phases. -/
def execCalRunAdc (le : Fin 8) (s : State) : Host.Outcome State Fault Refusal :=
  .next (s.lift fun d => d.command .cal 0 0x040 fun _ => Reg.CAL_CMD.OP.put 1 (Reg.CAL_CMD.KIND.put 1 le.val))

/-- `CAL_RUN_DAC` (R393). CAL_CMD RUN with KIND DAC starts a DAC calibration of one line engine through its phases. -/
def execCalRunDac (le : Fin 8) (s : State) : Host.Outcome State Fault Refusal :=
  .next (s.lift fun d => d.command .cal 0 0x040 fun _ => Reg.CAL_CMD.OP.put 1 (Reg.CAL_CMD.KIND.put 2 le.val))

/-- `CAL_RUN_TXPATH` (R394). CAL_CMD RUN with KIND TXPATH starts a transmit time-path calibration. -/
def execCalRunTxpath (le : Fin 8) (s : State) : Host.Outcome State Fault Refusal :=
  .next (s.lift fun d => d.command .cal 0 0x040 fun _ => Reg.CAL_CMD.OP.put 1 (Reg.CAL_CMD.KIND.put 3 le.val))

/-- `CAL_RUN_RXPATH` (R395). CAL_CMD RUN with KIND RXPATH starts a receive time-path calibration. -/
def execCalRunRxpath (le : Fin 8) (s : State) : Host.Outcome State Fault Refusal :=
  .next (s.lift fun d => d.command .cal 0 0x040 fun _ => Reg.CAL_CMD.OP.put 1 (Reg.CAL_CMD.KIND.put 4 le.val))

/-- `CAL_RUN_MON` (R409). CAL_CMD RUN with KIND MON calibrates the monitor converter at the end of the conversion in progress.
-/
def execCalRunMon (s : State) : Host.Outcome State Fault Refusal :=
  .next (s.lift fun d => d.command .cal 0 0x040 fun _ => Reg.CAL_CMD.OP.put 1 (Reg.CAL_CMD.KIND.put 5 0))

/-- `RESTORE` (R399). CAL_CMD RESTORE checks the staged coefficient set and applies it, or refuses it. -/
def execRestore (s : State) : Host.Outcome State Fault Refusal :=
  .next (s.lift fun d => d.command .cal 0 0x040 fun _ => Reg.CAL_CMD.OP.put 2 0)

/-- `ABORT` (R390). CAL_CMD ABORT ends the running command within 1 ms with DETAIL 9. -/
def execAbort (s : State) : Host.Outcome State Fault Refusal :=
  .next (s.lift fun d => d.command .cal 0 0x040 fun _ => Reg.CAL_CMD.OP.put 3 0)

/-- `HOLD` (R387). Every hold of a calibration is in place, and SETTLE begins. -/
def execHold (s : State) : Host.Outcome State Fault Refusal :=
  .next (s.liftRun fun d => d.calHold)

/-- `SETTLE` (R387). The bank that the kind uses has been on for 100 ms, and MEASURE begins. -/
def execSettle (s : State) : Host.Outcome State Fault Refusal :=
  .next (s.liftRun fun d => d.calSettle)

/-- `MEASURE` (R387). A calibration measurement finishes with results or fails with DETAIL 7 or 8. -/
def execMeasure (result : CalResult) (s : State) : Host.Outcome State Fault Refusal :=
  .next (s.liftRun fun d => d.calMeasured result)

/-- `APPLY` (R387). At the galley boundary the calibration results are written, the holds are released and CAL:DONE is raised.
-/
def execApply (s : State) : Host.Outcome State Fault Refusal :=
  .next (s.liftRun fun d => d.calApply)

/-- `CAL_DRIFT` (R400). Once per second each line engine's temperature is compared with its sets, and CAL:DRIFT is raised on a
change. -/
def execCalDrift (temps : List Int) (s : State) : Host.Outcome State Fault Refusal :=
  .next (s.liftRun fun d => d.calDrift temps)

end Sys2Proof.Machine
end

