-- ==== Sys2Proof/Machine/ExecChimes.lean ====
section
/-! DEFINITION. The meanings of the chime channel and its messages: one definition for each row of the opcode table, over the
shared operations of the unit. -/

namespace Sys2Proof.Machine

/-- `CHIME_PREAMBLE` (R306). A chime preamble above 10 dB starts a reception, or captures the receiver from a weaker one. -/
def execChimePreamble (le : Fin 8) (metric : Nat) (bytes : List Byte) (s : State) : Host.Outcome State Fault Refusal :=
  .next (s.liftRun fun d => d.chimePreamble le.val metric (natsOf bytes))

/-- `CHIME_LOCK_TIMEOUT` (R307). 300 ms pass without a valid packet, CHIME clears and LE:CHIME_LOCK code 0 is raised. -/
def execChimeLockTimeout (le : Fin 8) (s : State) : Host.Outcome State Fault Refusal :=
  .next (s.liftRun fun d => d.chimeTimeout le.val)

/-- `CHIME_SEND` (R311). The chime becomes free and the pending packet of highest priority begins. -/
def execChimeSend (le : Fin 8) (s : State) : Host.Outcome State Fault Refusal :=
  .next (s.liftRun fun d => d.chimeSend le.val)

/-- `HELLO_SEND` (R313). The 100 ms hello period expires, or an entry to ON, RAMP_DOWN or BEACON occurs, and a HELLO becomes
pending. -/
def execHelloSend (le : Fin 8) (s : State) : Host.Outcome State Fault Refusal :=
  .next (s.liftRun fun d => d.helloDue le.val)

/-- `HELLO` (R314). A valid HELLO is received and used for identity, mode, cipher, partner beacon, seed and restart. -/
def execHello (le : Fin 8) (bytes : List Byte) (s : State) : Host.Outcome State Fault Refusal :=
  .next (s.liftRun fun d => d.hello le.val (natsOf bytes))

/-- `TIME_REPORT_SEND` (R279). At each own sample galley a TIME_REPORT becomes pending on every carrier. -/
def execTimeReportSend (s : State) : Host.Outcome State Fault Refusal :=
  .next (s.liftRun fun d => d.timeReports)

/-- `TIME_REPORT` (R280). A received TIME_REPORT extends the m_rx and m_tx series and updates the partner's SRC, epoch, D_est
and asymmetry. -/
def execTimeReport (le : Fin 8) (bytes : List Byte) (s : State) : Host.Outcome State Fault Refusal :=
  .next (s.liftRun fun d => d.timeReport le.val (natsOf bytes))

/-- `STEP_NOTICE_SEND` (R315). A STEP_NOTICE is sent on request and every 10 ms until the step galley. -/
def execStepNoticeSend (s : State) : Host.Outcome State Fault Refusal :=
  .next (s.liftRun fun d => d.noticeSend)

/-- `STEP_NOTICE` (R282). A received STEP_NOTICE adjusts theta and the series for the partner's step, or restarts the
exchange. -/
def execStepNotice (le : Fin 8) (bytes : List Byte) (s : State) : Host.Outcome State Fault Refusal :=
  .next (s.liftRun fun d => d.stepNotice le.val (natsOf bytes))

/-- `BL_PROPOSE` (R316). A received BL_PROPOSE is checked, answered and, if accepted, armed in the receive shadow bank; a
CANCEL disarms it. -/
def execBlPropose (le : Fin 8) (bytes : List Byte) (s : State) : Host.Outcome State Fault Refusal :=
  .next (s.liftRun fun d => d.blPropose le.val (natsOf bytes))

/-- `BL_PROPOSE_REPEAT` (R316). Every 100 ms the proposer resends BL_PROPOSE until it is answered, or sends CANCEL until
SWITCH_GNUM. -/
def execBlProposeRepeat (le : Fin 8) (s : State) : Host.Outcome State Fault Refusal :=
  .next (s.liftRun fun d => d.proposeRepeat le.val)

/-- `BL_ANSWER` (R316). A received BL_ANSWER accepts or refuses the proposal, setting RESULT. -/
def execBlAnswer (le : Fin 8) (bytes : List Byte) (s : State) : Host.Outcome State Fault Refusal :=
  .next (s.liftRun fun d => d.blAnswer le.val (natsOf bytes))

/-- `BL_PROPOSE_TIMEOUT` (R65). No answer within 1 s leaves RESULT 3 and raises LE:BL_REFUSED. -/
def execBlProposeTimeout (le : Fin 8) (s : State) : Host.Outcome State Fault Refusal :=
  .next (s.liftRun fun d => d.proposeTimeout le.val)

/-- `SNR_REPORT_SEND` (R310). Once per second in LOCKED an SNR_REPORT becomes pending. -/
def execSnrReportSend (le : Fin 8) (s : State) : Host.Outcome State Fault Refusal :=
  .next (s.liftRun fun d => d.snrSend le.val)

/-- `SNR_REPORT` (R317). A received SNR_REPORT is stored in the chime page's table 0x01. -/
def execSnrReport (le : Fin 8) (bytes : List Byte) (s : State) : Host.Outcome State Fault Refusal :=
  .next (s.liftRun fun d => d.snrReport le.val (natsOf bytes))

/-- `TRANSFER` (R318). A received TRANSFER fragment is receipted and delivered once, and a complete record is passed to its
owner. -/
def execTransfer (le : Fin 8) (bytes : List Byte) (s : State) : Host.Outcome State Fault Refusal :=
  .next (s.liftRun fun d => d.transferIn le.val (natsOf bytes))

/-- `RECEIPT` (R318). A received RECEIPT advances the outgoing transfer or ends it with the owner's verdict. -/
def execReceipt (le : Fin 8) (bytes : List Byte) (s : State) : Host.Outcome State Fault Refusal :=
  .next (s.liftRun fun d => d.receiptIn le.val (natsOf bytes))

/-- `TRANSFER_RETRY` (R318). A fragment is not receipted within 100 ms; it is sent again, or the transfer fails after five
sendings or 1 s without eligibility. -/
def execTransferRetry (s : State) : Host.Outcome State Fault Refusal :=
  .next (s.liftRun fun d => d.transferRetry)

/-- `TRANSFER_PARTIAL_EXPIRY` (R318). 2 s pass without a new fragment of an XID, and the partial record is discarded. -/
def execTransferPartialExpiry (xid : Nat) (s : State) : Host.Outcome State Fault Refusal :=
  .next (s.liftRun fun d => d.partialExpired xid)

/-- `PARTNER_ABSENT` (R319). The absence timer reaches ABSENT_S; ABSENT is set, TYM:PARTNER_ABSENT is raised and BEACON may be
requested. -/
def execPartnerAbsent (le : Fin 8) (s : State) : Host.Outcome State Fault Refusal :=
  .next (s.liftRun fun d => d.partnerAbsent le.val)

end Sys2Proof.Machine
end

