-- ==== Sys2Proof/Machine/Decoder.lean ====
section
/-! DEFINITION. A received forme from the demapper to the framer: soft metrics, the decoder of the mode, and the PRBS checker of
mode 2 (R18, R26, R124, R138, R143, R145, R146). -/

namespace Sys2Proof.Machine

/-- The SNR by which the demapper scales: in LOCKED that of R123, else the pilot-based estimate (R146). (Log 154: DESIGN CHOICE) -/
def Dev.demapSnr (d : Dev) (n : Nat) (m : Received) : List Nat :=
  if d.rxState n = 9 && !(d.le n).rx.snr.isEmpty then (List.range 32).map (d.snrEntry n) else m.snr

/-- The ratios of a received forme, subcarrier by subcarrier. -/
def Dev.demap (d : Dev) (n : Nat) (m : Received) : List (List Int) :=
  dealtRatios (d.get Reg.LE_RX_CFG.SYM_RATE n) (d.rxBank n) m.syms (d.demapSnr n m)

/-- An LDPC forme decoded (R136 to R138): pads are dropped, and at most ITER_NOW iterations are run. -/
def Dev.ldpcReceive (d : Dev) (n first : Nat) (ratios : Array Int) : Decoded :=
  let C := d.unitsOf n
  let F := 8 * d.formeLen n
  let cws := (List.range C).map (ldpcDecode (d.get Reg.LE_FEC_CFG.CODE n) C F (d.get Reg.LE_FEC_STAT.ITER_NOW n) ratios)
  ⟨bytesOfBits ((cws.flatMap fun e => e.2.1).take F), cws.map (·.1), (cws.map fun e => e.2.2).sum, 0, first, d.rxBank n, true⟩

/-- A block enters the window: with ten in it the oldest leaves, uncorrected where a component word that covers it still fails; then
the window is passed over four times (R143). (Log 155: DESIGN CHOICE) -/
def StairDec.enter (x : StairDec) (rows : List Nat) (joined : Bool) : StairDec :=
  let x :=
    if x.window.length < 10 then x
    else
      match x.window with
      | (a, follows) :: rest =>
        let next := match rest with | (b, true) :: _ => stairFails a b | _ => false
        let bad := (follows && stairFails x.left a) || next
        let place := x.formes.findIdx fun f => decide (f.done.length < 8)
        { x with left := a, window := rest, formes := x.formes.modify place fun f => { f with done := f.done ++ [(a, bad)] } }
      | [] => x
  let pass (l : List (List Nat × Bool)) : List (List Nat × Bool) := match l with | a :: rest => stairPass a rest | [] => []
  { x with window := pass (pass (pass (pass (x.window ++ [(rows, joined)])))) }

/-- A forme whose blocks have all left: its framed bytes, its uncorrected blocks and its corrected positions (R143, R147). -/
def StairForme.decoded (f : StairForme) : Decoded :=
  let blocks := f.done.map (·.1)
  let final := trellisForme (stairOut blocks)
  ⟨bytesOfBits ((blocks.flatMap stairInfo).take 2080768), f.done.map fun e => b1 e.2, bitErrors stairCounted final f.hard, f.inner,
    f.first, f.bank, f.joined⟩

/-- Does a forme follow on the one before it, by its first sample: one forme of 327,680 samples on, to half a forme?
(Log 155: DESIGN CHOICE) -/
def StairDec.follows (x : StairDec) (first : Nat) : Bool :=
  match x.next with
  | some e => decide (first < e + 163840 ∧ e < first + 163840)
  | none => false

/-- A forme of the concatenated code comes to the decoder: the trellis, then its eight blocks one by one into the window (R143).
(Log 155: DESIGN CHOICE) -/
def StairDec.receive (x : StairDec) (first : Nat) (bank : List Nat) (ratios : Array Int) : StairDec :=
  let heard := stairHeard ratios (viterbi (stepRatios ratios))
  let hard := ratios.toList.map hardBit
  let inner := bitErrors (fun p => decide (p < 139392 * 17) && decide (p % 17 < 2)) (trellisForme heard) hard
  let joined := x.follows first
  let x := { x with seen := x.seen + 1, next := some (first + 327680), formes := x.formes ++ [⟨first, bank, joined, hard, inner, []⟩] }
  let blocks := stairBlocks heard
  (List.range 8).foldl (fun x k => x.enter (blocks.getD k []) (joined || k != 0)) x

/-- A forme whose blocks have all left is delivered, but for the first two since the decoder started (R145).
(Log 53: DEDUCED, 155: DESIGN CHOICE) -/
def Dev.stairDeliver (d : Dev) (n : Nat) : Dev :=
  let x := (d.le n).fec.dec
  match x.formes with
  | f :: rest =>
    if f.done.length < 8 then d
    else
      let d := d.modFec n fun y => { y with dec := { x with formes := rest } }
      if x.seen - x.formes.length < 2 || d.rxState n = 7 then d else d.formeDecoded n f.decoded
  | [] => d

/-- In PRBS mode 2 the checker sees the hard decisions in dealing order, pads left out (R124). -/
def Dev.prbsForme (d : Dev) (n : Nat) (parts : List (List Int)) : Dev :=
  let bank := d.rxBank n
  let code := d.get Reg.LE_RX_CFG.SYM_RATE n
  d.over (List.range 16) fun i d =>
    d.rxPrbs n i (((parts.getD i []).take (d.reqBits n - segmentStart code bank i)).map hardBit)

/-- A forme comes from the recovery loops, in PHASE, FRAME or LOCKED. One that overlaps discarded samples is lost (R26). In PHASE
the decoder works, but nothing is delivered. (Log 53: DEDUCED) -/
def Dev.formeReceived (d : Dev) (n : Nat) (m : Received) : Dev :=
  let st := d.rxState n
  let first := d.sampleCount n m.first
  if st < 7 || 9 < st || d.gapWithin n first (first + 327680) then d
  else if d.get Reg.LE_RX_PRBS.MODE n = 2 then (if st = 7 then d else d.prbsForme n (d.demap n m))
  else
    let ratios := ((d.demap n m).flatten.take (d.reqBits n)).toArray
    if d.trellis n then (d.modFec n fun y => { y with dec := y.dec.receive first (d.rxBank n) ratios }).stairDeliver n
    else if st = 7 then d
    else d.formeDecoded n (d.ldpcReceive n first ratios)

end Sys2Proof.Machine
end

