-- ==== Sys2Proof/Machine/ExecFraming.lean ====
section
/-! DEFINITION. The meanings of framing, defects and performance monitoring: one definition for each row of the opcode table,
over the shared operations of the unit. -/

namespace Sys2Proof.Machine

/-- `FORME_RECEIVED` (R171). A decoded forme reaches the framer: the hunt, alignment checks and overhead reading are done, and
the payload is passed or discarded. -/
def execFormeReceived (le : Fin 8) (forme : Received) (s : State) : Host.Outcome State Fault Refusal :=
  .next (s.liftRun fun d => d.formeReceived le.val forme)

/-- `DEFECT_INTEGRATION_UNIT` (R173). An integration unit ends, defects are declared or cleared, and their BDI, CFAIL and
event actions follow. -/
def execDefectIntegrationUnit (carrier : Option (Fin 8)) (unit : Fin 3) (s : State) : Host.Outcome State Fault Refusal :=
  .next (s.liftRun fun d => match carrier with
    | some n => d.defUnitEnd n.val unit.val
    | none => d.flowUnitEnd unit.val)

/-- `PM_SECOND_END` (R182). A device second ends, and each carrier's and flow's second is classified. -/
def execPmSecondEnd (s : State) : Host.Outcome State Fault Refusal :=
  .next (s.liftRun fun d => d.pmSecondEnd)

/-- `PM_SECOND_COMMIT` (R183). Ten seconds after it ends, a second is committed to its bins, and unavailable time may begin or
end. -/
def execPmSecondCommit (s : State) : Host.Outcome State Fault Refusal :=
  .next (s.liftRun fun d => d.pmSecondCommit)

/-- `PM_CLR` (R187). A write of 1 to FRM_PM_CTRL.CLR clears the current bins at the next second boundary. -/
def execPmClr (s : State) : Host.Outcome State Fault Refusal :=
  .next (s.lift fun d => d.command .frmc 0 0x040 (Reg.FRM_PM_CTRL.CLR.put 1))

end Sys2Proof.Machine
end

