-- ==== Sys2Proof/Machine/ExecHost.lean ====
section
/-! DEFINITION. The meanings of register accesses, tables, events, the host link, HDM, snapshots, captures and DMA: one
definition for each row of the opcode table, over the shared operations of the unit. -/

namespace Sys2Proof.Machine

/-- A committed shadow takes effect (R456). -/
def Dev.commitApply (d : Dev) (c : Commit) : Dev :=
  match c with
  | .txBank n => d.blApply n.val false
  | .rxBank n => d.blApply n.val true
  | .mask n => d.maskApply n.val
  | .iterMax n => d.iterApply n.val

/-- Is an address of BAR0, 1,024 pages of 4 KiB (ch. 14)? -/
def Space.exists_ : Space → Bool
  | .page p off => decide (p < 0x400) && decide (off < 0x1000)
  | _ => true

/-- `REGISTER_WRITE` (R452). A write to a register field that has no row of its own is checked, and is then accepted or
rejected with an error code recorded in the page header. (Log 21: DEDUCED) -/
def execRegisterWrite (sp : Space) (value : Word) (s : State) : Host.Outcome State Fault Refusal :=
  if Space.exists_ sp then .next (s.hostWrite sp value.toNat) else .fault .noSuchAddress

/-- `RL_READ` (R10). A read of an RL register latches a snapshot together with its group, and resets any since-last-read
values. (Log 21: DEDUCED) -/
def execRlRead (page off : Nat) (s : State) : Host.Outcome State Fault Refusal :=
  if Space.exists_ (.page page off) then
    .next (s.lift fun d => if off % 4 = 0 then d.pageRead page off else d.badAccess true 4)
  else .fault .noSuchAddress

/-- `TBL_CMD_READ` (R455). A READ table command loads TBL_DATA0-7 with the selected entry of the page's indirect window. -/
def execTblCmdRead (page : Nat) (autoInc : Bool) (s : State) : Host.Outcome State Fault Refusal :=
  .next (s.lift fun d => d.pageCommand page 0x828 fun _ => Hdr.TBL_CMD.AUTO_INC.put (b1 autoInc) 1)

/-- `TBL_CMD_WRITE` (R455). A WRITE table command checks the selected entry and writes it from TBL_DATA0-7. -/
def execTblCmdWrite (page : Nat) (autoInc : Bool) (s : State) : Host.Outcome State Fault Refusal :=
  .next (s.lift fun d => d.pageCommand page 0x828 fun _ => Hdr.TBL_CMD.AUTO_INC.put (b1 autoInc) 2)

/-- `WC_COMMIT_APPLY` (R456). A committed WC shadow is applied at the first boundary of its kind that begins at least 1 us
after the commit. -/
def execWcCommitApply (commit : Commit) (s : State) : Host.Outcome State Fault Refusal :=
  .next (s.liftRun fun d => d.commitApply commit)

/-- `BLK_RESET` (R450). A write of 1 to CTRL.BLK_RESET returns a page's fields, tables and counters to reset values, or is
rejected. -/
def execBlkReset (page : Nat) (s : State) : Host.Outcome State Fault Refusal :=
  .next (s.lift fun d => d.pageCommand page 0x008 (Hdr.CTRL.BLK_RESET.put 1))

/-- `FREEZE` (R450). A write to CTRL.FREEZE latches, or releases, a frozen view of every field that the block changes. -/
def execFreeze (page : Nat) (on : Bool) (s : State) : Host.Outcome State Fault Refusal :=
  .next (s.lift fun d => d.pageCommand page 0x008 (Hdr.CTRL.FREEZE.put (b1 on)))

/-- `FENCE_READ` (R453). A read of a page's FENCE is served only after every earlier write to that page has taken effect.
(Log 28: DEDUCED) -/
def execFenceRead (page : Nat) (s : State) : Host.Outcome State Fault Refusal :=
  .next (s.lift fun d => d.pageRead page 0x01C)

/-- `GLOBAL_FENCE_WRITE` (R454). A write to GLOBAL_FENCE takes effect after every earlier register write and table command,
and records GNUM and the time to the galley edge. (Log 28: DEDUCED) -/
def execGlobalFenceWrite (value : Word) (s : State) : Host.Outcome State Fault Refusal :=
  .next (s.lift fun d => d.pageWrite 0 0x080 value.toNat)

/-- `GLOBAL_FENCE_READ` (R454). A read of GLOBAL_FENCE is served only after the last fence has taken effect. -/
def execGlobalFenceRead (s : State) : Host.Outcome State Fault Refusal :=
  .next (s.lift fun d => d.pageRead 0 0x080)

/-- `EV_FORCE` (R457). A write of 1 to an EV_FORCE bit raises that event once as a test, with instance 0xFF and code 0xFFFF.
-/
def execEvForce (page : Nat) (bits : Word) (s : State) : Host.Outcome State Fault Refusal :=
  .next (s.lift fun d => d.pageWrite page 0x02C bits.toNat)

/-- `EVQ_POP` (R461). A read of EVQ_POP0 pops one entry or slug and latches it across EVQ_POP0-3. -/
def execEvqPop (queue : Fin 4) (s : State) : Host.Outcome State Fault Refusal :=
  .next (s.lift fun d => d.pageRead (pageOf .evq queue.val) 0x060)

/-- `EVQ_RP` (R461). A write of EVQ_RP performs a bulk pop to the written position, or is rejected with E_RANGE. -/
def execEvqRp (queue : Fin 4) (position : Word) (s : State) : Host.Outcome State Fault Refusal :=
  .next (s.lift fun d => d.pageWrite (pageOf .evq queue.val) 0x04C position.toNat)

/-- `EVQ_INTEGRITY` (R464). A mismatch between the two pointer copies resets the queue, sets CHIP_STICKY and signals vector
21. -/
def execEvqIntegrity (queue : Fin 4) (s : State) : Host.Outcome State Fault Refusal :=
  .next (s.lift fun d => d.queueIntegrity queue.val)

/-- `MSIX_HOLDOFF_EXPIRY` (R467). The expiry of a queue vector's holdoff signals the vector once for every condition that
arose during the holdoff. -/
def execMsixHoldoffExpiry (queue : Fin 4) (s : State) : Host.Outcome State Fault Refusal :=
  .next (s.lift fun d => d.holdoffEnd queue.val)

/-- `BAD_ACCESS` (R447). A BAR0 access of the wrong size or alignment returns all ones or is discarded, and is counted. -/
def execBadAccess (read : Bool) (len : Nat) (s : State) : Host.Outcome State Fault Refusal :=
  .next (s.lift fun d => d.badAccess read len)

/-- `CXL_LINK_UP` (R434). The link reaches link-up in CXL mode or PCIe mode, and CXL:LINK is raised. -/
def execCxlLinkUp (cxl : Bool) (width rate : Nat) (s : State) : Host.Outcome State Fault Refusal :=
  .next (s.lift fun d => d.linkUp cxl width rate)

/-- `CXL_LINK_DOWN` (R434). The link goes down, DMA halts at its next host access, and CXL:LINK is raised. -/
def execCxlLinkDown (s : State) : Host.Outcome State Fault Refusal :=
  .next (s.lift fun d => d.linkDown)

/-- `CXL_MEM_WRITE` (R420). A CXL.mem write to HDM writes its enabled bytes and clears their poison, or is discarded in a
read-only area. (Log 21: DEDUCED) -/
def execCxlMemWrite (addr : Nat) (enables : BitVec 64) (bytes : List Byte) (s : State) : Host.Outcome State Fault Refusal :=
  if s.dev.memClaims addr then .next (s.lineWrite addr enables.toNat bytes) else .fault .noSuchAddress

/-- `HDM_ZERO_DONE` (R439). Zeroing of the HDM store completes, and Memory_Info_Valid and Memory_Active are set. -/
def execHdmZeroDone (s : State) : Host.Outcome State Fault Refusal :=
  .next (s.zeroDone)

/-- `DOE_DISCOVERY` (R440). A DOE discovery object is answered. -/
def execDoeDiscovery (dwords index : Nat) (s : State) : Host.Outcome State Fault Refusal :=
  .next (s.lift fun d => d.doeDiscovery dwords index)

/-- `CDAT` (R441). A DOE table access object returns the CDAT structures. -/
def execCdat (dwords entry : Nat) (s : State) : Host.Outcome State Fault Refusal :=
  .next (s.lift fun d => d.cdat dwords entry)

/-- `DOE_ABORT` (R440). A DOE Abort discards the object in progress within 1 ms. -/
def execDoeAbort (s : State) : Host.Outcome State Fault Refusal :=
  .next (s.lift fun d => d.doeAbort)

/-- `SNAP_NOW` (R443). A write of 1 to CXL_SNAP_CTRL.NOW requests a snapshot at the next galley boundary. -/
def execSnapNow (s : State) : Host.Outcome State Fault Refusal :=
  .next (s.lift fun d => d.command .hdm 0 0x040 (Reg.CXL_SNAP_CTRL.NOW.put 1))

/-- `SNAP_DONE` (R445). A snapshot finishes writing its slot, SEQ becomes even and CXL:SNAP_DONE is raised. -/
def execSnapDone (s : State) : Host.Outcome State Fault Refusal :=
  .next (s.liftRun fun d => d.snapDone)

/-- `CAPTURE_GO` (R446). A write of 1 to CXL_CAP_CTRL.GO arms a capture for the next galley start, or is rejected. -/
def execCaptureGo (src : Fin 16) (le : Fin 8) (dsc : Fin 16) (s : State) : Host.Outcome State Fault Refusal :=
  .next (s.lift fun d => d.command .hdm 0 0x04C fun w =>
    Reg.CXL_CAP_CTRL.GO.put 1 (Reg.CXL_CAP_CTRL.SRC.put src.val (Reg.CXL_CAP_CTRL.LE.put le.val (Reg.CXL_CAP_CTRL.DSC.put dsc.val w))))

/-- `CAPTURE_DONE` (R446). A capture ends: COMPLETE is written in its header and CXL:CAPTURE_DONE is raised. -/
def execCaptureDone (samples : List Byte) (s : State) : Host.Outcome State Fault Refusal :=
  .next (s.captureDone samples)

/-- `DMA_TAIL` (R468). A write of DMA_RINGc.TAIL posts descriptors to the channel, or is rejected. -/
def execDmaTail (channel : Fin 16) (tail : Fin 64) (s : State) : Host.Outcome State Fault Refusal :=
  .next (s.lift fun d => d.command .dma 0 (0x044 + 0x10 * channel.val) (Reg.DMA_RING.TAIL.put tail.val))

/-- `DMA_DESCRIPTOR_START` (R470). A channel takes its next posted descriptor at HEAD and starts the transfer. -/
def execDmaDescriptorStart (channel : Fin 16) (host : Option (List Byte)) (s : State) : Host.Outcome State Fault Refusal :=
  .next (s.dmaStart channel.val (host.map natsOf))

/-- `DMA_DONE` (R470). A descriptor completes: its status is written, and DMA:DONE and the channel's vector follow as
requested. -/
def execDmaDone (channel : Fin 16) (s : State) : Host.Outcome State Fault Refusal :=
  .next (s.liftRun fun d => d.dmaDone channel.val)

/-- `DMA_RESET` (R471). A write of 1 to DMA_CTRLc.RESET clears HALT and discards the posted descriptors. -/
def execDmaReset (channel : Fin 16) (s : State) : Host.Outcome State Fault Refusal :=
  .next (s.lift fun d => d.command .dma 0 (0x040 + 0x10 * channel.val) (Reg.DMA_CTRL.RESET.put 1))

/-- `CXL_MEM_READ` (R417). A CXL.mem read of HDM, or a BAR4 read in PCIe mode, returns the line, correcting errors or
returning poison and counting it. (Log 21: DEDUCED) -/
def execCxlMemRead (addr : Nat) (s : State) : Host.Outcome State Fault Refusal :=
  if s.dev.memClaims addr then .next (s.lineRead addr) else .fault .noSuchAddress

end Sys2Proof.Machine
end

