-- ==== Sys2Proof/Machine/ExecHousekeeping.lean ====
section
/-! DEFINITION. The meanings of the housekeeping monitor, the scrubber and error injection: one definition for each row of the
opcode table, over the shared operations of the unit. -/

namespace Sys2Proof.Machine

/-- The copy into a spare ends; in the HDM store the uncorrectable bytes of the row become 0x00 (R425). -/
def State.rowSpared (s : State) (r k : Nat) : State :=
  if !s.dev.runs then s
  else
    let (d, lost) := s.dev.spared r k
    if r = 8 then lost.foldl (fun s off => s.hdmWrite off [some 0]) { s with dev := d } else { s with dev := d }

/-- `GO` (R402). A write of 1 to MON_SEQ_CTRL.GO triggers a monitor sequence, or counts an overrun. -/
def execGo (s : State) : Host.Outcome State Fault Refusal :=
  .next (s.lift fun d => d.command .mon 0 0x040 (Reg.MON_SEQ_CTRL.GO.put 1))

/-- `MON_PERIOD_TRIGGER` (R402). The PERIOD_US timer triggers a monitor sequence, or counts an overrun. -/
def execMonPeriodTrigger (s : State) : Host.Outcome State Fault Refusal :=
  .next (s.liftRun fun d => d.monPeriod)

/-- `MON_CONVERSION_DONE` (R402). A monitor conversion completes; results, streaming, limits and detectors update, and the
next conversion or trigger follows. -/
def execMonConversionDone (code scaled : Nat) (s : State) : Host.Outcome State Fault Refusal :=
  .next (s.liftRun fun d => d.monConverted code scaled)

/-- `MON_INJ` (R405). A write of 1 to MON_INJ.GO requests one injected conversion to MON_DATA. -/
def execMonInj (gain : Fin 4) (input : Fin 64) (s : State) : Host.Outcome State Fault Refusal :=
  .next (s.lift fun d => d.command .mon 0 0x054 fun _ =>
    Reg.MON_INJ.GO.put 1 (Reg.MON_INJ.GAIN.put gain.val input.val))

/-- `MON_DATA` (R404). A read of MON_DATA returns the result and clears VALID and OVR. -/
def execMonData (s : State) : Host.Outcome State Fault Refusal :=
  .next (s.lift fun d => d.pageRead (pageOf .mon 0) 0x048)

/-- `MON_TDAC` (R406). A write of MON_TDAC switches the test DAC onto or off an input and restarts the slots it feeds. -/
def execMonTdac (on : Bool) (input : Fin 64) (value : Fin 4096) (s : State) : Host.Outcome State Fault Refusal :=
  .next (s.lift fun d => d.command .mon 0 0x058 fun _ =>
    Reg.MON_TDAC.EN.put (b1 on) (Reg.MON_TDAC.INPUT.put input.val value.val))

/-- `SCRUB_VISIT` (R421). The scrubber visits a word on an idle cycle, writing back corrected bytes and ending laps. -/
def execScrubVisit (struck : List Nat) (s : State) : Host.Outcome State Fault Refusal :=
  .next (s.liftRun fun d => d.scrubVisit struck)

/-- `LAP_LATE` (R421). A scrub lap is still running after LAP_LIMIT_S, and SCB:LAP_LATE is raised. -/
def execLapLate (region : Fin 16) (s : State) : Host.Outcome State Fault Refusal :=
  .next (s.liftRun fun d => d.lapLate region.val)

/-- `TRACKER_ENTRY_EXPIRY` (R423). A recurrence tracker entry's window passes without a count of 3, and the entry is freed. -/
def execTrackerEntryExpiry (region : Fin 16) (entry : Fin 16) (s : State) : Host.Outcome State Fault Refusal :=
  .next (s.liftRun fun d => d.trackExpiry region.val entry.val)

/-- `SPARED` (R425). A row copy into a spare completes; the row is served by the spare and ECC:SPARED is raised. -/
def execSpared (region : Fin 16) (spare : Fin 8) (s : State) : Host.Outcome State Fault Refusal :=
  .next (s.rowSpared region.val spare.val)

/-- `ECC_INJ` (R427). A write of 1 to ECC_INJ.GO flips data bits of a byte in place, or is rejected. -/
def execEccInj (region : Fin 16) (bits : Fin 4) (s : State) : Host.Outcome State Fault Refusal :=
  .next (s.lift fun d => d.command .ecc 0 0x054 fun _ =>
    Reg.ECC_INJ.GO.put 1 (Reg.ECC_INJ.REGION.put region.val (Reg.ECC_INJ.BITS.put bits.val 0)))

end Sys2Proof.Machine
end

