-- ==== Sys2Proof/Machine/KeySignal.lean ====
section
/-! DEFINITION. Received key signalling: switches, erases, checkpoints and readiness (R349 to R353, R356, R359). -/

namespace Sys2Proof.Machine

/-- A 16-bit field of KSIG, whose byte 0 is byte 48 of the galley overhead. -/
def ksigField (k : List Nat) (byte : Nat) : Nat := ofBytesBE (slice k (byte - 48) 2)

/-- The KSIG of received galley `g`: that of the lowest-numbered member whose copy is not LOST (R349). -/
def Dev.ksigOf (d : Dev) (g : Nat) : Option (List Nat) :=
  (allLe.filter d.member).findSome? fun n =>
    match (d.le n).frm.copies.find? fun e => e.1 == g with
    | some (_, some c) => some c.ksig
    | _ => none

/-- SWITCH in galley `g`: the first copy read arms the receive slot, or reports `CYP:KEY_MISMATCH` (R353). -/
def Dev.ksigSwitchIn (d : Dev) (g : Nat) (k : List Nat) : Dev :=
  let w := ksigField k 50
  if !bitOf w 15 then d
  else
    let f := bitsOf w 0 10
    let bank := bitsOf w 14 1
    let at_ := (g + bitsOf w 12 2) % pow2 32
    if d.vault.rxSw.any fun e => e.flow == f && e.galley == at_ then d
    else
      let s := rxSlot f bank
      let ready := (d.slot s).state == 2 && (d.slot s).kcv == ofBytesBE (slice k 4 4)
      let d := if ready then d.setSlot s { d.slot s with state := 3, switchAt := at_ } else d.raise Ev.keyMismatch 0 0 f
      d.modVault fun v => { v with rxSw := v.rxSw.filter (fun e => e.flow != f) ++ [⟨f, bank, at_, ready⟩] }

/-- ERASE in galley `g` concerns the galley before it (R355, R356, R359). -/
def Dev.ksigEraseIn (d : Dev) (g : Nat) (k : List Nat) : Dev :=
  let w := ksigField k 56
  let prev := (g + pow2 32 - 1) % pow2 32
  if !bitOf w 15 then d
  else if bitOf w 14 then
    ((d.setB Reg.CYP_STAT.PEER_ALARM 0 true).modVault fun v => { v with voidGalley := some prev }).raise Ev.peerAlarm 0 0 0
  else
    let f := bitsOf w 0 10
    if d.vault.rxGalley = some g then
      let d := match d.activeRx f with | some s => d.emptySlot s | none => d
      d.modCyp f fun x => { x with stop := true, keySig := true }
    else d.modCyp f fun x => { x with eraseAt := some (prev, bitsOf w 10 4) }

/-- The checkpoint of galley `g`: policies are compared at once, counter and bank when galley `g` is in delivery (R338,
R350). -/
def Dev.ksigCkptIn (d : Dev) (g : Nat) (k : List Nat) : Dev :=
  let w := ksigField k 58
  if !bitOf w 15 then d
  else
    let f := bitsOf w 0 10
    let d := if bitOf w 14 == d.policyRx f then d
      else (d.modCyp f fun x => { x with keySig := true }).raise Ev.policyMismatch 0 0 f
    if !bitOf w 13 || !d.policyRx f then d
    else
      let ctr := ofBytesBE (slice k 12 8)
      let bank := bitsOf w 12 1
      if d.vault.rxGalley = some g then d.adoptCkpt f ctr bank
      else d.modCyp f fun x => { x with adopt := some (g, ctr, bank) }

/-- RDY: the bank, KCV and time are kept for the flow's transmit direction (R351). -/
def Dev.ksigRdyIn (d : Dev) (k : List Nat) : Dev :=
  let w := ksigField k 68
  if bitOf w 15 then d.modCyp (bitsOf w 0 10) fun x => { x with rdy := some (bitsOf w 14 1, ofBytesBE (slice k 22 4), d.now) } else d

/-- The KSIG of received galley `g` is taken and acted on (R353); a galley without one changes nothing. -/
def Dev.ksigReceive (d : Dev) (g : Nat) : Dev :=
  match d.ksigOf g with
  | some k => if k.getD 0 0 = 1 then ((((d.ksigSwitchIn g k).ksigEraseIn g k).ksigCkptIn g k).ksigRdyIn k) else d
  | none => d

end Sys2Proof.Machine
end

