-- ==== Sys2Proof/Machine/ExecKeys.lean ====
section
/-! DEFINITION. The meanings of Carillon and CYP: one definition for each row of the opcode table, over the shared operations
of the unit. -/

namespace Sys2Proof.Machine

/-- `IMPORT` (R346). CAR_CMD IMPORT loads the staged owner record into its slot after its checks. -/
def execImportKey (s : State) : Host.Outcome State Fault Refusal :=
  .next (s.lift fun d => d.command .car 0 0x040 fun _ => Reg.CAR_CMD.OP.put 1 0)

/-- `IMPORT_COMPLETE` (R346). An IMPORT ends with its result, the slot READY or EMPTY, the nonce redrawn and CAR:CMD_DONE
raised. -/
def execImportComplete (s : State) : Host.Outcome State Fault Refusal :=
  .next (s.liftRun fun d => d.withTrust (d.carOp == 1) Dev.importEnd)

/-- `GENERATE` (R347). CAR_CMD GENERATE draws a key and salt and transports them to the partner's paired receive slot. -/
def execGenerate (slot : Fin 4096) (s : State) : Host.Outcome State Fault Refusal :=
  .next (s.lift fun d => d.command .car 0 0x040 fun _ => Reg.CAR_CMD.OP.put 2 slot.val)

/-- `ARM` (R352). CAR_CMD ARM arms a transmit slot for an announced switch when a matching RDY is held, or ends with DETAIL
13. -/
def execArm (slot : Fin 4096) (s : State) : Host.Outcome State Fault Refusal :=
  .next (s.lift fun d => d.command .car 0 0x040 fun _ => Reg.CAR_CMD.OP.put 3 slot.val)

/-- `ERASE` (R355). CAR_CMD ERASE empties a slot, at once or at the next forme boundary when it is in use. -/
def execErase (slot : Fin 4096) (s : State) : Host.Outcome State Fault Refusal :=
  .next (s.lift fun d => d.command .car 0 0x040 fun _ => Reg.CAR_CMD.OP.put 4 slot.val)

/-- `ERASE_FLOW` (R342). CAR_CMD ERASE_FLOW erases all four slots of a flow. -/
def execEraseFlow (slot : Fin 4096) (s : State) : Host.Outcome State Fault Refusal :=
  .next (s.lift fun d => d.command .car 0 0x040 fun _ => Reg.CAR_CMD.OP.put 5 slot.val)

/-- `ZEROISE` (R342). CAR_CMD ZEROISE erases all slots as an alarm with cause SOFTWARE. -/
def execZeroise (s : State) : Host.Outcome State Fault Refusal :=
  .next (s.lift fun d => d.command .car 0 0x040 fun _ => Reg.CAR_CMD.OP.put 6 0)

/-- `NONCE` (R342). CAR_CMD NONCE draws a new import nonce. -/
def execNonce (s : State) : Host.Outcome State Fault Refusal :=
  .next (s.lift fun d => d.command .car 0 0x040 fun _ => Reg.CAR_CMD.OP.put 7 0)

/-- `ALARM_CLEAR` (R358). CAR_CMD ALARM_CLEAR releases the alarm lock once every cause has been absent for 1 ms. -/
def execAlarmClear (s : State) : Host.Outcome State Fault Refusal :=
  .next (s.lift fun d => d.command .car 0 0x040 fun _ => Reg.CAR_CMD.OP.put 8 0)

/-- `ERASE_APPLY` (R355). At the forme boundary after an ERASE of an in-use slot the flow goes blank, the partial tag is made
and the key is erased. -/
def execEraseApply (s : State) : Host.Outcome State Fault Refusal :=
  .next (s.liftRun fun d => d.eraseApply d.gnum d.formes)

/-- `TRANSPORT_CHECK_DONE` (R348). The checks of a received transport record end; the slot becomes READY or not, and the
receipt carries the verdict. -/
def execTransportCheckDone (sigOk : Bool) (s : State) : Host.Outcome State Fault Refusal :=
  .next (s.liftRun fun d => d.withTrust d.vault.transport.isSome fun d => d.transportDone sigOk)

/-- `KSIG_RECEIVE` (R353). A received galley's KSIG is taken and its SWITCH, ERASE, CKPT and RDY fields are acted on. -/
def execKsigReceive (gnum : Nat) (s : State) : Host.Outcome State Fault Refusal :=
  .next (s.liftRun fun d => d.ksigReceive gnum)

/-- `SWITCHED` (R352). At the switch galley the armed slot becomes ACTIVE, the old slot makes its last tag and empties, and
CYP:SWITCHED is raised. -/
def execSwitched (flow : Fin 1024) (s : State) : Host.Outcome State Fault Refusal :=
  .next (s.liftRun fun d => if d.switchDue flow.val d.gnum then d.txSwitch flow.val d.gnum else d)

/-- `CARILLON_ALARM` (R357). A glitch, temperature, tamper, duplicate compare or key-store ECC condition zeroises every slot
and locks Carillon. -/
def execCarillonAlarm (conditions : Fin 64) (s : State) : Host.Outcome State Fault Refusal :=
  .next (s.liftRun fun d => d.alarmConditions conditions.val)

/-- `GENERATE_LOAD_COMPLETE` (R347). The key and salt of a GENERATE are drawn into the slot, which becomes READY, and the
signed transport record is handed to the transfer. -/
def execGenerateLoadComplete (s : State) : Host.Outcome State Fault Refusal :=
  .next (s.liftRun fun d => d.withTrust (d.carOp == 2) Dev.generateLoad)

end Sys2Proof.Machine
end

