-- ==== Sys2Proof/Machine/ExecLanes.lean ====
section
/-! DEFINITION. The meanings of the host lane groups: one definition for each row of the opcode table, over the shared
operations of the unit. -/

namespace Sys2Proof.Machine

/-- `HLN_GROUP_EN` (R228). A write of HLN_GRP_CTRL.EN enables a lane group into training, or takes it out of service. -/
def execHlnGroupEn (group : Fin 16) (on : Bool) (s : State) : Host.Outcome State Fault Refusal :=
  .next (s.lift fun d => d.command .hlnG group.val 0x040 (Reg.HLN_GRP_CTRL.EN.put (b1 on)))

/-- `RETRAIN` (R254). A write of 1 to HLN_GRP_CTRL.RETRAIN takes the group out of RUN and its lanes to DETECT. -/
def execRetrain (group : Fin 16) (s : State) : Host.Outcome State Fault Refusal :=
  .next (s.lift fun d => d.command .hlnG group.val 0x040 (Reg.HLN_GRP_CTRL.RETRAIN.put 1))

/-- `REJOIN` (R252). A write of 1 to HLN_GRP_CTRL.REJOIN releases the lanes waiting in ALIGN, which then sets their HEALTH. -/
def execRejoin (group : Fin 16) (s : State) : Host.Outcome State Fault Refusal :=
  .next (s.lift fun d => d.command .hlnG group.val 0x040 (Reg.HLN_GRP_CTRL.REJOIN.put 1))

/-- `LANE_SIGNAL_DETECT` (R245). A receive lane holds 80 mV for 100 us while its backoff has expired, and SYNC is entered. -/
def execLaneSignalDetect (group : Fin 16) (phys : Fin 8) (s : State) : Host.Outcome State Fault Refusal :=
  .next (s.liftRun fun d => d.signalOn group.val phys.val)

/-- `LANE_SIGNAL_LOSS` (R246). The bound receive lane falls below 40 mV for 1 us in SYNC, TUNE or ALIGN, and the lane fails to
DETECT. -/
def execLaneSignalLoss (group : Fin 16) (phys : Fin 8) (s : State) : Host.Outcome State Fault Refusal :=
  .next (s.liftRun fun d => d.signalOff group.val phys.val)

/-- `RIMSHOT` (R233). A valid rimshot is received and binds a physical lane to a logical lane, or raises HLN:WRONG_GROUP or
HLN:LANE_DUP; a block start without a valid one counts against the lane bound there (R249). -/
def execRimshot (group : Fin 16) (phys : Fin 8) (symbols : List (Fin 4)) (s : State) : Host.Outcome State Fault Refusal :=
  .next (s.liftRun fun d => d.rimshot group.val phys.val (symbols.map (·.val)))

/-- `LANE_TUNE_DONE` (R245). A lane's SNR reaches SNR_MIN and the lane peer's READY arrives, so the lane enters ALIGN with its
precoding fixed. -/
def execLaneTuneDone (group : Fin 16) (lane : Fin 8) (snr : Nat) (dfe : Int) (ctle : Nat) (s : State) :
    Host.Outcome State Fault Refusal :=
  .next (s.liftRun fun d => d.tuneDone group.val lane.val snr dfe ctle)

/-- `LANE_TIMEOUT` (R246). A training state times out; the lane returns to DETECT with a doubled backoff and HLN:LANE_TIMEOUT
is raised. -/
def execLaneTimeout (group : Fin 16) (lane : Fin 8) (s : State) : Host.Outcome State Fault Refusal :=
  .next (s.liftRun fun d => d.laneTimeout group.val lane.val)

/-- `LANE_BACKOFF_EXPIRY` (R246). A lane's backoff in DETECT ends, so it may leave DETECT. -/
def execLaneBackoffExpiry (group : Fin 16) (lane : Fin 8) (s : State) : Host.Outcome State Fault Refusal :=
  .next (s.liftRun fun d => d.backoffExpiry group.val lane.val)

/-- `GROUP_ALIGN` (R248). Every enabled lane, or seven under MIN7, is in ALIGN; the group deskews and sends headers. -/
def execGroupAlign (group : Fin 16) (skew : List Nat) (s : State) : Host.Outcome State Fault Refusal :=
  .next (s.liftRun fun d => d.groupAlign group.val skew)

/-- `GROUP_RUN_ENTRY` (R248). Three valid blocks with the agreed LANES arrive, the group enters RUN, capacity is evaluated and
HLN:GROUP is raised. -/
def execGroupRunEntry (group : Fin 16) (s : State) : Host.Outcome State Fault Refusal :=
  .next (s.liftRun fun d => d.runEntry group.val)

/-- `HLN_BLOCK_RECEIVE` (R239). A block is received from the lane peer; it is decoded, its header read and announcements
followed, and its cells taken. -/
def execHlnBlockReceive (group : Fin 16) (block : HostBlock) (s : State) : Host.Outcome State Fault Refusal :=
  .next (s.liftRun fun d => d.blockReceive group.val block)

/-- `HLN_BLOCK_SEND` (R250). A block is sent with its header, countdown and SHED field, and is dealt on the set in use. -/
def execHlnBlockSend (group : Fin 16) (clock : LaneClock) (s : State) : Host.Outcome State Fault Refusal :=
  .next (s.liftRun fun d => d.blockSend group.val clock)

/-- `LANE_LOST` (R249). A lane in RUN loses CDR lock, two rimshots or exceeds the error limit; it returns to DETECT and HEALTH
changes. -/
def execLaneLost (group : Fin 16) (lane : Fin 8) (cause : Fin 4) (s : State) : Host.Outcome State Fault Refusal :=
  .next (s.liftRun fun d => d.laneLost group.val lane.val cause.val)

/-- `PEER_STUCK` (R254). 128 blocks pass with no valid header, or without the lane peer following the set, and the group
leaves RUN. -/
def execPeerStuck (group : Fin 16) (s : State) : Host.Outcome State Fault Refusal :=
  .next (s.liftRun fun d => d.peerStuck group.val)

/-- `PAIR_MERGE_TIMEOUT` (R244). A missing SEQ of a paired flow is not received within 1 us of its successor, so merging
continues with GAP. -/
def execPairMergeTimeout (flow : Fin 1024) (s : State) : Host.Outcome State Fault Refusal :=
  .next (s.liftRun fun d => d.mergeTimeout flow.val)

/-- `HLN_PRBS_LOCK` (R256). A lane PRBS checker locks after 64 correct bits, or loses lock after 1,024 errors. -/
def execHlnPrbsLock (group : Fin 16) (lane : Fin 8) (levels : List (Fin 4)) (s : State) : Host.Outcome State Fault Refusal :=
  .next (s.liftRun fun d => d.prbsLock group.val lane.val (levels.map (·.val)))

end Sys2Proof.Machine
end

