-- ==== Sys2Proof/Machine/RxGalleys.lean ====
section
/-! DEFINITION. The completion of a received galley (R518) and the skews of the members (R203). -/

namespace Sys2Proof.Machine

/-- A marker time in 2^-32 ns as a timestamp in 2^-16 ns, halves rounded up. -/
def stampI (t : Int) : Int := (t + 32768) / 65536

/-- The skews of galley `g`, once every member has completed it: the entries are the carriers with a valid marker, with the
marker times in 2^-32 ns. (Log 69: DEDUCED) -/
def Dev.takeSkews (d : Dev) (l : List (Nat × Int)) : Dev :=
  match l with
  | [] => d
  | (_, t0) :: rest =>
    let base := rest.foldl (fun m e => min m e.2) t0
    let d := l.foldl (fun (d : Dev) (e : Nat × Int) =>
      let s := ((e.2 - base) :: Store.get (fun _ => []) d.fmx.skews e.1).take 16
      let mean := s.foldl (· + ·) 0 / s.length * 1000 / (pow2 32 : Int)
      let d := d.modFmx fun x => { x with skews := Store.set (fun _ => []) x.skews e.1 s }
      (d.setJ Reg.FMX_DSK_SKEW.VALID 0 e.1 1).setJ Reg.FMX_DSK_SKEW.SKEW_PS 0 e.1 mean.toNat) d
    d.recheckBounds

/-- Carrier `n` has completed galley `g`, with its marker's time where the marker is valid (R203). (Log 69: DEDUCED) -/
def Dev.skewTaken (d : Dev) (n g : Nat) (t : Option Int) : Dev :=
  if !d.member n then d
  else
    let balls := ((g, n, t) :: d.fmx.balls.filter fun e => !(e.1 == g && e.2.1 == n)).take 64
    let here := balls.filter fun e => e.1 == g && d.member e.2.1
    let all := (allLe.filter d.member).all fun m => here.any fun e => e.2.1 == m
    let d := d.modFmx fun x => { x with balls := if all then balls.filter fun e => e.1 != g else balls }
    if all then d.takeSkews (here.filterMap fun e => e.2.2.map fun t => (e.2.1, t)) else d

/-- The marker at the ADC balls, t_ball of R103, in 2^-32 ns: none while τ_ADC is unset. (Log 69: DEDUCED) -/
def Dev.ballTime (d : Dev) (n : Nat) (t : Option Int) : Option Int :=
  match t, d.delayTerm n 2 with
  | some t, some a => some (t - a * (pow2 32 : Int) / 1000)
  | _, _ => none

/-- The marker of galley `g` on carrier `n` is recorded, goes to Tympan and gives the carrier's skew (R121, R126, R203, R277). -/
def Dev.markerTaken (d : Dev) (n g : Nat) (m : RxGalley) : Dev :=
  let valid := d.markerValid n m
  let t := if valid then d.markerTime n m else none
  let d := d.markerRecord n g m
  let d := d.rxMarker n g (t.map fun t => stampI t - ofPs ((d.delayTerm n 2).getD 0) - ofPs ((d.delayTerm n 3).getD 0))
  d.skewTaken n g (d.ballTime n t)

/-- A received galley of carrier `n` completes, or an interval that stands in for one while galley alignment is not held. -/
def Dev.rxComplete (d : Dev) (n : Nat) (m : RxGalley) : Dev :=
  let g := d.completedGalley n
  let counted := g.isSome && d.lockedThrough n m && d.get Reg.LE_RX_PRBS.MODE n != 2
  let d := if g.isSome then d else d.standIn n
  let d := (d.adcFigures n m).loopFigures n g.isSome m
  let d := match g with | some g => (d.markerTaken n g m).galleyOver n m | none => d
  let d := d.fecGalley n counted
  let d := d.frmGalley n g
  (d.rxGalleyNext n).defSync n

end Sys2Proof.Machine
end

