-- ==== Sys2Proof/Machine/ExecLineRx.lean ====
section
/-! DEFINITION. The meanings of the line receive, decoder commands and events: one definition for each row of the opcode
table, over the shared operations of the unit. -/

namespace Sys2Proof.Machine

/-- `RX_ENABLE` (R98). A write of LE_RX_CTRL.EN enables or disables the receive path, or is rejected, and LE:RX_UNCAL is
raised if calibration is missing. -/
def execRxEnable (le : Fin 8) (on : Bool) (s : State) : Host.Outcome State Fault Refusal :=
  .next (s.lift fun d => d.command .rx le.val 0x040 (Reg.LE_RX_CTRL.EN.put (b1 on)))

/-- `REACQ` (R119). A write of 1 to LE_RX_CTRL.REACQ restarts acquisition at CD_SEARCH, or at FREQ in MANUAL, unless a
higher-ranking state applies. -/
def execReacq (le : Fin 8) (s : State) : Host.Outcome State Fault Refusal :=
  .next (s.lift fun d => d.command .rx le.val 0x040 (Reg.LE_RX_CTRL.REACQ.put 1))

/-- `RAW_LOS_ASSERT` (R118). The RMS level stays below the LOS threshold for 10 us, raw LOS is asserted and the receive state
goes to SIGNAL. -/
def execRawLosAssert (le : Fin 8) (s : State) : Host.Outcome State Fault Refusal :=
  .next (s.liftRun fun d => d.losAssert le.val)

/-- `RAW_LOS_RELEASE` (R118). The RMS level stays above the threshold less the hysteresis for 100 us, and raw LOS is released.
-/
def execRawLosRelease (le : Fin 8) (s : State) : Host.Outcome State Fault Refusal :=
  .next (s.liftRun fun d => d.losRelease le.val)

/-- `SIGNAL_PRESENT` (R115). In SIGNAL the RMS level is above threshold for 10 us, and acquisition moves to CD_SEARCH, or to
FREQ in MANUAL. -/
def execSignalPresent (le : Fin 8) (s : State) : Host.Outcome State Fault Refusal :=
  .next (s.liftRun fun d => d.signalPresent le.val)

/-- `CD_SEARCH_DONE` (R115). The CD search finds 1-4 candidates, and FREQ is entered with the best one. -/
def execCdSearchDone (le : Fin 8) (candidates : List Int) (s : State) : Host.Outcome State Fault Refusal :=
  .next (s.liftRun fun d => d.searchDone le.val candidates)

/-- `FREQ_ACQUIRED` (R115). The frequency offset is acquired within 5 GHz, and CONVERGE is entered, or FOFS_RANGE fails FREQ.
-/
def execFreqAcquired (le : Fin 8) (mhz : Int) (s : State) : Host.Outcome State Fault Refusal :=
  .next (s.liftRun fun d => d.freqFound le.val mhz)

/-- `MEQ_CONVERGED` (R115). The MEQ error stays below threshold for 64 pilots, and TIMING is entered. -/
def execMeqConverged (le : Fin 8) (s : State) : Host.Outcome State Fault Refusal :=
  .next (s.liftRun fun d => d.rxAdvance le.val 5)

/-- `TRL_LOCKED` (R115). The TRL phase error stays below 2^-6 UI for 1,024 pilots, and PHASE is entered. -/
def execTrlLocked (le : Fin 8) (s : State) : Host.Outcome State Fault Refusal :=
  .next (s.liftRun fun d => d.rxAdvance le.val 6)

/-- `PILOT_LOCKED` (R115). Pilot correlation matches for 2 formes, the forme starts are fixed and FRAME is entered, which
starts the FEC decoder. -/
def execPilotLocked (le : Fin 8) (s : State) : Host.Outcome State Fault Refusal :=
  .next (s.liftRun fun d => d.rxAdvance le.val 7)

/-- `ACQ_TIMEOUT` (R116). An acquisition state times out; the candidate is dropped or a new search starts, and LE:ACQ_FAIL is
rate-limited. -/
def execAcqTimeout (le : Fin 8) (s : State) : Host.Outcome State Fault Refusal :=
  .next (s.liftRun fun d => d.acqExpired le.val)

/-- `LOSS_OF_LOCK` (R117). In LOCKED, MEQ divergence, pilot errors, TRL error or a frequency move raises loss of lock, and
reacquisition begins. -/
def execLossOfLock (le : Fin 8) (cause : Nat) (s : State) : Host.Outcome State Fault Refusal :=
  .next (s.liftRun fun d => d.loseLock le.val cause)

/-- `RX_GALLEY_COMPLETE` (R518). A received galley completes, and its ADC figures, CD estimate, SNR, marker record, skew and
FEC counters are taken. -/
def execRxGalleyComplete (le : Fin 8) (galley : RxGalley) (s : State) : Host.Outcome State Fault Refusal :=
  .next (s.liftRun fun d => d.rxComplete le.val galley)

/-- `CDE_STEP` (R107). At a galley boundary in LOCKED, D_set is replaced by D_est beyond HYST, or by a MANUAL write; N changes
and LE:CDE_STEP is raised. -/
def execCdeStep (le : Fin 8) (s : State) : Host.Outcome State Fault Refusal :=
  .next (s.liftRun fun d => d.cdeStep le.val)

/-- `RX_PRBS_LOCK` (R124). The receive PRBS checker locks after 64 correct bits, or loses lock after 1,024 errors within
65,536 bits. -/
def execRxPrbsLock (le : Fin 8) (dsc : Fin 16) (bits : List Bool) (s : State) : Host.Outcome State Fault Refusal :=
  .next (s.liftRun fun d => d.rxPrbs le.val dsc.val bits)

/-- `FEC_CFG` (R131). A write of LE_FEC_CFG sets the mode, REQ_BITS, QTHR and sort count at once, or is rejected. -/
def execFecCfg (le : Fin 8) (rate code : Fin 4) (s : State) : Host.Outcome State Fault Refusal :=
  .next (s.lift fun d => d.command .fec le.val 0x040 fun _ =>
    Reg.LE_FEC_CFG.RATE.put rate.val (Reg.LE_FEC_CFG.CODE.put code.val 0))

/-- `FEC_ITER_COMMIT` (R152). A write of 1 to LE_FEC_ITER.COMMIT applies the shadowed ITER_MAX at the next galley boundary and
recomputes the admission totals. -/
def execFecIterCommit (le : Fin 8) (s : State) : Host.Outcome State Fault Refusal :=
  .next (s.lift fun d => d.command .fec le.val 0x044 (Reg.LE_FEC_ITER.COMMIT.put 1))

/-- `FEC_CLEAR` (R147). A write of 1 to LE_FEC_CLEAR.CLR clears the FEC counters and the histogram at the next galley
boundary. -/
def execFecClear (le : Fin 8) (s : State) : Host.Outcome State Fault Refusal :=
  .next (s.lift fun d => d.command .fec le.val 0x08C (Reg.LE_FEC_CLEAR.CLR.put 1))

end Sys2Proof.Machine
end

