-- ==== Sys2Proof/Machine/Dac.lean ====
section
/-! DEFINITION. The DACs of a line engine: level control, the ramp's amplitude, saturation, and the measurements of a galley
(R73, R80, R92). -/

namespace Sys2Proof.Machine

/-- The level-control gain of a DAC over a galley, in 2^-32: the RMS of its samples comes to BACKOFF, in 0.1 dB, below the full scale
of 128. A DAC without a signal needs none. (Log 174: DESIGN CHOICE) -/
def levelGain (backoff : Nat) (samples : List Int) : Nat :=
  let power := (samples.map fun x => (x * x).toNat).sum
  if power = 0 then 0 else rootOf 2 (16384 * dbPower (-10 * (backoff : Int)) * samples.length * pow2 64 / (power * one256)) 96 0

/-- The amplitude of a power fraction, its square root, in 2^-32 (R80). (Log 174: DESIGN CHOICE) -/
def rampAmp (frac : Nat) : Nat := rootOf 2 (frac * pow2 64 / 65535) 33 0

/-- A sample after the gain and the ramp's amplitude, to the nearest code, not yet limited; and the code, which saturates.
(Log 174: DESIGN CHOICE) -/
def dacRaw (gain amp : Nat) (x : Int) : Int := (x * (gain * amp : Nat) + pow2 63) / (pow2 64 : Int)
def dacCode (v : Int) : Int := clampI (-128) 127 v

/-- The code of channel `c` (XI, XQ, YI, YQ) at sample `k` of the intensity pattern, which starts at the sample of the marker's pulse
centre: 128 ns at code 0, then 128 ns with XI and YI at √2 times the RMS of a polarisation under BACKOFF, twice a DAC's; none after
it (R394). (Log 165: DEDUCED) -/
def patternCode (backoff c k : Nat) : Option Int :=
  if k < 32768 then some 0
  else if k < 65536 then
    some (if c % 2 = 0 then dacCode (rootOf 2 (65536 * dbPower (-10 * (backoff : Int)) / one256) 10 0 : Nat) else 0)
  else none

/-- What a DAC makes of a galley's samples: the gain, the clipped samples, and the RMS level in 0.1 dB below full scale. The amplitudes
are by forme of 327,680 samples. (Log 174: DESIGN CHOICE) -/
def dacGalley (backoff : Nat) (amps : List Nat) (samples : List Int) : Nat × Nat × Nat :=
  let gain := levelGain backoff samples
  let raw := (List.range 16).flatMap fun k => (slice samples (327680 * k) 327680).map (dacRaw gain (amps.getD k 0))
  let power := (raw.map fun v => (dacCode v * dacCode v).toNat).sum
  (gain, raw.countP fun v => dacCode v != v,
    if power = 0 then 255 else (clampI 0 255 ((dbOf (16384 * raw.length) power + 5) / 10)).toNat)

/-- The amplitudes of the formes of the galley that has ended, in order. A forme in which the DACs were squelched has none. -/
def Dev.galleyAmps (d : Dev) (n : Nat) : List Nat :=
  let l := ((d.le n).tx.fracs.drop d.formes).take 16
  (List.replicate (16 - l.length) 0 ++ l.reverse).map rampAmp

/-- One galley of the DAC output, from the samples that come to level control: XI, XQ, YI and YQ. A squelched DAC holds code 0:
it clips nothing, and the last levels stand. (Log 157: DESIGN CHOICE) -/
def Dev.dacMeasure (d : Dev) (n : Nat) (channels : List (List Int)) : Dev :=
  if d.flag Reg.LE_DAC_STAT.SQUELCH n then
    let d := (d.set Reg.LE_DAC_CLIP_X.XI n 0).set Reg.LE_DAC_CLIP_X.XQ n 0
    (d.set Reg.LE_DAC_CLIP_Y.YI n 0).set Reg.LE_DAC_CLIP_Y.YQ n 0
  else
    let m := channels.map (dacGalley (d.get Reg.LE_DAC_CTRL.BACKOFF n) (d.galleyAmps n))
    let at_ (k : Nat) : Nat × Nat × Nat := m.getD k (0, 0, 0)
    let c (k : Nat) : Nat := capN 0xFFFF (at_ k).2.1
    let d := d.modTx n fun t => { t with dacGain := m.map (·.1) }
    let d := ((d.set Reg.LE_DAC_CLIP_X.XI n (c 0)).set Reg.LE_DAC_CLIP_X.XQ n (c 1)).set Reg.LE_DAC_CLIP_Y.YI n (c 2)
    let d := d.set Reg.LE_DAC_CLIP_Y.YQ n (c 3)
    let d := ((d.set Reg.LE_DAC_RMS.XI n (at_ 0).2.2).set Reg.LE_DAC_RMS.XQ n (at_ 1).2.2).set Reg.LE_DAC_RMS.YI n (at_ 2).2.2
    let d := d.set Reg.LE_DAC_RMS.YQ n (at_ 3).2.2
    if (List.range 4).any fun k => decide (d.get Reg.LE_DAC_CTRL.CLIP_THRESH n < (at_ k).2.1) then d.raise Ev.dacClip n n 0 else d

end Sys2Proof.Machine
end

