-- ==== Sys2Proof/Machine/ExecLineTx.lean ====
section
/-! DEFINITION. The meanings of the line transmit commands and events: one definition for each row of the opcode table, over
the shared operations of the unit. -/

namespace Sys2Proof.Machine

/-- `START` (R76). A REQ of START on a line engine brings the carrier toward ON, or is rejected. -/
def execStart (le : Fin 8) (s : State) : Host.Outcome State Fault Refusal :=
  .next (s.lift fun d => d.command .tx le.val 0x040 fun _ => Reg.LE_TX_CTRL.REQ.put 1 0)

/-- `BEACON` (R76). A REQ of BEACON brings the carrier toward beacon mode, and first makes a planned departure if it is a
member. -/
def execBeacon (le : Fin 8) (s : State) : Host.Outcome State Fault Refusal :=
  .next (s.lift fun d => d.command .tx le.val 0x040 fun _ => Reg.LE_TX_CTRL.REQ.put 2 0)

/-- `STOP` (R76). A REQ of STOP brings the carrier toward OFF, and first makes a planned departure if it is a member. -/
def execStop (le : Fin 8) (s : State) : Host.Outcome State Fault Refusal :=
  .next (s.lift fun d => d.command .tx le.val 0x040 fun _ => Reg.LE_TX_CTRL.REQ.put 3 0)

/-- `KILL` (R84). A write of LE_TX_CTRL.KILL squelches the DACs and drives LEn_TXEN low, leaving the carrier HALTED as R84
fixes. -/
def execKill (le : Fin 8) (on : Bool) (s : State) : Host.Outcome State Fault Refusal :=
  .next (s.lift fun d => d.command .tx le.val 0x040 fun _ => Reg.LE_TX_CTRL.KILL.put (b1 on) 0)

/-- `TXEN_FAULT` (R83). The LEn_TXEN read-back differs from the driven level for 10 us; the pin is driven low and the carrier
is HALTED. -/
def execTxenFault (le : Fin 8) (s : State) : Host.Outcome State Fault Refusal :=
  .next (s.liftRun fun d => d.txenFault le.val)

/-- `BANK_GRANT` (R87). The start-rate limiter grants the next bank transition to the earliest queued request, once the bank
gap has passed. -/
def execBankGrant (s : State) : Host.Outcome State Fault Refusal :=
  .next (s.liftRun fun d => d.bankGrant)

/-- `BANK_SOFTSTART_DONE` (R86). A power bank finishes its 100 us soft-start, and the line engine proceeds, for example to
ENABLE, or starts its ADC sample index. -/
def execBankSoftstartDone (le : Fin 8) (bank : Fin 3) (s : State) : Host.Outcome State Fault Refusal :=
  .next (s.liftRun fun d => d.softStartDone le.val bank.val)

/-- `BANK_SOFTSTOP_DONE` (R86). A power bank finishes its 100 us soft-stop, and the carrier becomes OFF after the last bank.
-/
def execBankSoftstopDone (le : Fin 8) (bank : Fin 3) (s : State) : Host.Outcome State Fault Refusal :=
  .next (s.liftRun fun d => d.softStopDone le.val bank.val)

/-- `TXEN_LEAD_EXPIRY` (R75). LEAD_US ends in ENABLE, and the carrier waits for, or takes, a ramp slot. -/
def execTxenLeadExpiry (le : Fin 8) (s : State) : Host.Outcome State Fault Refusal :=
  .next (s.liftRun fun d => d.leadExpired le.val)

/-- `RAMP_SLOT_GRANT` (R88). A free ramp slot is granted at a forme boundary, and STATE becomes RAMP_UP or RAMP_DOWN. -/
def execRampSlotGrant (s : State) : Host.Outcome State Fault Refusal :=
  .next (s.liftRun fun d => d.rampGrant)

/-- `RAMP_COMPLETE` (R80). A ramp reaches its end, and the carrier enters ON, BEACON or SHUTDOWN. -/
def execRampComplete (le : Fin 8) (s : State) : Host.Outcome State Fault Refusal :=
  .next (s.liftRun fun d => d.rampComplete le.val)

/-- `TXEN_LAG_EXPIRY` (R75). LAG_US ends in SHUTDOWN: LEn_TXEN goes low, and the banks go down or the carrier enters HALTED
under a calibration hold. -/
def execTxenLagExpiry (le : Fin 8) (s : State) : Host.Outcome State Fault Refusal :=
  .next (s.liftRun fun d => d.lagExpired le.val)

/-- `START_HELD` (R88). A start-queue entry has waited 100 ms, and RST:START_HELD is raised. -/
def execStartHeld (le : Fin 8) (s : State) : Host.Outcome State Fault Refusal :=
  .next (s.liftRun fun d => d.startHeld le.val)

/-- `BL_SWITCH` (R64). A write of 1 to LE_TX_BL_CTRL.SWITCH requests a transmit bit-loading bank switch, negotiated or not, or
is rejected. -/
def execBlSwitch (le : Fin 8) (negotiate : Bool) (s : State) : Host.Outcome State Fault Refusal :=
  .next (s.lift fun d => d.command .tx le.val 0x04C fun _ =>
    Reg.LE_TX_BL_CTRL.NEGOTIATE.put (b1 negotiate) (Reg.LE_TX_BL_CTRL.SWITCH.put 1 0))

/-- `BL_SWITCH_APPLY` (R65). A pending bit-loading bank switch takes effect at its galley boundary, and LE:BL_SWITCHED is
raised. -/
def execBlSwitchApply (le : Fin 8) (receive : Bool) (s : State) : Host.Outcome State Fault Refusal :=
  .next (s.liftRun fun d => d.blApply le.val receive)

/-- `RX_BL_SWITCH` (R122). A write of 1 to LE_RX_BL_CTRL.SWITCH requests a receive bank switch at the next galley boundary, or
is rejected. -/
def execRxBlSwitch (le : Fin 8) (s : State) : Host.Outcome State Fault Refusal :=
  .next (s.lift fun d => d.command .rx le.val 0x05C (Reg.LE_RX_BL_CTRL.SWITCH.put 1))

/-- `MASK_COMMIT` (R71). A write of 1 to LE_TX_MASK_CTRL.COMMIT makes the shadow mask the target, with a new slew. -/
def execMaskCommit (le : Fin 8) (s : State) : Host.Outcome State Fault Refusal :=
  .next (s.lift fun d => d.command .tx le.val 0x064 (Reg.LE_TX_MASK_CTRL.COMMIT.put 1))

/-- `MASK_SLEW_STEP` (R71). At each galley boundary of a slew every bin moves one N-th of its change, and LE:MASK_SLEWED is
raised at the target. -/
def execMaskSlewStep (le : Fin 8) (s : State) : Host.Outcome State Fault Refusal :=
  .next (s.liftRun fun d => d.slewStep le.val)

/-- `DAC_GALLEY_MEASURE` (R73). Once per galley the DAC gain is set, clips are counted and LE:DAC_CLIP may be raised. -/
def execDacGalleyMeasure (le : Fin 8) (channels : List (List Int)) (s : State) : Host.Outcome State Fault Refusal :=
  .next (s.liftRun fun d => d.dacMeasure le.val channels)

end Sys2Proof.Machine
end

