-- ==== Sys2Proof/Machine/ExecPace.lean ====
section
/-! DEFINITION. The meanings of the VCORE arbiter, the elastic buffers and the transmit grid: one definition for each row of
the opcode table, over the shared operations of the unit. -/

namespace Sys2Proof.Machine

/-- `VCORE_FLOOR_WRITE` (R38). A write of FLOOR_MV is range-checked and moves the VCORE target up to the new floor at once. -/
def execVcoreFloorWrite (mv : Fin 1024) (s : State) : Host.Outcome State Fault Refusal :=
  .next (s.lift fun d => d.command .vcore 0 0x040 (Reg.CHIP_VCORE_FLOOR.FLOOR_MV.put mv.val))

/-- `PACE_GUARD_MARGIN` (R29). Once per galley each pace guard computes its margin, updates its state and raises LE:PACE_LOW
once per spell. -/
def execPaceGuardMargin (le : Fin 8) (tx rx : Int) (txFill rxFill : Nat) (s : State) : Host.Outcome State Fault Refusal :=
  .next (s.liftRun fun d => d.paceMargin le.val tx rx txFill rxFill)

/-- `VCORE_STEP_UP` (R30). The arbiter raises the VCORE target by UP_MV, at most once per 50 us, up to 800 mV, and raises
LE:PACE_CEILING once per spell at the ceiling. -/
def execVcoreStepUp (s : State) : Host.Outcome State Fault Refusal :=
  .next (s.liftRun fun d => d.stepUp)

/-- `VCORE_STEP_DOWN` (R30). After 100 ms with every margin above HIGH_MARGIN, the arbiter lowers the target by DOWN_MV, at
most once per 10 ms. -/
def execVcoreStepDown (s : State) : Host.Outcome State Fault Refusal :=
  .next (s.liftRun fun d => d.stepDown)

/-- `RX_OVERFLOW` (R26). An ADC buffer overflows: samples are discarded, formes are lost and LE:RX_OVERFLOW is raised. -/
def execRxOverflow (le : Fin 8) (count : Nat) (s : State) : Host.Outcome State Fault Refusal :=
  .next (s.liftRun fun d => d.rxOverflow le.val count)

/-- `HLN_RX_OVERFLOW` (R26). A host-receive buffer is full: cells are dropped, a gap is marked and HLN:RX_OVERFLOW is raised.
-/
def execHlnRxOverflow (group : Fin 16) (flows : List (Fin 1024)) (s : State) : Host.Outcome State Fault Refusal :=
  .next (s.liftRun fun d => d.hlnOverflow group.val (flows.map (·.val)))

/-- `TX_UNDERRUN` (R27). A DAC buffer underruns: filler symbols are sent and LE:TX_UNDERRUN is raised. -/
def execTxUnderrun (le : Fin 8) (s : State) : Host.Outcome State Fault Refusal :=
  .next (s.liftRun fun d => d.txUnderrun le.val)

/-- `HLN_TX_UNDERRUN` (R27). A host-transmit buffer underruns: idle cells are sent and HLN:TX_UNDERRUN is raised. -/
def execHlnTxUnderrun (group : Fin 16) (s : State) : Host.Outcome State Fault Refusal :=
  .next (s.liftRun fun d => d.hlnUnderrun group.val)

/-- `TX_GALLEY_START` (R265). A galley starts on the transmit grid: GNUM advances, T_grid and i_ref are recorded, and
galley-boundary effects apply. -/
def execTxGalleyStart (s : State) : Host.Outcome State Fault Refusal :=
  .next (s.liftRun fun d => d.galleyStart)

/-- `FORME_START` (R80). At each transmit forme boundary the framer builds the forme, FMX deals cells and refills the policing
buckets. -/
def execFormeStart (s : State) : Host.Outcome State Fault Refusal :=
  .next (s.liftRun fun d => d.formeStart)

end Sys2Proof.Machine
end

