-- ==== Sys2Proof/Machine/ExecReset.lean ====
section
/-! DEFINITION. The meanings of resets, the release, fuses, supplies, AVSBus and temperature: one definition for each row of
the opcode table, over the shared operations of the unit. -/

namespace Sys2Proof.Machine

/-- `POR` (R477). VCORE or VIO falls below its POR level, and the chip resets. -/
def execPor (s : State) : Host.Outcome State Fault Refusal :=
  .next (s.chipReset 1 0)

/-- `SUPPLY_RESET` (R477). A rail is beyond its reset level, or above 110 %, for 1 us or more, and the chip resets. -/
def execSupplyReset (rails : Fin 128) (s : State) : Host.Outcome State Fault Refusal :=
  .next (s.chipReset 2 rails.val)

/-- `PIN_RESET` (R477). RESET_L is held low for 1 us or more, and the chip resets. -/
def execPinReset (s : State) : Host.Outcome State Fault Refusal :=
  .next (s.chipReset 3 0)

/-- `THERMAL_RESET` (R477). A die sensor is above 145 C for 10 us or more, and the chip resets. -/
def execThermalReset (s : State) : Host.Outcome State Fault Refusal :=
  .next (s.chipReset 4 0)

/-- `SOFT_RESET` (R477). A write of 0xA5 to CHIP_RST_CMD causes a chip reset 10 us later. -/
def execSoftReset (s : State) : Host.Outcome State Fault Refusal :=
  .next (s.hostWrite (.page 0 0x058) 0xA5000000)

/-- `CXL_RESET` (R478). CXL_PERST_L, a hot reset or a link down clears the CXL state and halts DMA, while the datapath runs
on. -/
def execCxlReset (s : State) : Host.Outcome State Fault Refusal :=
  .next (s.lift fun d => d.cxlSource)

/-- `RESET_RELEASE` (R480). The last chip-reset condition clears and the leave-reset order begins. -/
def execResetRelease (retainedOk : Bool) (s : State) : Host.Outcome State Fault Refusal :=
  .next (s.liftAny fun d => d.release_ retainedOk)

/-- `TIMEBASE_LOCK` (R265). The time-base clock locks; device time starts at 0 and the transmit grid is set up. -/
def execTimebaseLock (s : State) : Host.Outcome State Fault Refusal :=
  .next (s.lift fun d => d.timebaseLock)

/-- `FUSE_LOAD_ATTEMPT` (R483). A fuse load attempt ends and either seals, retries, or enters FUSE_FAULT after three failures.
-/
def execFuseLoadAttempt (copyA copyB : List Word) (s : State) : Host.Outcome State Fault Refusal :=
  .next (s.lift fun d => d.fuseAttempt (copyA.map (·.toNat)) (copyB.map (·.toNat)))

/-- `PWR_WARN` (R493). A rail falls below its warning level for 100 ns, and a dip begins with its freeze. -/
def execPwrWarn (rail : Fin 7) (s : State) : Host.Outcome State Fault Refusal :=
  .next (s.lift fun d => d.pwrWarn rail.val)

/-- `RAIL_GOOD` (R492). A rail returns to its warning level plus 0.5 %, and RST:PWR_WARN is raised for the recovery. -/
def execRailGood (rail : Fin 7) (minMv : Nat) (s : State) : Host.Outcome State Fault Refusal :=
  .next (s.lift fun d => d.railGood rail.val minMv)

/-- `FREEZE_END` (R493). Every rail has been good for 1 ms, so the freeze ends and held operations resume. -/
def execFreezeEnd (s : State) : Host.Outcome State Fault Refusal :=
  .next (s.lift fun d => d.freezeEnd)

/-- `AVS_WRITE_ACK` (R494). The supply acknowledges an AVSBus target write, and the undervoltage window of 200 us begins. -/
def execAvsWriteAck (s : State) : Host.Outcome State Fault Refusal :=
  .next (s.lift fun d => d.avsAck)

/-- `AVS_LEVEL_WINDOW_EXPIRY` (R494). The 200 us after a target write ends, and the VCORE levels follow the new target. -/
def execAvsLevelWindowExpiry (s : State) : Host.Outcome State Fault Refusal :=
  .next (s.lift fun d => d.avsWindowEnd)

/-- `AVS_FAULT` (R497). An AVSBus transaction fails and is retried, or after three retries FAULT is set with retries every 10
ms. -/
def execAvsFault (s : State) : Host.Outcome State Fault Refusal :=
  .next (s.lift fun d => d.avsFailed)

/-- `AVS_READBACK` (R496). The 1 ms read-back of VCORE updates READ_MV and APPLIED. -/
def execAvsReadback (mv : Nat) (s : State) : Host.Outcome State Fault Refusal :=
  .next (s.lift fun d => d.avsReadback mv)

/-- `RST_HOT` (R500). A die sensor crosses HOT_C upward, or falls 5 C below it, and RST:HOT is raised. -/
def execRstHot (temp : Int) (s : State) : Host.Outcome State Fault Refusal :=
  .next (s.lift fun d => d.dieTemp temp)

/-- `RETAIN_CAPTURE` (R488). The device copies its state into the retained store every 1 ms and at the entry of PIN, THERMAL
and SOFT resets. -/
def execRetainCapture (s : State) : Host.Outcome State Fault Refusal :=
  .next (s.lift fun d => d.retCapture)

end Sys2Proof.Machine
end

