-- ==== Sys2Proof/Machine/ExecTime.lean ====
section
/-! DEFINITION. The meanings of Tympan: sources, steps, the span and the transparent clock: one definition for each row of the
opcode table, over the shared operations of the unit. -/

namespace Sys2Proof.Machine

/-- The step is made, and performance monitoring follows it (R186, R275). -/
def Dev.stepApply (d : Dev) : Dev := match d.tym.step with | some r => d.makeStep.pmStep r.delta | none => d

/-- `SRC` (R269). A write of TYM_CTRL.SRC changes the time source and moves the state to ACQUIRE, HOLDOVER or FREERUN. -/
def execSrc (source : Fin 4) (s : State) : Host.Outcome State Fault Refusal :=
  .next (s.lift fun d => d.command .tymC 0 0x040 fun _ => source.val)

/-- `INCR` (R295). A write of TYM_INCR_LO under FREE applies INCR with INCR_HI at the next galley start, or is rejected. -/
def execIncr (lo : Word) (s : State) : Host.Outcome State Fault Refusal :=
  .next (s.lift fun d => d.command .tymC 0 0x048 fun _ => lo.toNat)

/-- `SERVO_UPDATE` (R270). The servo updates, once per second under EXT or every 100 ms under SPAN, steering INCR, requesting
a step or changing state. -/
def execServoUpdate (s : State) : Host.Outcome State Fault Refusal :=
  .next (s.liftRun fun d => d.servoUpdate)

/-- `HOLD_EXPIRED` (R271). HOLD_S reaches the holdover limit, and TYM:HOLD_EXPIRED is raised. -/
def execHoldExpired (s : State) : Host.Outcome State Fault Refusal :=
  .next (s.liftRun fun d => d.holdExpired)

/-- `PPS_IN_EDGE` (R272). A 1PPS_IN edge is captured and accepted, counted as a fault, or counted toward regaining validity.
-/
def execPpsInEdge (stamp : Int) (s : State) : Host.Outcome State Fault Refusal :=
  .next (s.liftRun fun d => d.ppsEdge stamp)

/-- `PPS_IN_WINDOW_EXPIRY` (R272). A 1PPS_IN window passes without an edge, and a fault is counted, which may make the input
invalid. -/
def execPpsInWindowExpiry (s : State) : Host.Outcome State Fault Refusal :=
  .next (s.liftRun fun d => d.ppsWindow)

/-- `TOD_MESSAGE` (R272). A ToD message is received and checked, and seconds disagreeing three times request a step. -/
def execTodMessage (message : TodMessage) (s : State) : Host.Outcome State Fault Refusal :=
  .next (s.liftRun fun d => d.todMessage message)

/-- `TOD_FAULT` (R272). No time event message arrives for 3 s, and TYM:TOD_FAULT code 1 is raised. -/
def execTodFault (s : State) : Host.Outcome State Fault Refusal :=
  .next (s.liftRun fun d => d.todMissing)

/-- `F10_LOST` (R272). The per-second measurement of 10MHZ_IN finds it out of range or back in range, and TYM:F10_LOST is
raised. -/
def execF10Lost (ppb : Int) (s : State) : Host.Outcome State Fault Refusal :=
  .next (s.liftRun fun d => d.f10Measured ppb)

/-- `TIMECAL_EDGE` (R273). A rising edge at TIMECAL_IN is timestamped and counted, or lost within 1 us of the edge before. -/
def execTimecalEdge (stamp : Int) (s : State) : Host.Outcome State Fault Refusal :=
  .next (s.liftRun fun d => (d.timecal stamp).calCapture stamp)

/-- `DEVICE_SECOND` (R274). Device time passes a whole second, and the 1PPS outputs, TOD_OUT, vector 22 and per-second tasks
follow. -/
def execDeviceSecond (s : State) : Host.Outcome State Fault Refusal :=
  .next (s.liftRun fun d => if d.locked then d.tymSecond.monTrigIf 3 else d)

/-- `SET` (R297). A write of TYM_ADJ_CMD SET requests a step that makes device time the given value at the step galley. -/
def execSet (s : State) : Host.Outcome State Fault Refusal :=
  .next (s.lift fun d => d.command .tymT 0 0x05C fun _ => 1)

/-- `STEP` (R297). A write of TYM_ADJ_CMD STEP requests a step of device time by the given signed amount. -/
def execStep (s : State) : Host.Outcome State Fault Refusal :=
  .next (s.lift fun d => d.command .tymT 0 0x05C fun _ => 2)

/-- `STEP_APPLY` (R275). At the step galley device time changes by the step, STEP_EPOCH advances, TYM:STEP is raised and PM
follows. -/
def execStepApply (s : State) : Host.Outcome State Fault Refusal :=
  .next (s.liftRun fun d => d.stepApply)

/-- `SPAN_INTERVAL` (R281). Every 100 ms the carriers' offsets are combined, outliers are rejected, theta is fitted and its
validity is updated. -/
def execSpanInterval (s : State) : Host.Outcome State Fault Refusal :=
  .next (s.liftRun fun d => d.spanInterval)

/-- `ASYM_FIT` (R284). Once per second the dispersion polynomial is fitted and a_disp is updated, or the fit is held stale. -/
def execAsymFit (s : State) : Host.Outcome State Fault Refusal :=
  .next (s.liftRun fun d => d.asymFit)

/-- `PTP_INGRESS` (R289). A TYPE 2 PTP frame is parsed at ingress and its correctionField is edited or range-discarded. -/
def execPtpIngress (flow : Fin 1024) (frame : List Byte) (s : State) : Host.Outcome State Fault Refusal :=
  .next (s.liftRun fun d => d.ptpIngress flow.val (natsOf frame))

/-- `PTP_EGRESS` (R289). A TYPE 2 PTP frame is completed with its residence at departure, or discarded. -/
def execPtpEgress (flow : Fin 1024) (frame : List Byte) (s : State) : Host.Outcome State Fault Refusal :=
  .next (s.liftRun fun d => d.ptpEgress flow.val (natsOf frame))

end Sys2Proof.Machine
end

