-- ==== Sys2Proof/Machine/Dispatch.lean ====
section
/-! DEFINITION. The dispatcher: one arm for each command. -/

namespace Sys2Proof.Machine

/-- The effect of a command on everything but the queue. -/
def exec (i : Instr) (s : State) : Host.Outcome State Fault Refusal :=
  match i with
  | .registerWrite sp value => Sys2Proof.Machine.execRegisterWrite sp value s
  | .rlRead page off => Sys2Proof.Machine.execRlRead page off s
  | .tblCmdRead page autoInc => Sys2Proof.Machine.execTblCmdRead page autoInc s
  | .tblCmdWrite page autoInc => Sys2Proof.Machine.execTblCmdWrite page autoInc s
  | .wcCommitApply commit => Sys2Proof.Machine.execWcCommitApply commit s
  | .blkReset page => Sys2Proof.Machine.execBlkReset page s
  | .freeze page on => Sys2Proof.Machine.execFreeze page on s
  | .fenceRead page => Sys2Proof.Machine.execFenceRead page s
  | .globalFenceWrite value => Sys2Proof.Machine.execGlobalFenceWrite value s
  | .globalFenceRead => Sys2Proof.Machine.execGlobalFenceRead s
  | .evForce page bits => Sys2Proof.Machine.execEvForce page bits s
  | .evqPop queue => Sys2Proof.Machine.execEvqPop queue s
  | .evqRp queue position => Sys2Proof.Machine.execEvqRp queue position s
  | .evqIntegrity queue => Sys2Proof.Machine.execEvqIntegrity queue s
  | .msixHoldoffExpiry queue => Sys2Proof.Machine.execMsixHoldoffExpiry queue s
  | .badAccess read len => Sys2Proof.Machine.execBadAccess read len s
  | .cxlLinkUp cxl width rate => Sys2Proof.Machine.execCxlLinkUp cxl width rate s
  | .cxlLinkDown => Sys2Proof.Machine.execCxlLinkDown s
  | .cxlMemWrite addr enables bytes => Sys2Proof.Machine.execCxlMemWrite addr enables bytes s
  | .hdmZeroDone => Sys2Proof.Machine.execHdmZeroDone s
  | .doeDiscovery dwords index => Sys2Proof.Machine.execDoeDiscovery dwords index s
  | .cdat dwords entry => Sys2Proof.Machine.execCdat dwords entry s
  | .doeAbort => Sys2Proof.Machine.execDoeAbort s
  | .snapNow => Sys2Proof.Machine.execSnapNow s
  | .snapDone => Sys2Proof.Machine.execSnapDone s
  | .captureGo src le dsc => Sys2Proof.Machine.execCaptureGo src le dsc s
  | .captureDone samples => Sys2Proof.Machine.execCaptureDone samples s
  | .dmaTail channel tail => Sys2Proof.Machine.execDmaTail channel tail s
  | .dmaDescriptorStart channel host => Sys2Proof.Machine.execDmaDescriptorStart channel host s
  | .dmaDone channel => Sys2Proof.Machine.execDmaDone channel s
  | .dmaReset channel => Sys2Proof.Machine.execDmaReset channel s
  | .por => Sys2Proof.Machine.execPor s
  | .supplyReset rails => Sys2Proof.Machine.execSupplyReset rails s
  | .pinReset => Sys2Proof.Machine.execPinReset s
  | .thermalReset => Sys2Proof.Machine.execThermalReset s
  | .softReset => Sys2Proof.Machine.execSoftReset s
  | .cxlReset => Sys2Proof.Machine.execCxlReset s
  | .resetRelease retainedOk => Sys2Proof.Machine.execResetRelease retainedOk s
  | .timebaseLock => Sys2Proof.Machine.execTimebaseLock s
  | .fuseLoadAttempt copyA copyB => Sys2Proof.Machine.execFuseLoadAttempt copyA copyB s
  | .pwrWarn rail => Sys2Proof.Machine.execPwrWarn rail s
  | .railGood rail minMv => Sys2Proof.Machine.execRailGood rail minMv s
  | .freezeEnd => Sys2Proof.Machine.execFreezeEnd s
  | .avsWriteAck => Sys2Proof.Machine.execAvsWriteAck s
  | .avsLevelWindowExpiry => Sys2Proof.Machine.execAvsLevelWindowExpiry s
  | .avsFault => Sys2Proof.Machine.execAvsFault s
  | .avsReadback mv => Sys2Proof.Machine.execAvsReadback mv s
  | .rstHot temp => Sys2Proof.Machine.execRstHot temp s
  | .retainCapture => Sys2Proof.Machine.execRetainCapture s
  | .vcoreFloorWrite mv => Sys2Proof.Machine.execVcoreFloorWrite mv s
  | .paceGuardMargin le tx rx txFill rxFill => Sys2Proof.Machine.execPaceGuardMargin le tx rx txFill rxFill s
  | .vcoreStepUp => Sys2Proof.Machine.execVcoreStepUp s
  | .vcoreStepDown => Sys2Proof.Machine.execVcoreStepDown s
  | .rxOverflow le count => Sys2Proof.Machine.execRxOverflow le count s
  | .hlnRxOverflow group flows => Sys2Proof.Machine.execHlnRxOverflow group flows s
  | .txUnderrun le => Sys2Proof.Machine.execTxUnderrun le s
  | .hlnTxUnderrun group => Sys2Proof.Machine.execHlnTxUnderrun group s
  | .txGalleyStart => Sys2Proof.Machine.execTxGalleyStart s
  | .formeStart => Sys2Proof.Machine.execFormeStart s
  | .start le => Sys2Proof.Machine.execStart le s
  | .beacon le => Sys2Proof.Machine.execBeacon le s
  | .stop le => Sys2Proof.Machine.execStop le s
  | .kill le on => Sys2Proof.Machine.execKill le on s
  | .txenFault le => Sys2Proof.Machine.execTxenFault le s
  | .bankGrant => Sys2Proof.Machine.execBankGrant s
  | .bankSoftstartDone le bank => Sys2Proof.Machine.execBankSoftstartDone le bank s
  | .bankSoftstopDone le bank => Sys2Proof.Machine.execBankSoftstopDone le bank s
  | .txenLeadExpiry le => Sys2Proof.Machine.execTxenLeadExpiry le s
  | .rampSlotGrant => Sys2Proof.Machine.execRampSlotGrant s
  | .rampComplete le => Sys2Proof.Machine.execRampComplete le s
  | .txenLagExpiry le => Sys2Proof.Machine.execTxenLagExpiry le s
  | .startHeld le => Sys2Proof.Machine.execStartHeld le s
  | .blSwitch le negotiate => Sys2Proof.Machine.execBlSwitch le negotiate s
  | .blSwitchApply le receive => Sys2Proof.Machine.execBlSwitchApply le receive s
  | .rxBlSwitch le => Sys2Proof.Machine.execRxBlSwitch le s
  | .maskCommit le => Sys2Proof.Machine.execMaskCommit le s
  | .maskSlewStep le => Sys2Proof.Machine.execMaskSlewStep le s
  | .dacGalleyMeasure le channels => Sys2Proof.Machine.execDacGalleyMeasure le channels s
  | .rxEnable le on => Sys2Proof.Machine.execRxEnable le on s
  | .reacq le => Sys2Proof.Machine.execReacq le s
  | .rawLosAssert le => Sys2Proof.Machine.execRawLosAssert le s
  | .rawLosRelease le => Sys2Proof.Machine.execRawLosRelease le s
  | .signalPresent le => Sys2Proof.Machine.execSignalPresent le s
  | .cdSearchDone le candidates => Sys2Proof.Machine.execCdSearchDone le candidates s
  | .freqAcquired le mhz => Sys2Proof.Machine.execFreqAcquired le mhz s
  | .meqConverged le => Sys2Proof.Machine.execMeqConverged le s
  | .trlLocked le => Sys2Proof.Machine.execTrlLocked le s
  | .pilotLocked le => Sys2Proof.Machine.execPilotLocked le s
  | .acqTimeout le => Sys2Proof.Machine.execAcqTimeout le s
  | .lossOfLock le cause => Sys2Proof.Machine.execLossOfLock le cause s
  | .rxGalleyComplete le galley => Sys2Proof.Machine.execRxGalleyComplete le galley s
  | .cdeStep le => Sys2Proof.Machine.execCdeStep le s
  | .rxPrbsLock le dsc bits => Sys2Proof.Machine.execRxPrbsLock le dsc bits s
  | .fecCfg le rate code => Sys2Proof.Machine.execFecCfg le rate code s
  | .fecIterCommit le => Sys2Proof.Machine.execFecIterCommit le s
  | .fecClear le => Sys2Proof.Machine.execFecClear le s
  | .formeReceived le forme => Sys2Proof.Machine.execFormeReceived le forme s
  | .defectIntegrationUnit carrier unit => Sys2Proof.Machine.execDefectIntegrationUnit carrier unit s
  | .pmSecondEnd => Sys2Proof.Machine.execPmSecondEnd s
  | .pmSecondCommit => Sys2Proof.Machine.execPmSecondCommit s
  | .pmClr => Sys2Proof.Machine.execPmClr s
  | .deskewRelease gnum fnum => Sys2Proof.Machine.execDeskewRelease gnum fnum s
  | .deskewTimeout gnum fnum => Sys2Proof.Machine.execDeskewTimeout gnum fnum s
  | .placeCompute => Sys2Proof.Machine.execPlaceCompute s
  | .placeTry mask => Sys2Proof.Machine.execPlaceTry mask s
  | .bsigFreeze => Sys2Proof.Machine.execBsigFreeze s
  | .txMapSwitch => Sys2Proof.Machine.execTxMapSwitch s
  | .bsigReceive gnum => Sys2Proof.Machine.execBsigReceive gnum s
  | .rxMapSwitch gnum => Sys2Proof.Machine.execRxMapSwitch gnum s
  | .commit => Sys2Proof.Machine.execCommit s
  | .cancel => Sys2Proof.Machine.execCancel s
  | .mapSwitchTimeout => Sys2Proof.Machine.execMapSwitchTimeout s
  | .returnBundle mask => Sys2Proof.Machine.execReturnBundle mask s
  | .departureComplete le => Sys2Proof.Machine.execDepartureComplete le s
  | .departForced le => Sys2Proof.Machine.execDepartForced le s
  | .hlnGroupEn group on => Sys2Proof.Machine.execHlnGroupEn group on s
  | .retrain group => Sys2Proof.Machine.execRetrain group s
  | .rejoin group => Sys2Proof.Machine.execRejoin group s
  | .laneSignalDetect group phys => Sys2Proof.Machine.execLaneSignalDetect group phys s
  | .laneSignalLoss group phys => Sys2Proof.Machine.execLaneSignalLoss group phys s
  | .rimshot group phys symbols => Sys2Proof.Machine.execRimshot group phys symbols s
  | .laneTuneDone group lane snr dfe ctle => Sys2Proof.Machine.execLaneTuneDone group lane snr dfe ctle s
  | .laneTimeout group lane => Sys2Proof.Machine.execLaneTimeout group lane s
  | .laneBackoffExpiry group lane => Sys2Proof.Machine.execLaneBackoffExpiry group lane s
  | .groupAlign group skew => Sys2Proof.Machine.execGroupAlign group skew s
  | .groupRunEntry group => Sys2Proof.Machine.execGroupRunEntry group s
  | .hlnBlockReceive group block => Sys2Proof.Machine.execHlnBlockReceive group block s
  | .hlnBlockSend group clock => Sys2Proof.Machine.execHlnBlockSend group clock s
  | .laneLost group lane cause => Sys2Proof.Machine.execLaneLost group lane cause s
  | .peerStuck group => Sys2Proof.Machine.execPeerStuck group s
  | .pairMergeTimeout flow => Sys2Proof.Machine.execPairMergeTimeout flow s
  | .hlnPrbsLock group lane levels => Sys2Proof.Machine.execHlnPrbsLock group lane levels s
  | .src source => Sys2Proof.Machine.execSrc source s
  | .incr lo => Sys2Proof.Machine.execIncr lo s
  | .servoUpdate => Sys2Proof.Machine.execServoUpdate s
  | .holdExpired => Sys2Proof.Machine.execHoldExpired s
  | .ppsInEdge stamp => Sys2Proof.Machine.execPpsInEdge stamp s
  | .ppsInWindowExpiry => Sys2Proof.Machine.execPpsInWindowExpiry s
  | .todMessage message => Sys2Proof.Machine.execTodMessage message s
  | .todFault => Sys2Proof.Machine.execTodFault s
  | .f10Lost ppb => Sys2Proof.Machine.execF10Lost ppb s
  | .timecalEdge stamp => Sys2Proof.Machine.execTimecalEdge stamp s
  | .deviceSecond => Sys2Proof.Machine.execDeviceSecond s
  | .set => Sys2Proof.Machine.execSet s
  | .step => Sys2Proof.Machine.execStep s
  | .stepApply => Sys2Proof.Machine.execStepApply s
  | .spanInterval => Sys2Proof.Machine.execSpanInterval s
  | .asymFit => Sys2Proof.Machine.execAsymFit s
  | .ptpIngress flow frame => Sys2Proof.Machine.execPtpIngress flow frame s
  | .ptpEgress flow frame => Sys2Proof.Machine.execPtpEgress flow frame s
  | .chimePreamble le metric bytes => Sys2Proof.Machine.execChimePreamble le metric bytes s
  | .chimeLockTimeout le => Sys2Proof.Machine.execChimeLockTimeout le s
  | .chimeSend le => Sys2Proof.Machine.execChimeSend le s
  | .helloSend le => Sys2Proof.Machine.execHelloSend le s
  | .hello le bytes => Sys2Proof.Machine.execHello le bytes s
  | .timeReportSend => Sys2Proof.Machine.execTimeReportSend s
  | .timeReport le bytes => Sys2Proof.Machine.execTimeReport le bytes s
  | .stepNoticeSend => Sys2Proof.Machine.execStepNoticeSend s
  | .stepNotice le bytes => Sys2Proof.Machine.execStepNotice le bytes s
  | .blPropose le bytes => Sys2Proof.Machine.execBlPropose le bytes s
  | .blProposeRepeat le => Sys2Proof.Machine.execBlProposeRepeat le s
  | .blAnswer le bytes => Sys2Proof.Machine.execBlAnswer le bytes s
  | .blProposeTimeout le => Sys2Proof.Machine.execBlProposeTimeout le s
  | .snrReportSend le => Sys2Proof.Machine.execSnrReportSend le s
  | .snrReport le bytes => Sys2Proof.Machine.execSnrReport le bytes s
  | .transfer le bytes => Sys2Proof.Machine.execTransfer le bytes s
  | .receipt le bytes => Sys2Proof.Machine.execReceipt le bytes s
  | .transferRetry => Sys2Proof.Machine.execTransferRetry s
  | .transferPartialExpiry xid => Sys2Proof.Machine.execTransferPartialExpiry xid s
  | .partnerAbsent le => Sys2Proof.Machine.execPartnerAbsent le s
  | .importKey => Sys2Proof.Machine.execImportKey s
  | .importComplete => Sys2Proof.Machine.execImportComplete s
  | .generate slot => Sys2Proof.Machine.execGenerate slot s
  | .arm slot => Sys2Proof.Machine.execArm slot s
  | .erase slot => Sys2Proof.Machine.execErase slot s
  | .eraseFlow slot => Sys2Proof.Machine.execEraseFlow slot s
  | .zeroise => Sys2Proof.Machine.execZeroise s
  | .nonce => Sys2Proof.Machine.execNonce s
  | .alarmClear => Sys2Proof.Machine.execAlarmClear s
  | .eraseApply => Sys2Proof.Machine.execEraseApply s
  | .transportCheckDone sigOk => Sys2Proof.Machine.execTransportCheckDone sigOk s
  | .ksigReceive gnum => Sys2Proof.Machine.execKsigReceive gnum s
  | .switched flow => Sys2Proof.Machine.execSwitched flow s
  | .carillonAlarm conditions => Sys2Proof.Machine.execCarillonAlarm conditions s
  | .anchorInstall => Sys2Proof.Machine.execAnchorInstall s
  | .pairInstall => Sys2Proof.Machine.execPairInstall s
  | .pairClear => Sys2Proof.Machine.execPairClear s
  | .romBoot slotA slotB chain chainOk => Sys2Proof.Machine.execRomBoot slotA slotB chain chainOk s
  | .identityDerived => Sys2Proof.Machine.execIdentityDerived s
  | .identityTimeout => Sys2Proof.Machine.execIdentityTimeout s
  | .load lenKib => Sys2Proof.Machine.execLoad lenKib s
  | .hostImageCheckDone => Sys2Proof.Machine.execHostImageCheckDone s
  | .getVersion dwords => Sys2Proof.Machine.execGetVersion dwords s
  | .getCapabilities dwords => Sys2Proof.Machine.execGetCapabilities dwords s
  | .negotiateAlgorithms dwords => Sys2Proof.Machine.execNegotiateAlgorithms dwords s
  | .getDigests dwords => Sys2Proof.Machine.execGetDigests dwords s
  | .getCertificate dwords slot offset len => Sys2Proof.Machine.execGetCertificate dwords slot offset len s
  | .challenge dwords slot summary => Sys2Proof.Machine.execChallenge dwords slot summary s
  | .getMeasurements dwords operation signed => Sys2Proof.Machine.execGetMeasurements dwords operation signed s
  | .spdmUnsupportedRequest dwords => Sys2Proof.Machine.execSpdmUnsupportedRequest dwords s
  | .fetchTrap core region off => Sys2Proof.Machine.execFetchTrap core region off s
  | .coreRestart core ok => Sys2Proof.Machine.execCoreRestart core ok s
  | .calRunAdc le => Sys2Proof.Machine.execCalRunAdc le s
  | .calRunDac le => Sys2Proof.Machine.execCalRunDac le s
  | .calRunTxpath le => Sys2Proof.Machine.execCalRunTxpath le s
  | .calRunRxpath le => Sys2Proof.Machine.execCalRunRxpath le s
  | .calRunMon => Sys2Proof.Machine.execCalRunMon s
  | .restore => Sys2Proof.Machine.execRestore s
  | .abort => Sys2Proof.Machine.execAbort s
  | .hold => Sys2Proof.Machine.execHold s
  | .settle => Sys2Proof.Machine.execSettle s
  | .measure result => Sys2Proof.Machine.execMeasure result s
  | .apply => Sys2Proof.Machine.execApply s
  | .calDrift temps => Sys2Proof.Machine.execCalDrift temps s
  | .go => Sys2Proof.Machine.execGo s
  | .monPeriodTrigger => Sys2Proof.Machine.execMonPeriodTrigger s
  | .monConversionDone code scaled => Sys2Proof.Machine.execMonConversionDone code scaled s
  | .monInj gain input => Sys2Proof.Machine.execMonInj gain input s
  | .monData => Sys2Proof.Machine.execMonData s
  | .monTdac on input value => Sys2Proof.Machine.execMonTdac on input value s
  | .scrubVisit struck => Sys2Proof.Machine.execScrubVisit struck s
  | .lapLate region => Sys2Proof.Machine.execLapLate region s
  | .trackerEntryExpiry region entry => Sys2Proof.Machine.execTrackerEntryExpiry region entry s
  | .spared region spare => Sys2Proof.Machine.execSpared region spare s
  | .eccInj region bits => Sys2Proof.Machine.execEccInj region bits s
  | .cxlMemRead addr => Sys2Proof.Machine.execCxlMemRead addr s
  | .generateLoadComplete => Sys2Proof.Machine.execGenerateLoadComplete s
  | .trustCmdDone => Sys2Proof.Machine.execTrustCmdDone s

end Sys2Proof.Machine
end

