-- ==== Sys2Proof/Safety.lean ====
section
/-! DEFINITION. What claims call a completed step, an accepted write and a unit that runs, and what they ask of every state. -/

namespace Sys2Proof.Machine

/-- A step completes: it answers a next state. -/
def Completes (o : Host.Outcome State Fault Refusal) : Prop := ∃ t, o = .next t

/-- The invariant of the HDM bytes: they are in canonical form. -/
abbrev State.MemOk (s : State) : Prop := Memory.wf s.mem = true

/-- The machine with its device replaced: the HDM bytes and the waiting commands stand. -/
def State.withDev (s : State) (d : Dev) : State := { s with dev := d }

/-- Register access answers: the part is out of reset (R477). -/
abbrev State.Live (s : State) : Prop := s.dev.power.inReset = false

/-- The part's units run: out of reset and not in FUSE_FAULT (R481, R484). -/
abbrev State.Runs (s : State) : Prop := s.dev.runs = true

/-- A write of word `w` at offset `off` of a page is accepted: the page exists and answers, and no check of R452 fails. -/
abbrev State.Accepts (s : State) (k : PageKind) (i off w : Nat) : Prop :=
  s.Live ∧ decodePage (pageOf k i) = some (k, i) ∧ s.dev.pageServed (pageOf k i) = true ∧ s.dev.writeErrs k i off w = []

/-- The device once the fields of an accepted write have taken the word. -/
def State.stored (s : State) (k : PageKind) (i off w : Nat) : Dev := s.dev.storeWord k i off w

/-- The settings that a register holds, as the word that writes them back. -/
def State.kept (s : State) (k : PageKind) (i off : Nat) : Nat := s.dev.keepWord k i off

/-- A write of word `w` at offset `off` of a page is turned away with error `e` (R452). -/
abbrev State.Rejects (s : State) (k : PageKind) (i off w : Nat) (e : Err) : Prop :=
  s.Live ∧ decodePage (pageOf k i) = some (k, i) ∧ s.dev.pageServed (pageOf k i) = true ∧
    firstErr (s.dev.writeErrs k i off w) = some e

/-- Is the key that of a field which raising an event writes: EV_LATCH, EV_COUNT, or the drop count of a queue? -/
def evKey (k : Nat) : Bool :=
  k / 8 % 4096 == 0x24 || k / 8 % 4096 == 0x34 || (k / 8 % 4096 == 0x58 && decide (0x20 ≤ k / 8 / 4096) && decide (k / 8 / 4096 < 0x24))

/-- Two devices that differ at most in what raising events changes. -/
def Dev.EventsOnly (d e : Dev) : Prop :=
  e = { d with regs := e.regs, queues := e.queues, ret := e.ret, vec := e.vec, msix := e.msix } ∧
    ∀ k, evKey k = false → Store.get regReset e.regs k = Store.get regReset d.regs k

/-- Two devices that differ at most in the register fields with keys in `p` and in what raising events changes. -/
def Dev.FieldsOnly (p : Nat → Bool) (d e : Dev) : Prop :=
  e = { d with regs := e.regs, queues := e.queues, ret := e.ret, vec := e.vec, msix := e.msix } ∧
    ∀ k, evKey k = false → p k = false → Store.get regReset e.regs k = Store.get regReset d.regs k

/-- The keys of a list of fields of page instance `i`. -/
def keysOf (l : List Fld) (i : Nat) (k : Nat) : Bool := l.any fun f => f.key i 0 == k

/-- The device once a packet of line engine `n` has been heard, its chime is locked, and its number is taken (R307, R309). -/
def Dev.packetHeard (d : Dev) (n : Nat) (b : List Nat) : Dev :=
  ((((d.heardNone n).chimeLocked n).partnerHeard n).chimeNumber n (packetNumber b) false).1

/-- A packet of `type` other than HELLO that is taken in: heard, whole, of this line engine's carrier, from the partner, of the type's
length, and not stale (R303 to R310). -/
abbrev Dev.PacketTaken (d : Dev) (n type : Nat) (b : List Nat) : Prop :=
  d.hears n = true ∧ headerOk b = true ∧ payloadOk b = true ∧ b.getD 0 0 = type ∧ type ≠ tyHello ∧ b.getD 2 0 % 8 = n ∧
    (((d.heardNone n).chimeLocked n).le n).partner = true ∧ lenOk type (payloadOf b).length = true ∧
    ((((d.heardNone n).chimeLocked n).partnerHeard n).chimeNumber n (packetNumber b) false).2 = true

end Sys2Proof.Machine
end

