-- ==== Sys2Proof/WellFormed.lean ====
section
/-! DEFINITION. Well-formed commands: the operands that the types leave open lie in the ranges that the spec gives them. -/

namespace Sys2Proof

/-- A page of BAR0 (ch. 14, the BAR table). -/
def pageWf (p : Nat) : Bool := decide (p < 0x400)

/-- A place in the address space: BAR0 has 1,024 pages of 4 KiB. -/
def Space.wf : Space → Bool
  | .page p off => pageWf p && decide (off < 0x1000)
  | .msix _ _ => true
  | .decoder => true

/-- A galley and a forme number (R4). -/
def numbersWf (g r : Nat) : Bool := decide (g < 4294967296) && decide (r < 16)

/-- A chime packet is at most its header, 496 bytes of payload and PCRC (R303, R304). -/
def packetWf (b : List Byte) : Bool := decide (b.length ≤ 510)

/-- The figures of a galley come for the four inputs XI, XQ, YI and YQ. -/
def RxGalley.wf (m : RxGalley) : Bool := m.rms.length == 4 && m.clips.length == 4 && m.spur.length == 4

/-- A forme's symbols and SNR come for sixteen subcarriers on two polarisations. -/
def Received.wf (m : Received) : Bool := m.syms.length == 32 && m.snr.length == 32

/-- The counts of a lane clock rise from beat to beat, and two beats at least bracket an edge (R267). -/
def rising : List Nat → Bool
  | a :: b :: rest => decide (a < b) && rising (b :: rest)
  | _ => true
def LaneClock.wf (c : LaneClock) : Bool := decide (2 ≤ c.counts.length) && rising c.counts

/-- A block has eight physical lanes of 5,440 data symbols each (R234). -/
def HostBlock.wf (b : HostBlock) : Bool :=
  b.lanes.length == 8 && b.lanes.all fun l => l.levels.length == 5440 && l.clock.wf

/-- Is a command well formed? (Log 5: DESIGN CHOICE) -/
def Instr.wf (i : Instr) : Bool :=
  match i with
  | .registerWrite sp _ => sp.wf
  | .rlRead p off => (Space.page p off).wf
  | .tblCmdRead p _ => pageWf p
  | .tblCmdWrite p _ => pageWf p
  | .wcCommitApply _ => true
  | .blkReset p => pageWf p
  | .freeze p _ => pageWf p
  | .fenceRead p => pageWf p
  | .globalFenceWrite _ => true
  | .globalFenceRead => true
  | .evForce p _ => pageWf p
  | .evqPop _ => true
  | .evqRp _ _ => true
  | .evqIntegrity _ => true
  | .msixHoldoffExpiry _ => true
  | .badAccess _ len => decide (1 ≤ len)
  | .cxlLinkUp _ width rate => [1, 2, 4, 8].contains width && decide (1 ≤ rate) && decide (rate ≤ 5)
  | .cxlLinkDown => true
  | .cxlMemWrite addr _ bytes => decide (addr < 0x10000000) && bytes.length == 64
  | .hdmZeroDone => true
  | .doeDiscovery _ index => decide (index < 256)
  | .cdat _ entry => decide (entry < 65536)
  | .doeAbort => true
  | .snapNow => true
  | .snapDone => true
  | .captureGo _ _ _ => true
  | .captureDone samples => samples.length % 2 == 0
  | .dmaTail _ _ => true
  | .dmaDescriptorStart _ _ => true
  | .dmaDone _ => true
  | .dmaReset _ => true
  | .por => true
  | .supplyReset _ => true
  | .pinReset => true
  | .thermalReset => true
  | .softReset => true
  | .cxlReset => true
  | .resetRelease _ => true
  | .timebaseLock => true
  | .fuseLoadAttempt a b => a.length == 1024 && b.length == 1024
  | .pwrWarn _ => true
  | .railGood _ _ => true
  | .freezeEnd => true
  | .avsWriteAck => true
  | .avsLevelWindowExpiry => true
  | .avsFault => true
  | .avsReadback _ => true
  | .rstHot _ => true
  | .retainCapture => true
  | .vcoreFloorWrite _ => true
  | .paceGuardMargin _ _ _ _ _ => true
  | .vcoreStepUp => true
  | .vcoreStepDown => true
  | .rxOverflow _ _ => true
  | .hlnRxOverflow _ _ => true
  | .txUnderrun _ => true
  | .hlnTxUnderrun _ => true
  | .txGalleyStart => true
  | .formeStart => true
  | .start _ => true
  | .beacon _ => true
  | .stop _ => true
  | .kill _ _ => true
  | .txenFault _ => true
  | .bankGrant => true
  | .bankSoftstartDone _ _ => true
  | .bankSoftstopDone _ _ => true
  | .txenLeadExpiry _ => true
  | .rampSlotGrant => true
  | .rampComplete _ => true
  | .txenLagExpiry _ => true
  | .startHeld _ => true
  | .blSwitch _ _ => true
  | .blSwitchApply _ _ => true
  | .rxBlSwitch _ => true
  | .maskCommit _ => true
  | .maskSlewStep _ => true
  | .dacGalleyMeasure _ channels => channels.length == 4
  | .rxEnable _ _ => true
  | .reacq _ => true
  | .rawLosAssert _ => true
  | .rawLosRelease _ => true
  | .signalPresent _ => true
  | .cdSearchDone _ l => decide (1 ≤ l.length) && decide (l.length ≤ 4)
  | .freqAcquired _ _ => true
  | .meqConverged _ => true
  | .trlLocked _ => true
  | .pilotLocked _ => true
  | .acqTimeout _ => true
  | .lossOfLock _ cause => decide (1 ≤ cause) && decide (cause ≤ 6)
  | .rxGalleyComplete _ m => m.wf
  | .cdeStep _ => true
  | .rxPrbsLock _ _ _ => true
  | .fecCfg _ _ _ => true
  | .fecIterCommit _ => true
  | .fecClear _ => true
  | .formeReceived _ m => m.wf
  | .defectIntegrationUnit _ _ => true
  | .pmSecondEnd => true
  | .pmSecondCommit => true
  | .pmClr => true
  | .deskewRelease g r => numbersWf g r
  | .deskewTimeout g r => numbersWf g r
  | .placeCompute => true
  | .placeTry _ => true
  | .bsigFreeze => true
  | .txMapSwitch => true
  | .bsigReceive g => decide (g < 4294967296)
  | .rxMapSwitch g => decide (g < 4294967296)
  | .commit => true
  | .cancel => true
  | .mapSwitchTimeout => true
  | .returnBundle _ => true
  | .departureComplete _ => true
  | .departForced _ => true
  | .hlnGroupEn _ _ => true
  | .retrain _ => true
  | .rejoin _ => true
  | .laneSignalDetect _ _ => true
  | .laneSignalLoss _ _ => true
  | .rimshot _ _ symbols => symbols.length == 128
  | .laneTuneDone _ _ _ _ _ => true
  | .laneTimeout _ _ => true
  | .laneBackoffExpiry _ _ => true
  | .groupAlign _ skew => skew.length == 8
  | .groupRunEntry _ => true
  | .hlnBlockReceive _ b => b.wf
  | .hlnBlockSend _ clock => clock.wf
  | .laneLost _ _ _ => true
  | .peerStuck _ => true
  | .pairMergeTimeout _ => true
  | .hlnPrbsLock _ _ _ => true
  | .src _ => true
  | .incr _ => true
  | .servoUpdate => true
  | .holdExpired => true
  | .ppsInEdge _ => true
  | .ppsInWindowExpiry => true
  | .todMessage _ => true
  | .todFault => true
  | .f10Lost _ => true
  | .timecalEdge _ => true
  | .deviceSecond => true
  | .set => true
  | .step => true
  | .stepApply => true
  | .spanInterval => true
  | .asymFit => true
  | .ptpIngress _ frame => decide (frame.length ≤ 65535)
  | .ptpEgress _ frame => decide (frame.length ≤ 65535)
  | .chimePreamble _ _ b => packetWf b
  | .chimeLockTimeout _ => true
  | .chimeSend _ => true
  | .helloSend _ => true
  | .hello _ b => packetWf b
  | .timeReportSend => true
  | .timeReport _ b => packetWf b
  | .stepNoticeSend => true
  | .stepNotice _ b => packetWf b
  | .blPropose _ b => packetWf b
  | .blProposeRepeat _ => true
  | .blAnswer _ b => packetWf b
  | .blProposeTimeout _ => true
  | .snrReportSend _ => true
  | .snrReport _ b => packetWf b
  | .transfer _ b => packetWf b
  | .receipt _ b => packetWf b
  | .transferRetry => true
  | .transferPartialExpiry xid => decide (xid < 65536)
  | .partnerAbsent _ => true
  | .importKey => true
  | .importComplete => true
  | .generate _ => true
  | .arm _ => true
  | .erase _ => true
  | .eraseFlow _ => true
  | .zeroise => true
  | .nonce => true
  | .alarmClear => true
  | .eraseApply => true
  | .transportCheckDone _ => true
  | .ksigReceive g => decide (g < 4294967296)
  | .switched _ => true
  | .carillonAlarm _ => true
  | .anchorInstall => true
  | .pairInstall => true
  | .pairClear => true
  | .romBoot _ _ _ _ => true
  | .identityDerived => true
  | .identityTimeout => true
  | .load _ => true
  | .hostImageCheckDone => true
  | .getVersion _ => true
  | .getCapabilities _ => true
  | .negotiateAlgorithms _ => true
  | .getDigests _ => true
  | .getCertificate _ _ _ _ => true
  | .challenge _ _ _ => true
  | .getMeasurements _ _ _ => true
  | .spdmUnsupportedRequest _ => true
  | .fetchTrap _ _ _ => true
  | .coreRestart _ _ => true
  | .calRunAdc _ => true
  | .calRunDac _ => true
  | .calRunTxpath _ => true
  | .calRunRxpath _ => true
  | .calRunMon => true
  | .restore => true
  | .abort => true
  | .hold => true
  | .settle => true
  | .measure _ => true
  | .apply => true
  | .calDrift temps => temps.length == 8
  | .go => true
  | .monPeriodTrigger => true
  | .monConversionDone code _ => decide (code < 4096)
  | .monInj _ _ => true
  | .monData => true
  | .monTdac _ _ _ => true
  | .scrubVisit _ => true
  | .lapLate _ => true
  | .trackerEntryExpiry _ _ => true
  | .spared _ _ => true
  | .eccInj _ _ => true
  | .cxlMemRead addr => decide (addr < 0x10000000)
  | .generateLoadComplete => true
  | .trustCmdDone => true

end Sys2Proof
end

