-- ==== Sys2Proof/Certificates/Slice0/Obligations.lean ====
section
/-! DEFINITION. The statements for the provers: what each command does, what it leaves alone, and what every step keeps. A
statement of the form `exec c s = .next (s.withDev d)` gives the whole next state: the HDM bytes and the waiting commands stand,
and the device is `d`. -/

open Sys2Proof Sys2Proof.Machine

/-! ### The machine -/

/-- A command at the front of the queue is run with the queue's rest. The queue is the model's interface, not the spec's. -/
def Obligations.StepRunsFrontCommand : Prop :=
  ∀ (c : Instr) (s : State), step { s with pending := c :: s.pending } = exec c s

/-- On an empty queue the block idles. DESIGN CHOICE of log entry 3: one 32 ns beat of the time base of R262 passes, and out of
reset nothing but time moves. -/
def Obligations.EmptyQueueIdles : Prop :=
  ∀ s : State, s.pending = [] → s.Live →
    ∃ t, step s = .next t ∧ t.pending = [] ∧ t.mem = s.mem ∧ t.dev.now = s.dev.now + 32 ∧
      t.dev = { s.dev with now := t.dev.now, dt := t.dev.dt }

/-- No command waits after reset, no HDM byte differs from zero, and the memory is in canonical form; the fuses are not sealed
(R482), the time base is not locked (R265), every carrier is OFF and its receive path IDLE (R75, R115), every event queue is
empty (R460) and no carrier is a member (R19). -/
def Obligations.ResetLeaves : Prop :=
  State.reset.pending = [] ∧ State.reset.mem = [] ∧ State.reset.MemOk ∧
    State.reset.dev.flag Reg.CHIP_SEAL.SEALED 0 = false ∧ State.reset.dev.locked = false ∧
    (∀ n : Fin 8, State.reset.dev.txState n.val = 0 ∧ State.reset.dev.rxState n.val = 0 ∧ State.reset.dev.member n.val = false) ∧
    (∀ q : Fin 4, (State.reset.dev.queue q.val).depth = 0)

/-- Every step keeps the HDM bytes in canonical form. -/
def Obligations.StepKeepsMemoryForm : Prop :=
  ∀ s t : State, s.MemOk → step s = .next t → t.MemOk

/-- The commands that may change a byte of HDM: chip resets and the write that causes one, CXL.mem writes, the zeroing,
captures, DMA, and the copy into a spare of region 8. -/
def Obligations.OtherCommandsLeaveMemory : Prop :=
  ∀ (c : Instr) (s t : State), exec c s = .next t →
    (match c with
      | .registerWrite _ _ | .softReset | .por | .supplyReset _ | .pinReset | .thermalReset | .cxlMemWrite _ _ _ | .hdmZeroDone
      | .captureDone _ | .dmaDescriptorStart _ _ => True
      | .spared r _ => r.val = 8 ∨ t.mem = s.mem
      | _ => t.mem = s.mem)

/-- No command touches the queue of waiting commands. -/
def Obligations.CommandsLeaveQueue : Prop :=
  ∀ (c : Instr) (s t : State), exec c s = .next t → t.pending = s.pending

/-- Every well-formed command completes; a CXL.mem access does so within the range that the device claims (R433, R439). -/
def Obligations.WellFormedCommandsComplete : Prop :=
  ∀ (c : Instr) (s : State), c.wf = true →
    (match c with
      | .cxlMemWrite addr _ _ => addr < s.dev.memSize
      | .cxlMemRead addr => addr < s.dev.memSize
      | _ => True) →
    Completes (exec c s)

/-- An access outside the pages of BAR0, or outside the memory range that the device claims, stops: no such address exists. -/
def Obligations.OutsideAddressesFault : Prop :=
  ∀ (s : State) (p off : Nat) (v : Word) (addr : Nat) (en : BitVec 64) (b : List Byte),
    ((0x400 ≤ p ∨ 0x1000 ≤ off) →
      exec (.registerWrite (.page p off) v) s = .fault .noSuchAddress ∧ exec (.rlRead p off) s = .fault .noSuchAddress) ∧
    (s.dev.memSize ≤ addr →
      exec (.cxlMemWrite addr en b) s = .fault .noSuchAddress ∧ exec (.cxlMemRead addr) s = .fault .noSuchAddress)

/-! ### HDM (R417, R420, R439, R442) -/

/-- A CXL.mem write within an area that takes writes: an enabled byte reads as written and has no error; a byte that is not
enabled, and every byte outside the line, reads as before, and an unwritten byte keeps its error. Completes cxlMemWrite. -/
def Obligations.LineWriteStoresEnabledBytes : Prop :=
  ∀ (s : State) (addr : Nat) (en : BitVec 64) (b : List Byte),
    s.Live → addr < s.dev.memSize → s.dev.memServed = true → s.dev.host.active = true → b.length = 64 →
    0x1000000 ≤ addr → addr < 0x1F00000 →
    ∃ t, exec (.cxlMemWrite addr en b) s = .next t ∧ t.pending = s.pending ∧
      (∀ off, t.hdmByte off =
        if addr / 64 * 64 ≤ off ∧ off < addr / 64 * 64 + 64 ∧ bitOf en.toNat (off - addr / 64 * 64) = true then
          (b.getD (off - addr / 64 * 64) 0).toNat
        else s.hdmByte off) ∧
      (∀ off, off < 0x2000000 → t.dev.badByte 8 off =
        if addr / 64 * 64 ≤ off ∧ off < addr / 64 * 64 + 64 ∧ bitOf en.toNat (off - addr / 64 * 64) = true then BadByte.none
        else s.dev.badByte 8 off) ∧
      ∃ x, t.dev = { s.dev with ecc := x }

/-- A CXL.mem write to an area that takes none, or before HDM is served, changes nothing. The zeroing ends: every byte is zero,
and `Memory_Active` is set; without the seal, or once done, nothing happens. Completes hdmZeroDone. -/
def Obligations.HdmWritesDiscardedOrZeroed : Prop :=
  (
    ∀ (s : State) (addr : Nat) (en : BitVec 64) (b : List Byte), addr < s.dev.memSize →
      (s.dev.memServed = false ∨ s.dev.host.active = false ∨ addr < 0x1000000 ∨ 0x1F00000 ≤ addr) →
      exec (.cxlMemWrite addr en b) s = .next s) ∧
  (
    ∀ s : State, s.Live →
      (s.dev.flag Reg.CHIP_SEAL.SEALED 0 = true → s.dev.host.zeroed = false →
        exec .hdmZeroDone s = .next { s with
          mem := [], dev := { s.dev with host := { s.dev.host with zeroed := true, active := true } } }) ∧
      ((s.dev.flag Reg.CHIP_SEAL.SEALED 0 = false ∨ s.dev.host.zeroed = true) → exec .hdmZeroDone s = .next s))

/-- A CXL.mem read answers the 64 bytes of the line and whether it is poisoned; without an error in the line nothing else
changes. Completes cxlMemRead. -/
def Obligations.LineReadAnswers : Prop :=
  ∀ (s : State) (addr : Nat), s.Live → addr < s.dev.memSize → s.dev.memServed = true →
    (s.dev.host.active = true → addr < 0x2000000 → s.dev.ecc.bad = [] →
      exec (.cxlMemRead addr) s = .next (s.withDev
        { s.dev with readData := ((List.range 64).map fun i => s.hdmByte (addr / 64 * 64 + i)) ++ [0] })) ∧
    ((s.dev.host.active = false ∨ 0x2000000 ≤ addr) →
      exec (.cxlMemRead addr) s = .next (s.withDev { s.dev with readData := List.replicate 65 0 }))

/-! ### Register writes and reads (R9, R447, R452 to R457) -/

/-- An accepted write has the register's effect. Completes registerWrite. -/
def Obligations.AcceptedWriteTakesEffect : Prop :=
  ∀ (s : State) (k : PageKind) (i p off : Nat) (v : Word),
    s.Accepts k i off v.toNat → pageOf k i = p → off % 4 = 0 → p < 0x400 → off < 0x1000 →
    ¬(p = 0 ∧ (off = 0x58 ∨ off = 0x80)) →
    exec (.registerWrite (.page p off) v) s = .next (s.withDev (s.dev.writeEffect k i off v.toNat))

/-- A rejected write leaves every field of the register, and every other field, unchanged; ERR_CODE and ERR_OFFSET take its code
and offset, and ERR_COUNT counts it. -/
def Obligations.RejectedWriteChangesHeaderOnly : Prop :=
  ∀ (s : State) (k : PageKind) (i p off : Nat) (v : Word) (e : Err),
    s.Rejects k i off v.toNat e → pageOf k i = p → off % 4 = 0 → p < 0x400 → off < 0x1000 → ¬(p = 0 ∧ off = 0x80) →
    ∃ t, exec (.registerWrite (.page p off) v) s = .next t ∧
      t.dev.get Hdr.ERR_CODE.CODE p = e.code ∧ t.dev.get Hdr.ERR_OFFSET.OFFSET p = off ∧
      t.dev.get Hdr.ERR_COUNT.COUNT p = capN 0xFFFF (s.dev.get Hdr.ERR_COUNT.COUNT p + 1) ∧
      (∀ key, key ≠ Hdr.ERR_CODE.CODE.key p 0 → key ≠ Hdr.ERR_OFFSET.OFFSET.key p 0 → key ≠ Hdr.ERR_COUNT.COUNT.key p 0 →
        Store.get regReset t.dev.regs key = Store.get regReset s.dev.regs key) ∧
      t = s.withDev { s.dev with regs := t.dev.regs }

/-- A write that sets a bit of no field, or goes to an undefined offset, is rejected with E_RESERVED, whatever other check
fails, and every register field but the header's error record keeps its value. -/
def Obligations.ReservedBitsRejected : Prop :=
  ∀ (s : State) (k : PageKind) (i p off b : Nat) (v : Word),
    s.Live → pageOf k i = p → decodePage p = some (k, i) → s.dev.pageServed p = true → p < 0x400 → off < 0x1000 → off % 4 = 0 →
    ¬(p = 0 ∧ off = 0x80) →
    fieldsAt k off = [] ∨ (b < 32 ∧ bitOf v.toNat b = true ∧ ∀ r ∈ fieldsAt k off, ¬(r.lo ≤ b ∧ b < r.lo + r.width)) →
    ∃ t, exec (.registerWrite (.page p off) v) s = .next t ∧ t.dev.get Hdr.ERR_CODE.CODE p = 2 ∧
      t.dev.get Hdr.ERR_OFFSET.OFFSET p = off ∧
      (∀ key, key ≠ Hdr.ERR_CODE.CODE.key p 0 → key ≠ Hdr.ERR_OFFSET.OFFSET.key p 0 → key ≠ Hdr.ERR_COUNT.COUNT.key p 0 →
        Store.get regReset t.dev.regs key = Store.get regReset s.dev.regs key) ∧
      t = s.withDev { s.dev with regs := t.dev.regs }

/-- A read of a register that is no window onto a queue or a data port answers its word; where it latches nothing, it changes
nothing else, and where it leads an RL group, the group is latched; a reserved page reads 0. Completes rlRead. -/
def Obligations.RegisterReadAnswers : Prop :=
  ∀ (s : State) (k : PageKind) (i p off : Nat), p < 0x400 → off < 0x1000 → off % 4 = 0 → s.Live →
    (pageOf k i = p → decodePage p = some (k, i) → s.dev.pageServed p = true → latches k off = false →
      ¬(k = .evq ∧ off = 0x60) → ¬(k = .mon ∧ off = 0x48) →
      exec (.rlRead p off) s = .next (s.withDev { s.dev with readData := [s.dev.shownWord k i off] })) ∧
    (pageOf k i = p → decodePage p = some (k, i) → s.dev.pageServed p = true → latches k off = true →
      ¬(k = .evq ∧ off = 0x60) → ¬(k = .mon ∧ off = 0x48) →
      exec (.rlRead p off) s = .next (s.withDev { (s.dev.rlRead k i off).2 with readData := [(s.dev.rlRead k i off).1] })) ∧
    (decodePage p = none → exec (.rlRead p off) s = .next (s.withDev { s.dev with readData := [0] }))

/-- `TBL_CMD_READ` loads TBL_DATA with the entry's words and, with AUTO_INC, moves INDEX on; `TBL_CMD_WRITE` writes the entry
from TBL_DATA; `BLK_RESET` resets an idle, disabled page that has an ENABLE; `FREEZE` latches or releases the page's view;
`EV_FORCE` raises each of the page's events whose bit is written. Completes tblCmdRead, tblCmdWrite, blkReset, freeze and
evForce. A table read without AUTO_INC loads TBL_DATA with the words of the selected entry. -/
def Obligations.HeaderCommandsTakeEffect : Prop :=
  (
    ∀ (s : State) (k : PageKind) (i p : Nat), s.Live → pageOf k i = p → decodePage p = some (k, i) → s.dev.pageServed p = true →
      let sel := s.dev.get Hdr.TBL_SEL.SEL p
      let idx := s.dev.get Hdr.TBL_INDEX.INDEX p
      (∀ a : Bool, s.dev.flag Hdr.CTRL.ENABLE p = true → tableIndexOk k sel idx = true →
        let d := s.stored k i 0x828 (Hdr.TBL_CMD.AUTO_INC.put (b1 a) 1)
        ∃ t, exec (.tblCmdRead p a) s = .next t ∧ t = s.withDev (d.tblRead k i (Hdr.TBL_CMD.AUTO_INC.put (b1 a) 1)) ∧
          (∀ j : Fin 8, t.dev.getJ Hdr.TBL_DATA.DATA p j.val = trunc 32 ((d.readEntry k i sel idx).getD j.val 0)) ∧
          t.dev.get Hdr.TBL_INDEX.INDEX p = if a then (idx + 1) % 65536 else idx) ∧
      (∀ a : Bool, s.dev.flag Hdr.CTRL.ENABLE p = true → tableIndexOk k sel idx = true →
        let l := (List.range 8).map fun j => s.dev.getJ Hdr.TBL_DATA.DATA p j
        s.dev.entryErrs k i sel idx l = [] →
        exec (.tblCmdWrite p a) s = .next (s.withDev
          (((s.stored k i 0x828 (Hdr.TBL_CMD.AUTO_INC.put (b1 a) 2)).writeEntry k i sel idx l).tblNext p
            (Hdr.TBL_CMD.AUTO_INC.put (b1 a) 2)))) ∧
      (s.dev.get Hdr.CTRL.ENABLE p = 0 → s.dev.get Hdr.CTRL.FREEZE p ≤ 1 → fixedEnable p = false → s.dev.idle k i = true →
        let w := Hdr.CTRL.BLK_RESET.put 1 (s.kept k i 0x008)
        exec (.blkReset p) s = .next (s.withDev
          ((((s.stored k i 0x008 w).setB Hdr.CTRL.ENABLE p false).blkReset k i).freezePage k i (s.dev.flag Hdr.CTRL.FREEZE p)))) ∧
      (∀ a : Bool, s.dev.get Hdr.CTRL.ENABLE p ≤ 1 → s.dev.get Hdr.CTRL.FREEZE p ≤ 1 →
        ∃ t, exec (.freeze p a) s = .next t ∧ t.dev.frozenPage k i = a ∧
          t = s.withDev (((s.stored k i 0x008 (Hdr.CTRL.FREEZE.put (b1 a) (s.kept k i 0x008))).setB Hdr.CTRL.ENABLE p
            (s.dev.flag Hdr.CTRL.ENABLE p)).freezePage k i a)) ∧
      (∀ v : Word, (∀ b, b < 32 → bitOf v.toNat b = true → b < (eventsOf k).2) →
        exec (.evForce p v) s = .next (s.withDev
          ((s.stored k i 0x02C v.toNat).over ((List.range 32).filter fun b => bitOf v.toNat b) fun b d => d.raiseForced ⟨k, b⟩ i)))) ∧
  (
    ∀ (d : Dev) (k : PageKind) (i : Nat) (j : Fin 8),
      (d.tblRead k i 1).getJ Hdr.TBL_DATA.DATA (pageOf k i) j.val =
        trunc 32 ((d.readEntry k i (d.get Hdr.TBL_SEL.SEL (pageOf k i)) (d.get Hdr.TBL_INDEX.INDEX (pageOf k i))).getD j.val 0))

/-! ### Fences, queues, the link (R434, R440 to R447, R453, R454, R461 to R471) -/

/-- FENCE and `GLOBAL_FENCE` read the last fence; a write of `GLOBAL_FENCE` is never rejected and records GNUM and the time to
the next galley boundary. Completes fenceRead, globalFenceRead and globalFenceWrite. -/
def Obligations.FencesAnswer : Prop :=
  ∀ (s : State), s.Live →
    (∀ (k : PageKind) (i p : Nat), pageOf k i = p → decodePage p = some (k, i) → s.dev.pageServed p = true →
      exec (.fenceRead p) s = .next (s.withDev { s.dev with readData := [s.dev.shownWord k i 0x01C] })) ∧
    exec .globalFenceRead s = .next (s.withDev { s.dev with readData := [s.dev.shownWord .chip0 0 0x080] }) ∧
    (∀ v : Word, ∃ t, exec (.globalFenceWrite v) s = .next t ∧
      t.dev.get Reg.GLOBAL_FENCE.GNUM 0 = s.dev.gnum % 65536 ∧
      t.dev.get Reg.GLOBAL_FENCE.TO_EDGE_NS 0 = (if s.dev.locked then min 20480 (s.dev.galleyFrom (s.dev.now + 1) - s.dev.now) else 0) ∧
      t = s.withDev { s.dev with regs := t.dev.regs })

/-- `EVQ_POP` answers and latches the popped entry; `EVQ_RP` pops up to a position on the ring; `EVQ_INTEGRITY` empties the
queue and marks it in CHIP_STICKY; `MSIX_HOLDOFF_EXPIRY` signals the vector for what arose in the holdoff. Completes evqPop,
evqRp, evqIntegrity and msixHoldoffExpiry. -/
def Obligations.QueueCommandsTakeEffect : Prop :=
  ∀ (s : State) (q : Fin 4), s.Live →
    (s.dev.pageServed (pageOf .evq q.val) = true → s.dev.frozenPage .evq q.val = false →
      exec (.evqPop q) s = .next (s.withDev
        { s.dev.setQueue q.val (s.dev.queue q.val).pop with readData := [(s.dev.queue q.val).pop.popped.w0] })) ∧
    (∀ v : Word, s.dev.pageServed (pageOf .evq q.val) = true → s.dev.flag Hdr.CTRL.ENABLE (pageOf .evq q.val) = true →
      v.toNat < 1024 → (s.dev.queue q.val).popAllowed v.toNat = true →
      ∃ t, exec (.evqRp q v) s = .next t ∧ t.dev.queue q.val = (s.dev.queue q.val).popTo v.toNat ∧ t.mem = s.mem) ∧
    (∃ t, exec (.evqIntegrity q) s = .next t ∧ (t.dev.queue q.val).depth = 0 ∧ (t.dev.queue q.val).wp = 0 ∧
      (t.dev.queue q.val).rp = 0 ∧ (t.dev.queue q.val).slug0 = false ∧ (t.dev.queue q.val).slug1 = false ∧
      t.dev.bit Reg.CHIP_STICKY.EVQ_INTEGRITY 0 q.val = true) ∧
    ((s.dev.queue q.val).holdPend = true →
      let d := (s.dev.until (s.dev.queue q.val).holdUntil).setQueue q.val { s.dev.queue q.val with holdPend := false }
      exec (.msixHoldoffExpiry q) s = .next (s.withDev (d.queueVector q.val)))

/-- A BAR0 access of the wrong size or alignment reads as all ones or is discarded; it is counted, and changes no other register
field than those that raising `CXL:BAD_ACCESS` changes. Completes badAccess. -/
def Obligations.BadAccessCounted : Prop :=
  ∀ (s : State) (rd : Bool) (len : Nat), s.Live →
    ∃ t, exec (.badAccess rd len) s = .next t ∧
      t.dev.get Reg.CXL_BAD_ACCESS.COUNT 0 = capN 0xFFFFFFFF (s.dev.get Reg.CXL_BAD_ACCESS.COUNT 0 + 1) ∧
      t.dev.readData = (if rd then List.replicate len 0xFF else s.dev.readData) ∧
      s.dev.FieldsOnly (keysOf [Reg.CXL_BAD_ACCESS.COUNT] 0) { t.dev with readData := s.dev.readData, host := s.dev.host } ∧ t.mem = s.mem ∧
      t.pending = s.pending

/-- `CXL_LINK_UP` shows the mode, which is PCIe below 8 GT/s, the width and the rate; a link-down leaves link-up, is counted,
and clears the state of the link's protocol, as every CXL reset does. Completes cxlLinkUp, cxlLinkDown and cxlReset. -/
def Obligations.LinkChanges : Prop :=
  ∀ s : State, s.Live →
    (∀ (cxl : Bool) (width rate : Nat), s.dev.flag Reg.CXL_LINK_STAT.UP 0 = false →
      ∃ t, exec (.cxlLinkUp cxl width rate) s = .next t ∧ t.dev.flag Reg.CXL_LINK_STAT.UP 0 = true ∧
        t.dev.flag Reg.CXL_LINK_STAT.CXL 0 = (cxl && decide (3 ≤ rate)) ∧ t.dev.get Reg.CXL_LINK_STAT.WIDTH 0 = width % 16 ∧
        t.dev.get Reg.CXL_LINK_STAT.RATE 0 = rate % 8 ∧ t.dev.host.active = s.dev.host.zeroed) ∧
    (s.dev.flag Reg.CXL_LINK_STAT.UP 0 = true →
      exec .cxlLinkDown s = .next (s.withDev ((s.dev.bump Reg.CXL_LINK_CNT.DOWN 0).linkExit.cxlReset))) ∧
    (∃ t, exec .cxlReset s = .next t ∧ t.dev.host.active = false ∧ t.dev.host.decoder = false ∧ t.dev.host.doeResp = none ∧
      t.dev.les = s.dev.les ∧ t.dev.fmx = s.dev.fmx ∧ t.dev.grps = s.dev.grps ∧ t.mem = s.mem)

/-- DOE and SPDM requests of at most 1,028 dwords are answered; an Abort discards the object in progress (R440, R441, R374,
R378, R379). Completes doeDiscovery, cdat, doeAbort, getVersion, getCapabilities, negotiateAlgorithms, getDigests,
getCertificate, challenge, getMeasurements and spdmUnsupportedRequest. -/
def Obligations.MailboxAnswers : Prop :=
  ∀ (s : State) (n : Nat), s.Live → n ≤ 1028 → s.dev.flag Reg.CHIP_SEAL.FAULT 0 = false →
    (∀ i, ∃ t, exec (.doeDiscovery n i) s = .next t ∧ t.dev.host.doeResp.isSome) ∧
    (∀ i, ∃ t, exec (.cdat n i) s = .next t ∧ t.dev.host.doeResp = some (cdatReply i)) ∧
    (∃ t, exec .doeAbort s = .next t ∧ t.dev.host.doeResp = none ∧ t.dev.host.doeBusy = false ∧ t.dev.host.doeError = false) ∧
    (∃ t, exec (.getVersion n) s = .next t ∧ t.dev.host.doeResp = some .version) ∧
    ((s.dev.bootState = 2 ∧ s.dev.idReady = true) →
      (∃ t, exec (.getCapabilities n) s = .next t ∧ t.dev.host.doeResp = some .capabilities) ∧
      (∃ t, exec (.negotiateAlgorithms n) s = .next t ∧ t.dev.host.doeResp = some .algorithms) ∧
      (∃ t, exec (.getDigests n) s = .next t ∧ t.dev.host.doeResp = some (.digests (s.dev.spdmChain.map sha256))) ∧
      (∃ t, exec (.spdmUnsupportedRequest n) s = .next t ∧ t.dev.host.doeResp = some .errorUnsupported) ∧
      (∀ (c : List Nat) (off len : Nat), s.dev.spdmChain = some c → off < c.length →
        ∃ t, exec (.getCertificate n 0 off len) s = .next t ∧
          t.dev.host.doeResp = some (.certificate (slice c off (min len 4000)) (c.length - off - (slice c off (min len 4000)).length))) ∧
      (∀ (c : List Nat) (sum : Nat), s.dev.spdmChain = some c → s.dev.rangeFails 6 0 (regionSize 6) = false →
        ∃ t x y z, exec (.challenge n 0 sum) s = .next t ∧ t.dev.host.doeResp = some (.challengeAuth (some (sha256 c)) x y z)) ∧
      (∀ sig : Bool, s.dev.rangeFails 6 0 (regionSize 6) = false → ∃ t x y, exec (.getMeasurements n 0xFF sig) s = .next t ∧
        t.dev.host.doeResp = some (.measurements (s.dev.measurements [1, 2, 3, 4, 5, 6, 7, 8]) x y) ∧ y.isSome = sig))

/-- A snapshot is asked for at the next galley boundary, and ends with SEQ advanced; a capture is armed, and ends with DONE.
Completes snapNow, snapDone, captureGo and captureDone. -/
def Obligations.SnapshotsAndCaptures : Prop :=
  ∀ s : State,
    (s.Accepts .hdm 0 0x040 (Reg.CXL_SNAP_CTRL.NOW.put 1 (s.kept .hdm 0 0x040)) →
      ∃ t, exec .snapNow s = .next t ∧ t.dev.host.snapNow = true) ∧
    (∀ p : Nat, s.Runs → s.dev.host.snapBusy = some p →
      ∃ t, exec .snapDone s = .next t ∧ t.dev.host.snapBusy = none ∧ (t.dev.snap p).seq = ((s.dev.snap p).seq + 1) % 4294967296 ∧
        t.dev.get Reg.CXL_SNAP_STAT.LAST 0 = p % 4) ∧
    (∀ (src : Fin 16) (le : Fin 8) (dsc : Fin 16),
      let w := Reg.CXL_CAP_CTRL.GO.put 1 (Reg.CXL_CAP_CTRL.SRC.put src.val (Reg.CXL_CAP_CTRL.LE.put le.val
        (Reg.CXL_CAP_CTRL.DSC.put dsc.val (s.kept .hdm 0 0x04C))))
      s.Accepts .hdm 0 0x04C w →
      ∃ t, exec (.captureGo src le dsc) s = .next t ∧ t.dev.flag Reg.CXL_CAP_CTRL.RUN 0 = true ∧
        t.dev.flag Reg.CXL_CAP_CTRL.DONE 0 = false ∧ t.dev.cap.armed = true) ∧
    (∀ l : List Byte, s.Runs → s.dev.flag Reg.CXL_CAP_CTRL.RUN 0 = true → s.dev.cap.armed = false →
      ∃ t, exec (.captureDone l) s = .next t ∧ t.dev.flag Reg.CXL_CAP_CTRL.RUN 0 = false ∧ t.dev.flag Reg.CXL_CAP_CTRL.DONE 0 = true ∧
        (∀ off, off < 0x1000000 → Store.get memReset t.mem off = Store.get memReset s.mem off))

/-- DMA: an accepted TAIL posts descriptors; a descriptor whose two sides are good and whose transfer does not halt is in
progress; it completes with DONE and HEAD moves on; RESET clears HALT and discards what is posted. Completes dmaTail,
dmaDescriptorStart, dmaDone and dmaReset. -/
def Obligations.DmaCommandsTakeEffect : Prop :=
  ∀ (s : State) (c : Fin 16),
    (∀ tail : Fin 64, s.Accepts .dma 0 (0x044 + 0x10 * c.val) (Reg.DMA_RING.TAIL.put tail.val (s.kept .dma 0 (0x044 + 0x10 * c.val))) →
      exec (.dmaTail c tail) s = .next (s.withDev
        (s.stored .dma 0 (0x044 + 0x10 * c.val) (Reg.DMA_RING.TAIL.put tail.val (s.kept .dma 0 (0x044 + 0x10 * c.val)))))) ∧
    (∀ host : Option (List Byte), s.Runs → s.dev.dmaReady c.val = true →
      let ctl := s.dev.descWord c.val 0
      let len := s.dev.descWord c.val 1
      let src := s.dev.descWord c.val 2 + pow2 32 * s.dev.descWord c.val 3
      let dst := s.dev.descWord c.val 4 + pow2 32 * s.dev.descWord c.val 5
      s.dev.sideErr (bitsOf ctl 4 4) src len false = none → s.dev.sideErr (bitsOf ctl 0 4) dst len true = none →
      let r := s.dmaSource (bitsOf ctl 4 4) src len (host.map natsOf)
      r.halt = none → (r.state.dmaDest c.val (bitsOf ctl 0 4) dst r.bytes).2 = none →
      ∃ t, exec (.dmaDescriptorStart c host) s = .next t ∧ t.dev.getJ Reg.DMA_STAT.RUN 0 c.val = 1 ∧
        t.mem = (r.state.dmaDest c.val (bitsOf ctl 0 4) dst r.bytes).1.mem) ∧
    (s.Runs → s.dev.getJ Reg.DMA_STAT.RUN 0 c.val = 1 →
      ∃ t, exec (.dmaDone c) s = .next t ∧ t.dev.getJ Reg.DMA_STAT.RUN 0 c.val = 0 ∧
        t.dev.dmaHead c.val = (s.dev.dmaHead c.val + 1) % 64 ∧
        t.dev.tab 0x11 0x01 (c.val * 64 + s.dev.dmaHead c.val) 6 = 0x80000000) ∧
    (s.Accepts .dma 0 (0x040 + 0x10 * c.val) (Reg.DMA_CTRL.RESET.put 1 (s.kept .dma 0 (0x040 + 0x10 * c.val))) →
      ∃ t, exec (.dmaReset c) s = .next t ∧ t.dev.getJ Reg.DMA_STAT.HALT 0 c.val = 0 ∧ t.dev.getJ Reg.DMA_STAT.RUN 0 c.val = 0 ∧
        t.dev.dmaHead c.val = t.dev.getJ Reg.DMA_RING.TAIL 0 c.val % 64)

/-! ### Reset, fuses, supplies and the VCORE rail (R30 to R38, R265, R477 to R500) -/

/-- A chip reset zeroes HDM, puts every register, table, queue and line engine at its reset values and holds the part in reset
with its cause; a POR clears the retained store, a SUPPLY reset leaves it, the others copy into it first. Completes por,
supplyReset, pinReset, thermalReset and softReset. -/
def Obligations.ChipResetsClear : Prop :=
  ∀ s : State, s.Live →
    (∀ (c : Instr) (cause rails : Nat),
      (c = .por ∧ cause = 1 ∧ rails = 0) ∨ (∃ r : Fin 128, c = .supplyReset r ∧ cause = 2 ∧ rails = r.val) ∨
        (c = .pinReset ∧ cause = 3 ∧ rails = 0) ∨ (c = .thermalReset ∧ cause = 4 ∧ rails = 0) →
      ∃ t, exec c s = .next t ∧ t.pending = s.pending ∧ t.mem = [] ∧ t.dev.power.inReset = true ∧ t.dev.power.cause = cause ∧
        t.dev.power.rails = rails ∧ t.dev.regs = [] ∧ t.dev.tabs = [] ∧ t.dev.queues = [] ∧ t.dev.les = [] ∧ t.dev.grps = [] ∧
        t.dev.locked = false ∧ t.dev.fuse = Dev.reset.fuse ∧
        t.dev.ret = if cause = 1 then { Retained.reset with next := 0, recs := [] } else if cause = 2 then s.dev.ret
          else s.dev.retCapture.ret) ∧
    (s.Accepts .chip0 0 0x58 0xA5000000 →
      ∃ t, exec .softReset s = .next t ∧ t.pending = s.pending ∧ t.mem = [] ∧ t.dev.power.inReset = true ∧ t.dev.power.cause = 5 ∧
        t.dev.regs = [] ∧ t.dev.tabs = [] ∧ t.dev.ret = (s.dev.wait 10000).retCapture.ret)

/-- A part held in reset takes part in nothing: every command but the sources of a reset and its release leaves it as it is. -/
def Obligations.HeldInResetNothingActs : Prop :=
  ∀ (c : Instr) (s t : State), s.dev.power.inReset = true → exec c s = .next t →
    (match c with
      | .por | .supplyReset _ | .pinReset | .thermalReset | .resetRelease _ => True
      | _ => t.dev = s.dev)

/-- The release of reset shows the cause, starts time, keeps the retained store only if it checks and the cause was no POR, and
adds the reset's record; the retained copy is taken at once. Completes resetRelease and retainCapture. -/
def Obligations.ResetReleased : Prop :=
  ∀ s : State,
    (∀ ok : Bool, s.dev.power.inReset = true →
      ∃ t, exec (.resetRelease ok) s = .next t ∧ t.mem = s.mem ∧ t.dev.power.inReset = false ∧ t.dev.now = 0 ∧
        t.dev.get Reg.CHIP_RST_CAUSE.LAST 0 = s.dev.power.cause % 8 ∧
        t.dev.get Reg.CHIP_RST_CAUSE.RAILS 0 = (if s.dev.power.cause = 2 then s.dev.power.rails % 128 else 0) ∧
        t.dev.ret.valid = (ok && s.dev.power.cause != 1) ∧ t.dev.ret.copy = RetCopy.reset) ∧
    (∀ ok : Bool, s.Live → exec (.resetRelease ok) s = .next s) ∧
    (s.Live → exec .retainCapture s = .next (s.withDev s.dev.retCapture))

/-- The time base locks 300 µs after the release: device time starts at 0 and the first galley follows a galley later. Completes
timebaseLock. A galley starts on the grid, the first one 20.48 µs after the lock with number 0: GNUM and T_grid are recorded and
the next galley follows 20.48 µs later, before the line engines, keys, chimes, calibration, snapshots, captures and the monitor
take their part; a forme starts 1.28 µs after the one before it. Completes txGalleyStart and formeStart. -/
def Obligations.GridStartsAndAdvances : Prop :=
  (
    ∀ s : State, s.Live → s.dev.locked = false →
      ∃ t, exec .timebaseLock s = .next t ∧ t.dev.locked = true ∧ t.dev.dt = 0 ∧ t.dev.now = max s.dev.now 300000 ∧
        t.dev.lockAt = t.dev.now ∧ t.dev.nextGalley = t.dev.now + 20480 ∧ t.dev.regs = s.dev.regs ∧ t.dev.tabs = s.dev.tabs ∧
        t.mem = s.mem) ∧
  (
    ∀ s : State, s.Runs → s.dev.locked = true →
      (
        let d := s.dev.galleyRecord
        let e := d.modFmx fun x => { x with maxNs := d.get Reg.FMX_DSK_CTRL.MAX_NS 0 }
        exec .txGalleyStart s = .next (s.withDev
          ((((((e.over allLe fun n d => (d.latchIndex n).leGalley s.dev.galleyRecord.gnum n).cypGalley s.dev.gnum d.gnum).judgeFirsts.calGalley
            d.gnum).snapTake d.gnum).captureBegin d.gnum).monTrigIf 2)) ∧
        d.gnum = (if s.dev.galleys = 0 then s.dev.gnum else (s.dev.gnum + 1) % 4294967296) ∧ d.galleys = s.dev.galleys + 1 ∧
        d.formes = 0 ∧ d.now = max s.dev.now s.dev.nextGalley ∧ d.nextGalley = s.dev.nextGalley + 20480) ∧
      (0 < s.dev.galleys → s.dev.formes < 16 →
        let start := s.dev.galleyAt s.dev.galleyNow + s.dev.formes * 1280
        exec .formeStart s = .next (s.withDev
          { (s.dev.until start).buildForme s.dev.formes start with formes := s.dev.formes + 1 })))

/-- A fuse load attempt seals the part when both copies agree, their CRCs pass and every pin code is permitted; else the third
failure is FUSE_FAULT. Completes fuseLoadAttempt. -/
def Obligations.FuseAttemptSealsOrFails : Prop :=
  ∀ (s : State) (a b : List Word), s.Live → s.dev.flag Reg.CHIP_SEAL.SEALED 0 = false → s.dev.flag Reg.CHIP_SEAL.FAULT 0 = false →
    let n := s.dev.get Reg.CHIP_SEAL.ATTEMPTS 0
    let la := a.map (·.toNat)
    let lb := b.map (·.toNat)
    let good := fuseMismatch la lb == 0x7FF && fuseCrcOk la && fuseCrcOk lb && fusePinsOk la
    n < 3 →
    ∃ t, exec (.fuseLoadAttempt a b) s = .next t ∧ t.dev.get Reg.CHIP_SEAL.ATTEMPTS 0 = n + 1 ∧
      t.dev.flag Reg.CHIP_SEAL.SEALED 0 = good ∧ t.dev.flag Reg.CHIP_SEAL.FAULT 0 = (!good && n == 2) ∧
      t.dev.fuse = (if good then la else s.dev.fuse) ∧ t.dev.now = max s.dev.now (2000000 * (n + 1)) ∧ t.mem = s.mem

/-- A rail that falls is marked and counted, and on a sealed part freezes the supply's state, with the ramps held, until every
rail has been good for 1 ms. Completes pwrWarn, railGood and freezeEnd. -/
def Obligations.SupplyDips : Prop :=
  ∀ (s : State) (r : Fin 7), s.Live →
    (s.dev.bit Reg.RST_SUPPLY_STAT.WARN 0 r.val = false →
      let d := (((s.dev.putBit Reg.RST_SUPPLY_STAT.WARN 0 r.val true).putBit Reg.RST_SUPPLY_STAT.GOOD 0 r.val false).addSatJ
        Reg.RST_DIP_CNT.DIPS 0 r.val 1).modPower fun p =>
          { p with goodSince := none, vcoreSince := if r.val = 0 then none else p.vcoreSince }
      exec (.pwrWarn r) s = .next (s.withDev
        (if s.dev.flag Reg.CHIP_SEAL.SEALED 0 = false then d
        else if s.dev.frozenSupply then d.raise Ev.pwrWarn 0 0 (0x8000 + r.val)
        else ((d.raise Ev.pwrWarn 0 0 (0x8000 + r.val)).rampsHold.setB Reg.RST_FREEZE.ACTIVE 0 true).raise Ev.freeze 0 0 1)) ∧
      d.bit Reg.RST_SUPPLY_STAT.WARN 0 r.val = true ∧ d.bit Reg.RST_SUPPLY_STAT.GOOD 0 r.val = false ∧
      d.getJ Reg.RST_DIP_CNT.DIPS 0 r.val = capN 0xFFFF (s.dev.getJ Reg.RST_DIP_CNT.DIPS 0 r.val + 1) ∧
      (s.dev.flag Reg.CHIP_SEAL.SEALED 0 = false ∨ s.dev.frozenSupply = true →
        ∃ t, exec (.pwrWarn r) s = .next t ∧ t.dev.frozenSupply = s.dev.frozenSupply ∧
          s.dev.FieldsOnly (fun k => keysOf [Reg.RST_SUPPLY_STAT.WARN, Reg.RST_SUPPLY_STAT.GOOD] 0 k ||
            Reg.RST_DIP_CNT.DIPS.key 0 r.val == k) { t.dev with power := s.dev.power } ∧ t.mem = s.mem)) ∧
    (∀ mv : Nat, s.dev.bit Reg.RST_SUPPLY_STAT.WARN 0 r.val = true → mv < 4096 →
      ∃ t, exec (.railGood r mv) s = .next t ∧ t.dev.bit Reg.RST_SUPPLY_STAT.WARN 0 r.val = false ∧
        t.dev.bit Reg.RST_SUPPLY_STAT.GOOD 0 r.val = true ∧ t.dev.getJ Reg.RST_DIP_CNT.MIN_MV 0 r.val = mv ∧
        t.dev.frozenSupply = s.dev.frozenSupply ∧ t.mem = s.mem) ∧
    (∀ since : Nat, s.dev.power.goodSince = some since → s.dev.frozenSupply = true →
      ∃ t, exec .freezeEnd s = .next t ∧ t.dev.frozenSupply = false ∧ t.dev.now = max s.dev.now (since + 1000000) ∧ t.mem = s.mem)

/-- An acknowledged target write holds the rail's lower warning level at the smaller and its upper level at the larger of the
old and new target for 200 µs; after these both follow the target. Completes avsWriteAck and avsLevelWindowExpiry. -/
def Obligations.RailLevelsFollowTarget : Prop :=
  ∀ s : State, s.Live →
    (s.dev.power.avsWrite = true →
      ∃ t, exec .avsWriteAck s = .next t ∧
        t.dev.power.uvRef = min s.dev.power.avsSent (s.dev.get Reg.CHIP_VCORE_NOW.TARGET_MV 0) ∧
        t.dev.power.ovRef = max s.dev.power.avsSent (s.dev.get Reg.CHIP_VCORE_NOW.TARGET_MV 0) ∧
        t.dev.power.avsWindow = some (s.dev.now + 200000) ∧ t.dev.power.avsSent = s.dev.get Reg.CHIP_VCORE_NOW.TARGET_MV 0) ∧
    (∀ e : Nat, s.dev.power.avsWindow = some e →
      ∃ t, exec .avsLevelWindowExpiry s = .next t ∧ t.dev.now = max s.dev.now e ∧ t.dev.power.avsWindow = none ∧
        t.dev.power.uvRef = s.dev.power.avsSent ∧ t.dev.power.ovRef = s.dev.power.avsSent)

/-- AVSBus failures are counted and the fourth in a row is the fault; a read-back is shown, is APPLIED within 10 mV of the
target, and clears a fault. Completes avsFault and avsReadback. The die temperature is shown, and the hot state has 5 °C of
hysteresis. Completes rstHot. -/
def Obligations.RailAndTemperatureShown : Prop :=
  (
    ∀ s : State, s.Live →
      (∃ t, exec .avsFault s = .next t ∧ t.dev.power.avsTries = s.dev.power.avsTries + 1 ∧
        t.dev.get Reg.CHIP_AVS_ERR.ERRORS 0 = capN 0xFFFF (s.dev.get Reg.CHIP_AVS_ERR.ERRORS 0 + 1) ∧
        t.dev.flag Reg.CHIP_AVS_STAT.FAULT 0 = (s.dev.flag Reg.CHIP_AVS_STAT.FAULT 0 || s.dev.power.avsTries == 3)) ∧
      (∀ mv : Nat, mv < 1024 → ∃ t, exec (.avsReadback mv) s = .next t ∧ t.dev.get Reg.CHIP_AVS_STAT.READ_MV 0 = mv ∧
        t.dev.flag Reg.CHIP_AVS_STAT.FAULT 0 = false ∧ t.dev.power.avsTries = 0 ∧
        (t.dev.flag Reg.CHIP_AVS_STAT.APPLIED 0 = true ↔
          s.dev.get Reg.CHIP_VCORE_NOW.TARGET_MV 0 ≤ mv + 10 ∧ mv ≤ s.dev.get Reg.CHIP_VCORE_NOW.TARGET_MV 0 + 10))) ∧
  (
    ∀ (s : State) (temp : Int), s.Live → -32768 ≤ temp → temp ≤ 32767 →
      ∃ t, exec (.rstHot temp) s = .next t ∧ t.dev.getS Reg.RST_TEMP.NOW 0 = temp ∧
        t.dev.getS Reg.RST_TEMP.MAX 0 = max temp (s.dev.getS Reg.RST_TEMP.MAX 0) ∧
        (t.dev.power.hot = true ↔
          64 * (s.dev.get Reg.RST_TEMP_WARN.HOT_C 0 : Int) < temp ∨
            (s.dev.power.hot = true ∧ 64 * ((s.dev.get Reg.RST_TEMP_WARN.HOT_C 0 : Int) - 5) < temp)))

/-- The VCORE target: an accepted floor lifts a lower target; a step up adds UP_MV at most to 800 mV, 50 µs after the last; a
step down takes DOWN_MV, not below the floor, after 100 ms of high margins, 10 ms after the last and 1 ms after VCORE became
good, never during a dip. Completes vcoreFloorWrite, vcoreStepUp and vcoreStepDown. -/
def Obligations.VcoreTargetMoves : Prop :=
  ∀ s : State,
    (∀ mv : Fin 1024, s.Accepts .vcore 0 0x040 (Reg.CHIP_VCORE_FLOOR.FLOOR_MV.put mv.val (s.kept .vcore 0 0x040)) →
      ∃ t, exec (.vcoreFloorWrite mv) s = .next t ∧ t.dev.get Reg.CHIP_VCORE_FLOOR.FLOOR_MV 0 = mv.val ∧
        t.dev.get Reg.CHIP_VCORE_NOW.TARGET_MV 0 = max mv.val (s.dev.get Reg.CHIP_VCORE_NOW.TARGET_MV 0)) ∧
    (s.Runs → s.dev.arb.acting = true → s.dev.askUp.isEmpty = false → s.dev.get Reg.CHIP_VCORE_NOW.TARGET_MV 0 < 800 →
      ∃ t, exec .vcoreStepUp s = .next t ∧
        t.dev.get Reg.CHIP_VCORE_NOW.TARGET_MV 0 =
          min 800 (s.dev.get Reg.CHIP_VCORE_NOW.TARGET_MV 0 + s.dev.get Reg.CHIP_VCORE_STEP.UP_MV 0) ∧
        t.dev.power.avsWrite = true ∧ t.dev.arb.lastUp = some t.dev.now ∧ s.dev.now ≤ t.dev.now ∧
        (∀ u, s.dev.arb.lastUp = some u → u + 50000 ≤ t.dev.now)) ∧
    (∀ h : Nat, s.Runs → s.dev.arb.acting = true → s.dev.arb.highSince = some h → s.dev.dipping = false →
      s.dev.askUp.isEmpty = true → s.dev.get Reg.CHIP_VCORE_FLOOR.FLOOR_MV 0 < s.dev.get Reg.CHIP_VCORE_NOW.TARGET_MV 0 →
      s.dev.get Reg.CHIP_VCORE_NOW.TARGET_MV 0 < 1024 →
      ∃ t, exec .vcoreStepDown s = .next t ∧
        t.dev.get Reg.CHIP_VCORE_NOW.TARGET_MV 0 =
          max (s.dev.get Reg.CHIP_VCORE_FLOOR.FLOOR_MV 0)
            (s.dev.get Reg.CHIP_VCORE_NOW.TARGET_MV 0 - s.dev.get Reg.CHIP_VCORE_STEP.DOWN_MV 0) ∧
        h + 100000000 ≤ t.dev.now ∧ (∀ u, s.dev.arb.lastDown = some u → u + 10000000 ≤ t.dev.now) ∧
        (∀ v, s.dev.power.vcoreSince = some v → v + 1000000 ≤ t.dev.now) ∧ t.dev.arb.lastDown = some t.dev.now) ∧
    (s.Runs → s.dev.dipping = true → exec .vcoreStepDown s = .next s)

/-- The margin of a line engine: NOW shows the smaller side; MIN is its least; REQ asks up below VREQ_MARGIN, is downward-
eligible above HIGH_MARGIN, and is excluded where the guard takes no part. Completes paceGuardMargin. -/
def Obligations.PaceMarginJudged : Prop :=
  ∀ (s : State) (n : Fin 8) (tx rx : Int) (a b : Nat), s.Runs → -32768 ≤ tx → tx < 32767 → -32768 ≤ rx → rx < 32767 →
    ∃ t, exec (.paceGuardMargin n tx rx a b) s = .next t ∧ t.dev.getS Reg.LE_PG_MARGIN.NOW n.val = min tx rx ∧
      t.dev.get Reg.LE_EB_FILL.TX_FILL n.val = min 20480 a ∧ t.dev.get Reg.LE_EB_FILL.RX_FILL n.val = min 20480 b ∧
      t.dev.get Reg.LE_PG_STATE.REQ n.val =
        (if s.dev.paceExcluded n.val then 3
        else if min tx rx < (s.dev.get Reg.LE_PG_THRESH.VREQ_MARGIN n.val : Int) then 1
        else if (s.dev.get Reg.LE_PG_HIGH.HIGH_MARGIN n.val : Int) < min tx rx then 2 else 0) ∧
      (t.dev.flag Reg.LE_PG_STATE.LOW n.val = true ↔ min tx rx < (s.dev.get Reg.LE_PG_THRESH.EVT_MARGIN n.val : Int)) ∧
      t.mem = s.mem

/-- An overflow or underrun of a line engine's buffer is counted, and the samples lost to an overflow are marked as a gap; an
overflow of a lane group fills it and marks the flows; apart from that only the event is raised. Completes rxOverflow,
txUnderrun, hlnRxOverflow and hlnTxUnderrun. A galley of samples through the DACs: each is scaled to its RMS and the ramp and
limited, and its clipped samples and RMS are shown; a squelched DAC clips nothing and shows its last levels (DESIGN CHOICE of
log entry 157); nothing else but the clip event changes. Completes dacGalleyMeasure. -/
def Obligations.LineErrorsCounted : Prop :=
  (
    ∀ s : State, s.Runs →
      (∀ (n : Fin 8) (count : Nat), ∃ t, exec (.rxOverflow n count) s = .next t ∧
        t.dev.get Reg.LE_EB_ERR.RX_OVERFLOW n.val = capN 0xFFFF (s.dev.get Reg.LE_EB_ERR.RX_OVERFLOW n.val + 1) ∧
        (t.dev.le n.val).rx.gaps =
          (s.dev.le n.val).rx.gaps ++ [(s.dev.samplesBy n.val s.dev.now, s.dev.samplesBy n.val s.dev.now + count)] ∧
        s.dev.FieldsOnly (keysOf [Reg.LE_EB_ERR.RX_OVERFLOW] n.val) { t.dev with les := s.dev.les } ∧ t.mem = s.mem) ∧
      (∀ n : Fin 8, ∃ t, exec (.txUnderrun n) s = .next t ∧
        t.dev.get Reg.LE_EB_ERR.TX_UNDERRUN n.val = capN 0xFFFF (s.dev.get Reg.LE_EB_ERR.TX_UNDERRUN n.val + 1) ∧
        s.dev.FieldsOnly (keysOf [Reg.LE_EB_ERR.TX_UNDERRUN] n.val) t.dev ∧ t.mem = s.mem) ∧
      (∀ (g : Fin 16) (fl : List (Fin 1024)), s.dev.grpEn g.val = true →
        ∃ t, exec (.hlnRxOverflow g fl) s = .next t ∧ t.dev.get Reg.HLN_GRP_EB.RX_FILL g.val = 20480 ∧
          t.dev.path.gapNext = insertAll (fl.map (·.val)) s.dev.path.gapNext ∧
          s.dev.FieldsOnly (keysOf [Reg.HLN_GRP_EB.RX_FILL] g.val) { t.dev with path := s.dev.path } ∧ t.mem = s.mem) ∧
      (∀ g : Fin 16, s.dev.grpEn g.val = true →
        exec (.hlnTxUnderrun g) s = .next (s.withDev (s.dev.raise Ev.hlnTxUnderrun g.val g.val 0)) ∧
          s.dev.EventsOnly (s.dev.raise Ev.hlnTxUnderrun g.val g.val 0))) ∧
  (
    ∀ (s : State) (n : Fin 8) (channels : List (List Int)), s.Runs →
      (s.dev.flag Reg.LE_DAC_STAT.SQUELCH n.val = true →
        exec (.dacGalleyMeasure n channels) s = .next (s.withDev
          ((((s.dev.set Reg.LE_DAC_CLIP_X.XI n.val 0).set Reg.LE_DAC_CLIP_X.XQ n.val 0).set Reg.LE_DAC_CLIP_Y.YI n.val 0).set
            Reg.LE_DAC_CLIP_Y.YQ n.val 0))) ∧
      (s.dev.flag Reg.LE_DAC_STAT.SQUELCH n.val = false →
        let m := channels.map (dacGalley (s.dev.get Reg.LE_DAC_CTRL.BACKOFF n.val) (s.dev.galleyAmps n.val))
        let of_ (k : Nat) : Nat × Nat × Nat := m.getD k (0, 0, 0)
        ∃ t, exec (.dacGalleyMeasure n channels) s = .next t ∧
          t.dev.get Reg.LE_DAC_CLIP_X.XI n.val = min 65535 (of_ 0).2.1 ∧ t.dev.get Reg.LE_DAC_CLIP_X.XQ n.val = min 65535 (of_ 1).2.1 ∧
          t.dev.get Reg.LE_DAC_CLIP_Y.YI n.val = min 65535 (of_ 2).2.1 ∧ t.dev.get Reg.LE_DAC_CLIP_Y.YQ n.val = min 65535 (of_ 3).2.1 ∧
          t.dev.get Reg.LE_DAC_RMS.XI n.val = (of_ 0).2.2 % 256 ∧ t.dev.get Reg.LE_DAC_RMS.XQ n.val = (of_ 1).2.2 % 256 ∧
          t.dev.get Reg.LE_DAC_RMS.YI n.val = (of_ 2).2.2 % 256 ∧ t.dev.get Reg.LE_DAC_RMS.YQ n.val = (of_ 3).2.2 % 256 ∧
          s.dev.FieldsOnly (keysOf [Reg.LE_DAC_CLIP_X.XI, Reg.LE_DAC_CLIP_X.XQ, Reg.LE_DAC_CLIP_Y.YI, Reg.LE_DAC_CLIP_Y.YQ,
            Reg.LE_DAC_RMS.XI, Reg.LE_DAC_RMS.XQ, Reg.LE_DAC_RMS.YI, Reg.LE_DAC_RMS.YQ] n.val) { t.dev with les := s.dev.les } ∧
          t.mem = s.mem))

/-! ### The transmit sequence (R64 to R72, R74 to R88) -/

/-- START, BEACON and STOP request ON, BEACON and OFF, and KILL halts or releases the carrier, when their write is accepted.
Completes start, beacon, stop and kill. EN, REACQ, the decoder's configuration, its iterations and its clear, when their write
is accepted. Completes rxEnable, reacq, fecCfg, fecIterCommit and fecClear. -/
def Obligations.LineRequestsTakeEffect : Prop :=
  (
    ∀ (s : State) (n : Fin 8),
      (∀ (c : Instr) (r : Nat), (c = .start n ∧ r = 1) ∨ (c = .beacon n ∧ r = 2) ∨ (c = .stop n ∧ r = 3) →
        s.Accepts .tx n.val 0x040 (Reg.LE_TX_CTRL.REQ.put r 0) →
        exec c s = .next (s.withDev
          ((((s.stored .tx n.val 0x040 (Reg.LE_TX_CTRL.REQ.put r 0)).killWritten n.val false).setB Reg.LE_CHM_STAT.BEACON_ABS n.val
            false).request n.val r))) ∧
      (s.Accepts .tx n.val 0x040 (Reg.LE_TX_CTRL.KILL.put 1 0) →
        exec (.kill n true) s = .next (s.withDev
          (((s.stored .tx n.val 0x040 (Reg.LE_TX_CTRL.KILL.put 1 0)).killWritten n.val true).calTxLost n.val))) ∧
      (s.Accepts .tx n.val 0x040 0 →
        exec (.kill n false) s = .next (s.withDev ((s.stored .tx n.val 0x040 0).killWritten n.val false)))) ∧
  (
    ∀ (s : State) (n : Fin 8),
      (∀ on : Bool,
        let w := Reg.LE_RX_CTRL.EN.put (b1 on) (s.kept .rx n.val 0x040)
        s.Accepts .rx n.val 0x040 w → Reg.LE_RX_CTRL.REACQ.on w = false →
        let d := (s.stored .rx n.val 0x040 w).rxReconsider n.val
        exec (.rxEnable n on) s = .next (s.withDev (if on then d else d.calRxLost n.val))) ∧
      (
        let w := Reg.LE_RX_CTRL.REACQ.put 1 (s.kept .rx n.val 0x040)
        s.Accepts .rx n.val 0x040 w → Reg.LE_RX_CTRL.EN.on w = true →
        exec (.reacq n) s = .next (s.withDev (((s.stored .rx n.val 0x040 w).rxReconsider n.val).reacquire n.val))) ∧
      (∀ r c : Fin 4,
        let w := Reg.LE_FEC_CFG.RATE.put r.val (Reg.LE_FEC_CFG.CODE.put c.val 0)
        s.Accepts .fec n.val 0x040 w → exec (.fecCfg n r c) s = .next (s.withDev ((s.stored .fec n.val 0x040 w).fecCfg n.val r.val c.val))) ∧
      (
        let w := Reg.LE_FEC_ITER.COMMIT.put 1 (s.kept .fec n.val 0x044)
        s.Accepts .fec n.val 0x044 w → exec (.fecIterCommit n) s = .next (s.withDev ((s.stored .fec n.val 0x044 w).iterCommit n.val))) ∧
      (
        let w := Reg.LE_FEC_CLEAR.CLR.put 1 (s.kept .fec n.val 0x08C)
        s.Accepts .fec n.val 0x08C w → ∃ t, exec (.fecClear n) s = .next t ∧ (t.dev.le n.val).fec.clearPend = true))

/-- A halted carrier sends nothing: its output enable is low, its power 0, and it is HALTED unless it was OFF or on its way
there; a TXEN fault, after 10 µs, halts it in every state and says so. Completes txenFault. The state entered squelches the
output in every state but those that send, and is reported for OFF, ON, BEACON and HALTED. -/
def Obligations.TransmitStatesEntered : Prop :=
  (
    ∀ (s : State) (n : Fin 8), s.Runs →
      exec (.txenFault n) s = .next (s.withDev (((s.dev.wait 10000).txenHalt n.val).raise Ev.txenFault n.val n.val 0)) ∧
      (∀ d : Dev, (d.halt n.val).flag Reg.LE_TX_STAT.TXEN_PIN n.val = false ∧ (d.halt n.val).get Reg.LE_TX_STAT.POWER n.val = 0 ∧
        (1 ≤ d.txState n.val → d.txState n.val ≤ 6 → (d.halt n.val).txState n.val = 8) ∧
        (d.txState n.val ≤ 8 → (d.txenHalt n.val).txState n.val = 8))) ∧
  (
    ∀ (d : Dev) (n : Fin 8) (st : Nat), st < 9 →
      (d.enterTx n.val st).txState n.val = st ∧ (d.enterTx n.val st).flag Reg.LE_TX_STAT.SQUELCH n.val = squelchedIn st ∧
        (d.enterTx n.val st).flag Reg.LE_DAC_STAT.SQUELCH n.val = squelchedIn st ∧
        (st = 0 ∨ st = 8 → ((d.enterTx n.val st).le n.val).chm.pend = []))

/-- The limiter's grants: a bank grant goes to the earliest entry that needs one once the gap has passed, and a ramp slot at the
next forme to the earliest entry that needs one while fewer than MAX_RAMPS ramp; none is made in a dip. Completes bankGrant and
rampSlotGrant. -/
def Obligations.LimiterGrants : Prop :=
  ∀ s : State, s.Runs →
    (s.dev.frozenSupply = true → exec .bankGrant s = .next s ∧ exec .rampSlotGrant s = .next s) ∧
    (∀ e : StartEntry, s.dev.frozenSupply = false → s.dev.firstNeed .bank = some e →
      ∃ d : Dev, d.now = max s.dev.now (match s.dev.lim.lastBank with
          | some t => t + 1000 * s.dev.get Reg.CHIP_START_CTRL.BANK_GAP_US 0
          | none => 0) ∧ d = { s.dev with now := d.now, dt := d.dt } ∧
        exec .bankGrant s = .next (s.withDev (if s.dev.txState e.le = 7 then d.bankDown e.le else d.bankUp e.le))) ∧
    (∀ e : StartEntry, s.dev.frozenSupply = false → s.dev.ramping < s.dev.get Reg.CHIP_START_CTRL.MAX_RAMPS 0 →
      s.dev.firstNeed .ramp = some e →
      exec .rampSlotGrant s = .next (s.withDev ((s.dev.until (s.dev.formeFrom s.dev.now)).startRamp e.le e.kind)))

/-- The sequence's times: a bank is up or off 100 µs after its grant, TXEN's lead and lag end, and a ramp ends with its last
forme, a reversal first; a start that waits 100 ms is reported. Completes bankSoftstartDone, bankSoftstopDone, txenLeadExpiry,
rampComplete, txenLagExpiry and startHeld. -/
def Obligations.SequenceTimesEnd : Prop :=
  ∀ (s : State) (n : Fin 8), s.Runs →
    (∀ b : Fin 3, s.dev.bankState n.val b.val = 1 →
      let d := (s.dev.until (Store.get (fun _ => 0) (s.dev.le n.val).tx.bankEnd b.val)).setBank n.val b.val 2
      exec (.bankSoftstartDone n b) s = .next (s.withDev (if b.val = 0 then d.adcBankOn n.val else d))) ∧
    (∀ b : Fin 3, s.dev.bankState n.val b.val = 3 →
      let d := (s.dev.until (Store.get (fun _ => 0) (s.dev.le n.val).tx.bankEnd b.val)).setBank n.val b.val 0
      exec (.bankSoftstopDone n b) s =
        .next (s.withDev (if s.dev.txState n.val = 7 ∧ d.banksOff n.val = true then (d.dequeue n.val).enterTx n.val 0 else d))) ∧
    (s.dev.txState n.val = 2 → ∃ t, exec (.txenLeadExpiry n) s = .next t ∧ (t.dev.le n.val).tx.leadDone = true ∧
      t.dev.now = max s.dev.now (s.dev.le n.val).tx.txenEnd ∧ t.dev.regs = s.dev.regs ∧ t.mem = s.mem) ∧
    ((s.dev.txState n.val = 3 ∨ s.dev.txState n.val = 5) → s.dev.frozenSupply = false →
      let d := if s.dev.reversing n.val then s.dev.rampRun n.val (s.dev.rampAt n.val + 1280) else s.dev
      exec (.rampComplete n) s = .next (s.withDev ((d.rampRun n.val (d.rampEnd n.val)).endRamp n.val))) ∧
    (s.dev.txState n.val = 7 → (s.dev.le n.val).tx.lagDone = false →
      let d := ((s.dev.until (s.dev.le n.val).tx.txenEnd).setTxen n.val false).modTx n.val fun t => { t with lagDone := true }
      exec (.txenLagExpiry n) s =
        .next (s.withDev (if (s.dev.le n.val).tx.goal = 8 then (d.dequeue n.val).enterTx n.val 8 else d))) ∧
    (∀ e : StartEntry, s.dev.entry n.val = some e → e.heldRaised = false →
      exec (.startHeld n) s = .next (s.withDev
        (((s.dev.until (e.since + 100000000)).modQueue fun q =>
          q.map fun x => if x.le = n.val then { x with heldRaised := true } else x).raise Ev.startHeld 0 n.val e.kind)))

/-- Bit-loading switches: asked for, applied at their galley with BL_SWITCHED, and the receive side's own. Completes blSwitch,
blSwitchApply and rxBlSwitch. -/
def Obligations.BitLoadingSwitches : Prop :=
  ∀ (s : State) (n : Fin 8),
    (∀ neg : Bool,
      let w := Reg.LE_TX_BL_CTRL.NEGOTIATE.put (b1 neg) (Reg.LE_TX_BL_CTRL.SWITCH.put 1 0)
      s.Accepts .tx n.val 0x04C w → exec (.blSwitch n neg) s = .next (s.withDev ((s.stored .tx n.val 0x04C w).blSwitch n.val))) ∧
    (∀ g : Nat, s.Runs → (s.dev.le n.val).tx.switchAt = some g → 0 < s.dev.galleys → reached s.dev.gnum g = true →
      ∃ t, exec (.blSwitchApply n false) s = .next t ∧ t.dev.txActive n.val = (1 - s.dev.txActive n.val) % 2 ∧
        t.dev.flag Reg.LE_TX_BL_CTRL.SWITCH n.val = false ∧ t.dev.get Reg.LE_TX_BL_CTRL.RESULT n.val = 1 ∧
        (t.dev.le n.val).tx.switchAt = none ∧ (t.dev.le n.val).chm.proposal = none ∧ t.mem = s.mem) ∧
    (∀ g : Nat, s.Runs → (s.dev.le n.val).rx.switchAt = some g → (s.dev.le n.val).chm.armed = none → 0 < s.dev.galleys →
      reached s.dev.gnum g = true →
      exec (.blSwitchApply n true) s = .next (s.withDev
        (((s.dev.rxBankSwitch n.val).set Reg.LE_RX_BL_CTRL.RESULT n.val 1).modChm n.val fun c => { c with armed := none }))) ∧
    (
      let w := Reg.LE_RX_BL_CTRL.SWITCH.put 1 (s.kept .rx n.val 0x05C)
      s.Accepts .rx n.val 0x05C w → exec (.rxBlSwitch n) s = .next (s.withDev ((s.stored .rx n.val 0x05C w).rxBlSwitch n.val)))

/-- The mask: a commit, and its slew a step at each galley boundary until none is left, frozen in a dip. Completes maskCommit
and maskSlewStep. A commit is applied at its boundary: a bank switch in either direction, the mask, or the decoder's iterations.
Completes wcCommitApply. -/
def Obligations.MasksAndCommitsApply : Prop :=
  (
    ∀ (s : State) (n : Fin 8),
      (
        let w := Reg.LE_TX_MASK_CTRL.COMMIT.put 1 (s.kept .tx n.val 0x064)
        s.Accepts .tx n.val 0x064 w → exec (.maskCommit n) s = .next (s.withDev ((s.stored .tx n.val 0x064 w).maskCommit n.val))) ∧
      (s.Runs → s.dev.frozenSupply = false → 0 < s.dev.get Reg.LE_TX_MASK_CTRL.SLEW_LEFT n.val →
        s.dev.get Reg.LE_TX_MASK_CTRL.SLEW_LEFT n.val < pow2 Reg.LE_TX_MASK_CTRL.SLEW_LEFT.width →
        ∃ t, exec (.maskSlewStep n) s = .next t ∧
          t.dev.get Reg.LE_TX_MASK_CTRL.SLEW_LEFT n.val = s.dev.get Reg.LE_TX_MASK_CTRL.SLEW_LEFT n.val - 1 ∧
          t.dev.now = max s.dev.now (s.dev.galleyFrom ((s.dev.le n.val).tx.slewAt + 1)) ∧
          (t.dev.le n.val).tx.slewAt = s.dev.galleyFrom ((s.dev.le n.val).tx.slewAt + 1) ∧
          (s.dev.get Reg.LE_TX_MASK_CTRL.SLEW_LEFT n.val = 1 → t.dev.flag Reg.LE_TX_MASK_CTRL.SLEWING n.val = false) ∧
          s.dev.FieldsOnly (keysOf [Reg.LE_TX_MASK_CTRL.SLEW_LEFT, Reg.LE_TX_MASK_CTRL.SLEWING] n.val)
            { t.dev with les := s.dev.les, now := s.dev.now, dt := s.dev.dt } ∧ t.mem = s.mem) ∧
      (s.Runs → s.dev.frozenSupply = true → exec (.maskSlewStep n) s = .next s)) ∧
  (
    ∀ (s : State) (n : Fin 8), s.Runs →
      exec (.wcCommitApply (.txBank n)) s = .next (s.withDev (s.dev.blApply n.val false)) ∧
      exec (.wcCommitApply (.rxBank n)) s = .next (s.withDev (s.dev.blApply n.val true)) ∧
      exec (.wcCommitApply (.mask n)) s = .next (s.withDev (s.dev.maskApply n.val)) ∧
      exec (.wcCommitApply (.iterMax n)) s = .next (s.withDev (s.dev.iterApply n.val)) ∧
      (∀ t : Nat, (s.dev.le n.val).fec.iterPend = some t →
        s.dev.iterApply n.val =
          ((((s.dev.untilCommit t).setB Reg.LE_FEC_ITER.COMMIT n.val false).modFec n.val fun x => { x with iterPend := none }).set
            Reg.LE_FEC_STAT.ITER_NOW n.val (s.dev.get Reg.LE_FEC_ITER.ITER_MAX n.val)).recheckBounds))

/-! ### The receive sequence (R95 to R158) -/

/-- The raw light lost ends a receive path's search or lock at SIGNAL; a signal starts its search; the search, the frequency,
the equaliser, the timing and the pilot each lead on to the next state. Completes rawLosAssert, rawLosRelease, signalPresent,
cdSearchDone, freqAcquired, meqConverged, trlLocked and pilotLocked. A timeout of an acquisition state gives the next candidate
or a new search; a loss of lock records its cause and starts again with D_set, or holds the path while the partner sends its
beacon. Completes acqTimeout and lossOfLock. -/
def Obligations.AcquisitionAdvancesOrFails : Prop :=
  (
    ∀ (s : State) (n : Fin 8), s.Runs →
      (
        let d := (s.dev.setB Reg.LE_RX_STAT.LOS n.val true).chimeLost n.val
        exec (.rawLosAssert n) s =
          .next (s.withDev ((if s.dev.rxState n.val ≤ 2 then d else d.enterSignal n.val).defSync n.val))) ∧
      exec (.rawLosRelease n) s = .next (s.withDev ((s.dev.setB Reg.LE_RX_STAT.LOS n.val false).defSync n.val)) ∧
      (s.dev.rxState n.val = 2 → s.dev.flag Reg.LE_RX_STAT.LOS n.val = false →
        exec (.signalPresent n) s = .next (s.withDev ((s.dev.enterSearch n.val false).defSync n.val))) ∧
      (∀ l : List Int, s.dev.rxState n.val = 3 →
        let k := l.filter (s.dev.searchCovers n.val)
        0 < k.length → k.length ≤ 4 →
        exec (.cdSearchDone n l) s = .next (s.withDev (((s.dev.setCands n.val k).enterFreq n.val).defSync n.val))) ∧
      (∀ mhz : Int, s.dev.rxState n.val = 4 → mhz.natAbs ≤ 5000 →
        exec (.freqAcquired n mhz) s = .next (s.withDev ((s.dev.enterRx n.val 5).defSync n.val))) ∧
      (∀ (c : Instr) (st : Nat), (c = .meqConverged n ∧ st = 5) ∨ (c = .trlLocked n ∧ st = 6) ∨ (c = .pilotLocked n ∧ st = 7) →
        s.dev.rxState n.val = st → exec c s = .next (s.withDev ((s.dev.enterRx n.val (st + 1)).defSync n.val))) ∧
      (∀ d : Dev, ∀ st : Nat, st < 11 → (d.enterRx n.val st).rxState n.val = st ∧
        (d.enterRx n.val st).flag Reg.LE_FEC_STAT.RUN n.val = ((st == 8 || st == 9) && d.flag Reg.LE_FEC_STAT.RUN n.val))) ∧
  (
    ∀ (s : State) (n : Fin 8), s.Runs →
      (3 ≤ s.dev.rxState n.val → s.dev.rxState n.val ≤ 8 →
        let d := s.dev.until (s.dev.acqTimeout n.val)
        exec (.acqTimeout n) s = .next (s.withDev
          ((if s.dev.rxState n.val = 3 then (d.failedPass n.val).enterSearch n.val false else d.dropCandidate n.val).defSync n.val))) ∧
      (∀ cause : Nat, s.dev.rxState n.val = 9 →
        let d := (s.dev.setB Reg.LE_RX_STAT.LOL n.val true).set Reg.LE_RX_STAT.LOL_CAUSE n.val cause
        let e := (d.modRx n.val fun r => { r with lossEnd := some (d.galleyEnd n.val), reacq := true }).modFrm n.val fun f => { f with lolHeld := cause == 5 }
        exec (.lossOfLock n cause) s = .next (s.withDev
          ((if cause = 6 then (e.setCands n.val []).enterRx n.val 10 else (e.setCands n.val [e.dSet n.val]).enterFreq n.val).defSync
            n.val))))

/-- A receive galley is counted where it was whole and locked, and its marker, decoder and framer follow; without galley
alignment an interval of 5,242,880 samples stands in for it; the dispersion steps; the bits of the test pattern are checked.
Completes rxGalleyComplete, cdeStep and rxPrbsLock. -/
def Obligations.ReceiveGalleysCounted : Prop :=
  ∀ (s : State) (n : Fin 8), s.Runs →
    (∀ m : RxGalley,
      let g := s.dev.completedGalley n.val
      let d := ((if g.isSome then s.dev else s.dev.standIn n.val).adcFigures n.val m).loopFigures n.val g.isSome m
      exec (.rxGalleyComplete n m) s = .next (s.withDev
        ((((((match g with | some g => (d.markerTaken n.val g m).galleyOver n.val m | none => d).fecGalley n.val
          (g.isSome && s.dev.lockedThrough n.val m && s.dev.get Reg.LE_RX_PRBS.MODE n.val != 2)).frmGalley n.val g)).rxGalleyNext
          n.val).defSync n.val))) ∧
    (∀ v : Int, s.dev.cdeManual n.val = true → (s.dev.le n.val).rx.dNext = some v →
      exec (.cdeStep n) s = .next (s.withDev
        ((((s.dev.setD n.val v).modRx n.val fun r => { r with dNext := none, dStep := true }).raise Ev.cdeStep n.val n.val
          0).recheckBounds))) ∧
    (∀ (k : Fin 16) (bits : List Bool), 0 < s.dev.get Reg.LE_RX_PRBS.MODE n.val → s.dev.rxState n.val ≠ 8 →
      let r := (s.dev.le n.val).rx.prbs.feed prbs31 bits
      ∃ t, exec (.rxPrbsLock n k bits) s = .next t ∧ t.dev.flag Reg.LE_RX_PRBS.LOCK n.val = r.c.locked ∧
        (t.dev.le n.val).rx.prbs = r.settle.1 ∧
        t.dev.get Reg.LE_RX_PRBS_ERR.ERR n.val = capN 0xFFFFFFFF (s.dev.get Reg.LE_RX_PRBS_ERR.ERR n.val + r.errs) ∧
        t.dev.get Reg.LE_RX_PRBS_CNT.CNT n.val = capN 0xFFFFFFFF (s.dev.get Reg.LE_RX_PRBS_CNT.CNT n.val + r.settle.2) ∧
        s.dev.FieldsOnly (keysOf [Reg.LE_RX_PRBS.LOCK, Reg.LE_RX_PRBS_ERR.ERR, Reg.LE_RX_PRBS_CNT.CNT] n.val)
          { t.dev with les := s.dev.les } ∧ t.mem = s.mem)

/-! ### Framing and performance monitoring (R159 to R188) -/

/-- A forme comes from the recovery loops: one with a discarded sample is lost; an LDPC forme is demapped, decoded and goes on
to the framer, in FRAME to its hunt and in LOCKED by its alignment; a trellis forme enters the window, and the forme that leaves
it goes on; in PRBS mode 2 the checker sees the bits. Completes formeReceived. A defect's integration unit ends on a carrier or
on the flows. Completes defectIntegrationUnit. The performance clock: a second ends, is committed 10 s of device time after its
end, and a clear is taken. Completes pmSecondEnd, pmSecondCommit and pmClr. -/
def Obligations.FramingAndPerformance : Prop :=
  (
    ∀ (s : State) (n : Fin 8) (m : Received), s.Runs →
      let first := s.dev.sampleCount n.val m.first
      let ratios := ((s.dev.demap n.val m).flatten.take (s.dev.reqBits n.val)).toArray
      (s.dev.gapWithin n.val first (first + 327680) = true → exec (.formeReceived n m) s = .next s) ∧
      (s.dev.gapWithin n.val first (first + 327680) = false →
        ((s.dev.rxState n.val = 8 ∨ s.dev.rxState n.val = 9) → s.dev.get Reg.LE_RX_PRBS.MODE n.val = 2 →
          exec (.formeReceived n m) s = .next (s.withDev (s.dev.prbsForme n.val (s.dev.demap n.val m)))) ∧
        (7 ≤ s.dev.rxState n.val → s.dev.rxState n.val ≤ 9 → s.dev.get Reg.LE_RX_PRBS.MODE n.val ≠ 2 → s.dev.trellis n.val = true →
          exec (.formeReceived n m) s = .next (s.withDev
            ((s.dev.modFec n.val fun y => { y with dec := y.dec.receive first (s.dev.rxBank n.val) ratios }).stairDeliver n.val))) ∧
        (s.dev.get Reg.LE_RX_PRBS.MODE n.val ≠ 2 → s.dev.trellis n.val = false →
          let w := s.dev.ldpcReceive n.val first ratios
          let d := (s.dev.fecForme n.val w).setB Reg.LE_FEC_STAT.RUN n.val true
          (s.dev.rxState n.val = 8 → d.rxState n.val = 8 →
            exec (.formeReceived n m) s = .next (s.withDev ((d.huntForme n.val w.bytes).defSync n.val))) ∧
          (s.dev.rxState n.val = 9 → d.rxState n.val = 9 →
            exec (.formeReceived n m) s = .next (s.withDev
              ((if d.fa n.val then d.alignedForme n.val w else d).defSync n.val)))))) ∧
  (
    ∀ s : State, s.Runs →
      (∀ (n : Fin 8) (u : Fin 3), exec (.defectIntegrationUnit (some n) u) s = .next (s.withDev (s.dev.defUnitEnd n.val u.val))) ∧
      (∀ u : Fin 3, exec (.defectIntegrationUnit none u) s = .next (s.withDev (s.dev.flowUnitEnd u.val)))) ∧
  (
    ∀ s : State,
      (s.Runs →
        let stop := devSec (s.dev.pmClock.sec + 1)
        let d := (s.dev.untilTime stop).pmClassify stop
        exec .pmSecondEnd s = .next (s.withDev (if d.flag Reg.FRM_PM_STAT.CLR_PEND 0 then d.pmCommit.pmClear else d))) ∧
      (∀ (x : PmSecond) (l : List PmSecond), s.Runs → (s.dev.le 0).frm.pm.wait = x :: l →
        exec .pmSecondCommit s = .next (s.withDev (s.dev.untilTime x.due).pmCommit)) ∧
      (
        let w := Reg.FRM_PM_CTRL.CLR.put 1 (s.kept .frmc 0 0x040)
        s.Accepts .frmc 0 0x040 w → Reg.FRM_PM_CTRL.EN.on w = true →
        exec .pmClr s = .next (s.withDev (s.stored .frmc 0 0x040 w).pmClrWritten)))

/-! ### Bundling and the host lanes (R189 to R261) -/

/-- A forme that every carrier with a sort has delivered is released; at the timeout it is released without those that lack it;
PLACE runs on the inputs of its job, and a trial placement shows what it would shed and move. Completes deskewRelease,
deskewTimeout, placeCompute and placeTry. -/
def Obligations.DeskewAndPlacement : Prop :=
  ∀ s : State,
    (∀ g r : Nat, s.Runs → s.dev.rxCarriers ≠ [] → (∀ n ∈ s.dev.rxCarriers, (s.dev.heldForme n g r).isSome = true) →
      exec (.deskewRelease g r) s = .next (s.withDev (s.dev.release g r))) ∧
    (∀ g r t : Nat, s.Runs → s.dev.firstArrival g r = some t →
      let d := s.dev.until (t + s.dev.fmx.maxNs)
      exec (.deskewTimeout g r) s = .next (s.withDev ((d.deskewOver g r).release g r)) ∧
        (d.deskewLate g r ≠ [] → d.path.overFlows = [] → (d.rxGalleyTo g).get Reg.FMX_DSK_ERR.OVER 0 < 65535 →
          (d.deskewOver g r).get Reg.FMX_DSK_ERR.OVER 0 = (d.rxGalleyTo g).get Reg.FMX_DSK_ERR.OVER 0 + 1)) ∧
    (∀ j : PlaceJob, s.Runs → s.dev.fmx.job = some j →
      let p := s.dev.placed (if j.reason = reasonPlanned then s.dev.plannedBank else s.dev.homeTx) s.dev.members s.dev.fmx.excl
      exec .placeCompute s = .next (s.withDev
        { s.dev with fmx := { s.dev.fmx with job := none, ann := some ⟨j.reason, p, j.since, none⟩ } })) ∧
    (∀ m : Fin 256, s.Accepts .fmxB 0 0x068 m.val →
      ∃ t, exec (.placeTry m) s = .next t ∧ t.dev.get Reg.FMX_PLACE_TRY.MASK 0 = m.val ∧ t.dev.flag Reg.FMX_PLACE_RES.DONE 0 = true ∧
        t.dev.fmx = s.dev.fmx ∧ t.mem = s.mem)

/-- BSIG and KSIG freeze 1 µs before a galley; a received BSIG that every member's copy lacks is counted as lost, and carriers
are tried for a join; each map switch applies its map at its galley. Completes bsigFreeze, bsigReceive, txMapSwitch and
rxMapSwitch. -/
def Obligations.MapsSwitch : Prop :=
  ∀ s : State, s.Runs →
    (s.dev.locked = true →
      let d := s.dev.until (s.dev.nextGalley - 1000)
      exec .bsigFreeze s = .next (s.withDev ((d.bsigFreeze d.nextGnum).ksigFreeze d.nextGnum))) ∧
    (∀ g : Nat, s.dev.anyMember = true → s.dev.fmx.bsigAt ≠ some g →
      (∀ n ∈ allLe, s.dev.member n = true → s.dev.bsigOn n g = none ∧ s.dev.copyLost n g = true) →
      let d : Dev := { s.dev with fmx := { s.dev.fmx with bsigAt := some g, bsigGot := [], bsigSeen := [] } }
      exec (.bsigReceive g) s = .next (s.withDev ((d.bump Reg.FMX_BSIG_CNT.LOST 0).over allLe fun n d => d.tryJoin n g))) ∧
    (∀ g n b, s.dev.fmx.bsigAt ≠ some g →
      ((allLe.filter s.dev.member).filterMap fun n => (s.dev.bsigOn n g).map fun b => (n, b)).head? = some (n, b) → bsigKnown b = true →
      let d := (s.dev.modFmx fun x => { x with bsigAt := some g, bsigGot := b, bsigSeen := [n] }).bsigCompare
        ((allLe.filter s.dev.member).filterMap fun n => (s.dev.bsigOn n g).map fun b => (n, b))
      exec (.bsigReceive g) s = .next (s.withDev ((d.bsigTake g b).over allLe fun n d => d.tryJoin n g))) ∧
    (∀ (a : Announce) (A : Nat), s.dev.fmx.switching = some a → a.galleyA = some A → s.dev.gnum ≠ (A + 2) % pow2 32 →
      exec .txMapSwitch s = .next s) ∧
    (∀ (a : Announce) (A : Nat), s.dev.fmx.switching = some a → a.galleyA = some A → s.dev.gnum = (A + 2) % pow2 32 →
      exec .txMapSwitch s = .next (s.withDev
        (((s.dev.txMapTake a).txMapCyp.txMapSay s.dev.fmx.tx a).plannedCheck.recheckBounds)) ∧
        (s.dev.txMapTake a).fmx.tx = a.placed ∧
        (s.dev.txMapTake a).get Reg.FMX_BND_STAT.EXCL_TX 0 = a.placed.excl % 256) ∧
    (∀ (a : RxArm), s.dev.fmx.arm = some a →
      exec (.rxMapSwitch a.galley) s = .next (s.withDev
        (((s.dev.watchRx s.dev.fmx.rx.flows fun d => d.rxMapTake a a.galley).rxMapReports s.dev.fmx.rx).plannedCheck.recheckBounds)))

/-- A planned switch is committed, cancelled or given up after 10 s with RESULT 5 or 3; carriers return; a departure completes
when its conditions hold, and is forced 100 ms after its transmit switch. Completes commit, cancel, mapSwitchTimeout,
returnBundle, departureComplete and departForced. -/
def Obligations.PlannedSwitchesAndDepartures : Prop :=
  ∀ s : State,
    (
      let w := Reg.FMX_MAP_CTRL.COMMIT.put 1 (s.kept .fmxB 0 0x064)
      s.Accepts .fmxB 0 0x064 w → Reg.FMX_MAP_CTRL.CANCEL.on w = false →
      exec .commit s = .next (s.withDev (s.stored .fmxB 0 0x064 w).commitPlanned)) ∧
    (
      let w := Reg.FMX_MAP_CTRL.CANCEL.put 1 (s.kept .fmxB 0 0x064)
      s.Accepts .fmxB 0 0x064 w → Reg.FMX_MAP_CTRL.COMMIT.on w = false →
      exec .cancel s = .next (s.withDev ((s.stored .fmxB 0 0x064 w).plannedEnd 5))) ∧
    (∀ t : Nat, s.Runs → s.dev.fmx.plannedAt = some t → s.dev.plannedPending = true → s.dev.fmx.plannedSaid = false →
      exec .mapSwitchTimeout s = .next (s.withDev ((s.dev.until (t + 10000000000)).plannedEnd 3))) ∧
    (∀ m : Fin 256,
      let w := Reg.FMX_BND_CTRL.RETURN.put m.val (s.kept .fmxB 0 0x044)
      0 < m.val → s.Accepts .fmxB 0 0x044 w →
      exec (.returnBundle m) s = .next (s.withDev ((s.stored .fmxB 0 0x044 w).returnCarriers m.val))) ∧
    (∀ n : Fin 8, s.Runs → s.dev.isDeparting n.val = true → s.dev.departureMet n.val = true →
      exec (.departureComplete n) s = .next (s.withDev (s.dev.completeDeparture n.val).calStep)) ∧
    (∀ (n : Fin 8) (t : Nat), s.Runs → s.dev.isDeparting n.val = true →
      Store.get (fun _ => (⟨none, false⟩ : Depart)) s.dev.fmx.departs n.val = ⟨some t, false⟩ →
      exec (.departForced n) s = .next (s.withDev
        (((s.dev.until (t + 100000000)).completeDeparture n.val).raise Ev.departForced 0 n.val 0).calStep))

/-- The lane groups' commands, when accepted, and the lanes' signals, rimshots, training and failures. Completes hlnGroupEn,
retrain, rejoin, laneSignalDetect, laneSignalLoss, rimshot, laneTuneDone, laneTimeout and laneBackoffExpiry. A failed lane goes
to OFF of its training, counts the attempt, and doubles its backoff from 100 ms to at most 6,400 ms. -/
def Obligations.LanesTrain : Prop :=
  (
    ∀ (s : State) (g : Fin 16),
      (∀ on : Bool,
        let w := Reg.HLN_GRP_CTRL.EN.put (b1 on) (s.kept .hlnG g.val 0x040)
        s.Accepts .hlnG g.val 0x040 w →
        exec (.hlnGroupEn g on) s = .next (s.withDev ((s.stored .hlnG g.val 0x040 w).hlnCtrlApply g.val w (s.dev.grpEn g.val)))) ∧
      (
        let w := Reg.HLN_GRP_CTRL.RETRAIN.put 1 (s.kept .hlnG g.val 0x040)
        s.Accepts .hlnG g.val 0x040 w →
        exec (.retrain g) s = .next (s.withDev ((s.stored .hlnG g.val 0x040 w).hlnCtrlApply g.val w (s.dev.grpEn g.val)))) ∧
      (
        let w := Reg.HLN_GRP_CTRL.REJOIN.put 1 (s.kept .hlnG g.val 0x040)
        s.Accepts .hlnG g.val 0x040 w →
        exec (.rejoin g) s = .next (s.withDev ((s.stored .hlnG g.val 0x040 w).hlnCtrlApply g.val w (s.dev.grpEn g.val)))) ∧
      (∀ p : Fin 8, s.Runs → s.dev.grpEn g.val = true →
        exec (.laneSignalDetect g p) s = .next (s.withDev
          ((s.dev.modGrp g.val fun x => { x with sig := setBit x.sig p.val true }).tryDetect g.val))) ∧
      (∀ p : Fin 8, s.Runs → s.dev.boundLane g.val p.val = none →
        exec (.laneSignalLoss g p) s = .next (s.withDev (s.dev.modGrp g.val fun x => { x with sig := setBit x.sig p.val false }))) ∧
      (∀ (p : Fin 8) (k : List (Fin 4)), s.Runs → s.dev.grpEn g.val = true → readRimshot (k.map (·.val)) = none →
        exec (.rimshot g p k) s = .next (s.withDev (s.dev.rimMissed g.val p.val))) ∧
      (∀ (p : Fin 8) (k : List (Fin 4)) (w : Nat) (inv : Bool), s.Runs → s.dev.grpEn g.val = true →
        readRimshot (k.map (·.val)) = some (w, inv) →
        (bitsOf w 12 4 ≠ g.val →
          exec (.rimshot g p k) s = .next (s.withDev
            ((s.dev.setRun g.val p.val RimRun.reset).raise Ev.wrongGroup g.val (8 * g.val + p.val) (bitsOf w 12 4)))) ∧
        (bitsOf w 12 4 = g.val → s.dev.getJ Reg.HLN_LANE_STAT.BOUND g.val (bitsOf w 9 3) = 1 →
          s.dev.getJ Reg.HLN_LANE_STAT.RX_PHYS g.val (bitsOf w 9 3) ≠ p.val →
          exec (.rimshot g p k) s = .next (s.withDev
            ((s.dev.setRun g.val p.val RimRun.reset).raise Ev.laneDup g.val (8 * g.val + p.val) (bitsOf w 9 3)))) ∧
        (bitsOf w 12 4 = g.val → s.dev.getJ Reg.HLN_LANE_STAT.BOUND g.val (bitsOf w 9 3) = 0 →
          (s.dev.boundLane g.val p.val).any (· != bitsOf w 9 3) = false →
          exec (.rimshot g p k) s = .next (s.withDev (s.dev.rimshotFor g.val p.val (bitsOf w 9 3) w inv)))) ∧
      (∀ (l : Fin 8) (snr : Nat) (dfe : Int) (ctle : Nat), s.Runs → s.dev.laneState g.val l.val = 2 →
        snr < s.dev.get Reg.HLN_GRP_TRAIN.SNR_MIN g.val → snr < 65536 → (s.dev.lane g.val l.val).tuned = false →
        ∃ t, exec (.laneTuneDone g l snr dfe ctle) s = .next t ∧ t.dev.getJ Reg.HLN_LANE_STAT.SNR g.val l.val = snr ∧
          t.dev.laneState g.val l.val = 2 ∧ t.mem = s.mem) ∧
      (∀ (l : Fin 8) (snr : Nat) (dfe : Int) (ctle : Nat), s.Runs → s.dev.laneState g.val l.val = 2 → s.dev.grpRun g.val = false →
        s.dev.get Reg.HLN_GRP_TRAIN.SNR_MIN g.val ≤ snr → snr < 65536 → (s.dev.lane g.val l.val).ready = true →
        ∃ t, exec (.laneTuneDone g l snr dfe ctle) s = .next t ∧ t.dev.getJ Reg.HLN_LANE_STAT.SNR g.val l.val = snr ∧
          t.dev.laneState g.val l.val = 3 ∧ t.mem = s.mem) ∧
      (∀ (l : Fin 8) (n : Nat), s.Runs → s.dev.laneTimeoutNs g.val l.val = some n → s.dev.laneState g.val l.val ≠ 3 →
        exec (.laneTimeout g l) s = .next (s.withDev ((s.dev.until ((s.dev.lane g.val l.val).stateAt + n)).laneFail g.val l.val 0))) ∧
      (∀ l : Fin 8, s.Runs → s.dev.laneState g.val l.val = 0 → (s.dev.lane g.val l.val).backoffOver = false →
        exec (.laneBackoffExpiry g l) s = .next (s.withDev
          (((s.dev.until ((s.dev.lane g.val l.val).stateAt + 1000000 * s.dev.getJ Reg.HLN_LANE_BACKOFF.BACKOFF_MS g.val l.val)).modLane g.val
            l.val fun x => { x with backoffOver := true }).tryDetect g.val)))) ∧
  (
    ∀ (d : Dev) (g : Fin 16) (l : Fin 8) (cause : Nat),
      let e := d.laneFail g.val l.val cause
      let old := d.getJ Reg.HLN_LANE_BACKOFF.BACKOFF_MS g.val l.val
      e.laneState g.val l.val = 0 ∧
        e.getJ Reg.HLN_LANE_BACKOFF.BACKOFF_MS g.val l.val = (if old = 0 then 100 else min 6400 (2 * old)) ∧
        e.getJ Reg.HLN_LANE_STAT.BOUND g.val l.val = 0 ∧ (e.lane g.val l.val).failed = true)

/-- A group's alignment, its entry to RUN, its blocks in both directions, a lane lost, a stuck peer, the merge of a pair's
halves, and the test pattern. Completes groupAlign, groupRunEntry, hlnBlockReceive, hlnBlockSend, laneLost, peerStuck,
pairMergeTimeout and hlnPrbsLock. -/
def Obligations.LaneGroupsCarryBlocks : Prop :=
  ∀ (s : State) (g : Fin 16), s.Runs →
    (∀ skew : List Nat, s.dev.alignReady g.val = true → (∀ l, l < 8 → skew.getD l 0 ≤ 16) →
      ∃ t, exec (.groupAlign g skew) s = .next t ∧ t.dev.gstate g.val = 2 ∧ t.mem = s.mem) ∧
    (∀ skew : List Nat, s.dev.alignReady g.val = true →
      (allLe.any fun l => s.dev.laneState g.val l == 3 && decide (16 < skew.getD l 0)) = true →
      exec (.groupAlign g skew) s = .next (s.withDev (s.dev.alignFail g.val))) ∧
    (s.dev.runReady g.val = true →
      let d := (s.dev.over (allLe.filter (bitOf (s.dev.laneSet g.val))) fun l d => d.laneRun g.val l).set Reg.HLN_GRP_STAT.GSTATE g.val 3
      exec (.groupRunEntry g) s = .next (s.withDev
        (((d.restartFlows (allFlows.filter (d.flowUses · g.val))).raise Ev.group g.val g.val 1).shedEval))) ∧
    (∀ b : HostBlock, s.dev.grpEn g.val = true → 2 ≤ s.dev.gstate g.val →
      let d := ((s.dev.set Reg.HLN_GRP_EB.RX_FILL g.val (capN 20480 b.rxFill)).keepClocks g.val b).peerSet g.val
      let x := d.blockSet g.val b
      let r := decodeBlock (allLe.filter (bitOf x.1)) (d.setUnits g.val b x.1)
      let e := d.blockCounts g.val r
      exec (.hlnBlockReceive g b) s = .next (s.withDev
        ((match x.2 with | some h => e.readHeader g.val h | none => e.noHeader g.val).over (List.range (blockCells r.set.length))
          fun q d => d.blockCell g.val r q)) ∧
      e.get Reg.HLN_RS_UNC.UNC g.val = capN 0xFFFFFFFF (s.dev.get Reg.HLN_RS_UNC.UNC g.val + r.lost.length)) ∧
    (∀ c : LaneClock, s.dev.grpEn g.val = true →
      let d := (s.dev.modGrp g.val fun x => { x with txClock := s.dev.laneTimes c }).set Reg.HLN_GRP_BNUM.BNUM g.val
        (s.dev.get Reg.HLN_GRP_BNUM.BNUM g.val + 1)
      let e := (d.countdown g.val).blockBuilt g.val
      d.get Reg.HLN_GRP_BNUM.BNUM g.val = (s.dev.get Reg.HLN_GRP_BNUM.BNUM g.val + 1) % 4294967296 ∧
      (s.dev.gstate g.val < 2 → exec (.hlnBlockSend g c) s = .next (s.withDev (d.blockDealt g.val false))) ∧
      (2 ≤ s.dev.gstate g.val →
        exec (.hlnBlockSend g c) s = .next (s.withDev (e.blockDealt g.val (decide (2 ≤ e.gstate g.val)))) ∧
          (e.grp g.val).cells.length = (if popcount8 ((d.countdown g.val).laneSet g.val) = 8 then 40 else 35) ∧
          (e.grp g.val).header = (d.countdown g.val).blockHeader g.val ∧ e.regs = (d.countdown g.val).regs)) ∧
    (∀ (l : Fin 8) (c : Fin 4), s.dev.laneState g.val l.val = 4 → s.dev.lossHolds g.val l.val c.val = true →
      let d := ((s.dev.laneFresh g.val l.val).addSatJ Reg.HLN_LANE_TRY.LOSSES g.val l.val 1).raise Ev.laneLost g.val (8 * g.val + l.val) c.val
      exec (.laneLost g l c) s = .next (s.withDev ((d.setChanged g.val).tryDetect g.val))) ∧
    (∀ n : Nat, s.dev.grpRun g.val = true → (s.dev.grp g.val).noHdr = some n → 128 ≤ n →
      exec (.peerStuck g) s = .next (s.withDev ((s.dev.raise Ev.peerStuck g.val g.val 1).leaveRun g.val))) ∧
    (∀ n : Nat, s.dev.grpRun g.val = true → (s.dev.grp g.val).noHdr = none → (s.dev.grp g.val).sinceSwitch = some n → 128 ≤ n →
      exec (.peerStuck g) s = .next (s.withDev ((s.dev.raise Ev.peerStuck g.val g.val 2).leaveRun g.val))) ∧
    (∀ (f : Fin 1024) (c : Cell) (l : List Cell), Store.get (fun _ => []) s.dev.path.merge f.val = c :: l →
      exec (.pairMergeTimeout f) s = .next (s.withDev
        (Dev.drainMerge 65536 (((s.dev.until (l.foldl (fun a x => min a x.edge) c.edge + 1000)).modPath fun x =>
          { x with merge := Store.set (fun _ => []) x.merge f.val l }).accept c true) f.val))) ∧
    (∀ (l : Fin 8) (k : List (Fin 4)) (q : TestSeq), testSeq (s.dev.getJ Reg.HLN_LANE_CTRL.TEST g.val l.val) = some q →
      let x := checkLevels q (s.dev.getJ Reg.HLN_LANE_CTRL.PRECODE g.val l.val == 2) (s.dev.lane g.val l.val) (k.map (·.val))
      let r := if x.2.2 then x.2.1 else x.1
      ∃ t, exec (.hlnPrbsLock g l k) s = .next t ∧ t.dev.getJ Reg.HLN_LANE_CTRL.PRBS_LOCK g.val l.val = b1 r.c.locked ∧
        t.dev.getJ Reg.HLN_LANE_PRBS_ERR.ERR g.val l.val =
          capN 0xFFFFFFFF (s.dev.getJ Reg.HLN_LANE_PRBS_ERR.ERR g.val l.val + r.errs) ∧
        t.dev.getJ Reg.HLN_LANE_PRBS_CNT.CNT g.val l.val =
          capN 0xFFFFFFFF (s.dev.getJ Reg.HLN_LANE_PRBS_CNT.CNT g.val l.val + r.settle.2) ∧ t.mem = s.mem)

/-! ### Commits of write-commit fields, and counters that a write clears (R36, R456) -/

/-- A write of 0 to `LE_EB_ERR` clears both counters; any other value is rejected with E_RANGE, and they keep their values. -/
def Obligations.BufferErrorsClear : Prop :=
  ∀ (s : State) (n : Fin 8), s.Live → decodePage (pageOf .pace n.val) = some (.pace, n.val) →
    s.dev.pageServed (pageOf .pace n.val) = true → s.dev.flag Hdr.CTRL.ENABLE (pageOf .pace n.val) = true →
    (∃ t, exec (.registerWrite (.page (pageOf .pace n.val) 0x5C) 0) s = .next t ∧
      t.dev.get Reg.LE_EB_ERR.RX_OVERFLOW n.val = 0 ∧ t.dev.get Reg.LE_EB_ERR.TX_UNDERRUN n.val = 0) ∧
    (∀ v : Word, v ≠ 0 →
      ∃ t, exec (.registerWrite (.page (pageOf .pace n.val) 0x5C) v) s = .next t ∧
        t.dev.get Hdr.ERR_CODE.CODE (pageOf .pace n.val) = Err.range.code ∧
        t.dev.get Reg.LE_EB_ERR.RX_OVERFLOW n.val = s.dev.get Reg.LE_EB_ERR.RX_OVERFLOW n.val ∧
        t.dev.get Reg.LE_EB_ERR.TX_UNDERRUN n.val = s.dev.get Reg.LE_EB_ERR.TX_UNDERRUN n.val)

/-! ### Tympan (R262 to R299) -/

/-- SRC, INCR, SET and STEP, when accepted; a step is made at its galley. Completes src, incr, set, step and stepApply. -/
def Obligations.TimeCommandsTakeEffect : Prop :=
  ∀ s : State,
    (∀ k : Fin 4, s.Accepts .tymC 0 0x040 k.val →
      exec (.src k) s = .next (s.withDev ((s.stored .tymC 0 0x040 k.val).srcWritten s.dev.tymState))) ∧
    (∀ lo : Word, s.Accepts .tymC 0 0x048 lo.toNat →
      ∃ t, exec (.incr lo) s = .next t ∧
        t.dev.tym.incrNext = some (lo.toNat + 4294967296 * s.dev.get Reg.TYM_INCR_HI.INCR_HI 0) ∧ t.dev.incr = s.dev.incr ∧ t.mem = s.mem) ∧
    (∀ (c : Instr) (k : Nat), (c = .set ∧ k = 1) ∨ (c = .step ∧ k = 2) → s.Accepts .tymT 0 0x05C k →
      exec c s = .next (s.withDev ((s.stored .tymT 0 0x05C k).adjust k))) ∧
    (∀ r : StepReq, s.Runs → s.dev.tym.step = some r → exec .stepApply s = .next (s.withDev (s.dev.makeStep.pmStep r.delta))) ∧
    (∀ d : Dev, (d.adjust 2).tym.step = some ⟨d.stepGalley, if d.flag Reg.TYM_ADJ_SEC_HI.SIGN 0 then -d.adjValue else d.adjValue⟩)

/-- The servo slews small offsets and requests a step for large ones; the holdover limit, the inputs' edges and messages, and a
whole second of device time. Completes servoUpdate, holdExpired, ppsInEdge, ppsInWindowExpiry, todMessage, todFault, f10Lost,
timecalEdge and deviceSecond. -/
def Obligations.TimeEventsTakeEffect : Prop :=
  ∀ s : State, s.Runs →
    (
      let z := if s.dev.src = 2 then s.dev.applyPeerStep else s.dev
      (z.tymState = 1 ∨ z.tymState = 2) → z.tym.step = none → ((z.src = 1 ∧ z.tym.ppsNew = true) ∨ z.src = 2) →
      let x := z.servoOffset
      let d := (z.modTym fun y => { y with ppsNew := false }).setS Reg.TYM_OFS.PS 0 (clampI (-2147483648) 2147483647 (toPs x))
      ((d.get Reg.TYM_SERVO.STEP_NS 0 : Int) * 65536 < x.natAbs →
        exec .servoUpdate s = .next (s.withDev
          (((d.requestStep d.stepGalley (-x)).modTym fun y => { y with lockRun := 0 }).enterTym 1))) ∧
      (x.natAbs ≤ (d.get Reg.TYM_SERVO.STEP_NS 0 : Int) * 65536 →
        let e := d.slew x (if d.src = 1 then 10 else 1)
        let run := if x.natAbs * 125 ≤ e.get Reg.TYM_LOCK.LOCK_PS 0 * 8192 then e.tym.lockRun + 1 else 0
        let e := e.modTym fun y => { y with lockRun := run }
        exec .servoUpdate s = .next (s.withDev (if e.tymState = 1 ∧ 16 ≤ run then e.enterTym 2 else e)))) ∧
    (s.dev.tymState = 3 → s.dev.tym.holdSaid = false →
      exec .holdExpired s = .next (s.withDev
        (((s.dev.until (s.dev.tym.holdAt + 1000000000 * (60 * s.dev.get Reg.TYM_HOLD.LIMIT_MIN 0))).modTym fun x =>
          { x with holdSaid := true }).raise Ev.holdExpired 0 0 0))) ∧
    (∀ t : Int, s.dev.flag Reg.TYM_PPS_IN_STAT.PPS_OK 0 = true → inWindow (s.dev.tym.ppsExp.getD t) t = true →
      exec (.ppsInEdge t) s = .next (s.withDev
        (((s.dev.setCapture Reg.TYM_PPS_IN_CAP_SEC_LO.SEC_LO Reg.TYM_PPS_IN_CAP_SEC_HI.SEC_HI Reg.TYM_PPS_IN_CAP_NS.NS
          Reg.TYM_PPS_IN_CAP_FRAC.FRAC t).modTym fun x => { x with ppsCount := (x.ppsCount + 1) % 65536 }).modTym fun x =>
          { x with ppsExp := some t, ppsCap := some t, ppsNew := true, ppsFaults := 0 }))) ∧
    (∀ e : Int, s.dev.flag Reg.TYM_PPS_IN_STAT.PPS_OK 0 = true → s.dev.tym.ppsExp = some e →
      let d := s.dev.wait ((e + second16 + window16 - s.dev.stampNow) / 65536 + 1).toNat
      exec .ppsInWindowExpiry s = .next (s.withDev
        ((d.modTym fun x => { x with ppsExp := x.ppsExp.map (· + second16) }).ppsFault))) ∧
    (∀ m : TodMessage, m.sumOk = false →
      exec (.todMessage m) s = .next (s.withDev (s.dev.bump Reg.TYM_PPS_IN_STAT.TOD_ERR 0))) ∧
    (∀ m : TodMessage, m.sumOk = true → m.timeEvent = true → s.dev.flag Reg.TYM_EXT_CTRL.TOD_EN 0 = false →
      ∃ t, exec (.todMessage m) s = .next t ∧ t.dev.flag Reg.TYM_PPS_IN_STAT.TOD_OK 0 = true ∧ t.dev.tym.todAt = s.dev.now ∧
        t.mem = s.mem) ∧
    (s.dev.flag Reg.TYM_EXT_CTRL.TOD_EN 0 = true → s.dev.tym.todSaid = false →
      ∃ t, exec .todFault s = .next t ∧ t.dev.flag Reg.TYM_PPS_IN_STAT.TOD_OK 0 = false ∧ t.dev.tym.todSaid = true ∧
        t.dev.now = max s.dev.now (s.dev.tym.todAt + 3000000000) ∧ t.mem = s.mem) ∧
    (∀ ppb : Int, ∃ t, exec (.f10Lost ppb) s = .next t ∧ t.dev.tym.f10 = some ppb ∧
      (t.dev.flag Reg.TYM_PPS_IN_STAT.F10_OK 0 = true ↔ ppb.natAbs ≤ 10000000) ∧ t.mem = s.mem) ∧
    (∀ t : Int, exec (.timecalEdge t) s = .next (s.withDev ((s.dev.timecal t).calCapture t)) ∧
      (s.dev.tym.tcalAt = none →
        (s.dev.timecal t).get Reg.TYM_TCAL_CNT.EDGES 0 = capN 0xFFFF (s.dev.get Reg.TYM_TCAL_CNT.EDGES 0 + 1))) ∧
    (s.dev.locked = true → exec .deviceSecond s = .next (s.withDev (s.dev.tymSecond.monTrigIf 3)))

/-- The span's interval and the dispersion fit; PTP event frames are corrected, and dropped where the correction is out of range
or no offset stands. Completes spanInterval, asymFit, ptpIngress and ptpEgress. -/
def Obligations.SpanAndPtp : Prop :=
  ∀ s : State, s.Runs →
    exec .spanInterval s = .next (s.withDev s.dev.spanInterval) ∧
    exec .asymFit s = .next (s.withDev s.dev.asymFit) ∧
    (∀ (f : Fin 1024) (frame : List Byte) (c : Cell) (e : Nat × PtpReport) (p : Nat) (u : Option Nat),
      let old := frameCells (natsOf frame)
      let wait := Store.get (fun _ => []) s.dev.path.toLine f.val
      let corr := corrField (natsOf frame) p
      runFirst f.val old wait = some c → s.dev.tcOn f.val = true → c.ptp = true → ptpParse (natsOf frame) = .event p u →
      s.dev.ptpEdge false f.val c.seq = some e →
      (corr.natAbs < 4096 * 1000000000 * 65536 →
        let new := frameCells (withCorr (natsOf frame) p u (corr - corrM (s.dev.ingressTime e)))
        let q := editRun f.val old (fun i x => some { x with payload := new.getD i x.payload }) wait
        exec (.ptpIngress f frame) s = .next (s.withDev
          { s.dev with path := { s.dev.path with toLine := Store.set (fun _ => []) s.dev.path.toLine f.val q } })) ∧
      (4096 * 1000000000 * 65536 ≤ corr.natAbs →
        exec (.ptpIngress f frame) s = .next (s.withDev
          (((s.dev.modPath fun x =>
            { x with toLine := Store.set (fun _ => []) x.toLine f.val (editRun f.val old (fun _ _ => none) wait)
                     gapNext := if runIsLast f.val old wait then insertUp f.val x.gapNext else x.gapNext }).bump Reg.TYM_TC_DISC.RANGE
            0).tcDiscarded 1)))) ∧
    (∀ (f : Fin 1024) (frame : List Byte) (c : Cell),
      let old := frameCells (natsOf frame)
      let d := s.dev.applyPeerStep
      s.dev.egressFirst f.val old = some c → s.dev.tcOn f.val = true → c.ptp = true →
      (ptpParse (natsOf frame) = .unparsed →
        exec (.ptpEgress f frame) s = .next (s.withDev (d.bump Reg.TYM_TC_UNPARSED.FRAMES 0))) ∧
      (∀ (e : Nat × PtpReport) (p : Nat) (u : Option Nat), ptpParse (natsOf frame) = .event p u → d.ptpEdge true f.val c.seq = some e →
        let t := d.departureTime e
        let x := corrField (natsOf frame) p + corrM (t - d.thetaAt t)
        let gone := d.editEgress f.val c.seq old.length fun _ _ => none
        (d.flag Reg.TYM_SPAN_STAT.VALID 0 = false →
          exec (.ptpEgress f frame) s = .next (s.withDev ((gone.bump Reg.TYM_TC_DISC.NO_OFFSET 0).tcDiscarded 3))) ∧
        (d.flag Reg.TYM_SPAN_STAT.VALID 0 = true → d.stepGuard t = true →
          exec (.ptpEgress f frame) s = .next (s.withDev ((gone.bump Reg.TYM_TC_DISC.STEP 0).tcDiscarded 2))) ∧
        (d.flag Reg.TYM_SPAN_STAT.VALID 0 = true → d.stepGuard t = false → -(corrModulus / 2) ≤ x → x < corrModulus / 2 →
          let new := frameCells (withCorr (natsOf frame) p u x)
          let g := d.editEgress f.val c.seq old.length fun i y => some { y with payload := new.getD i y.payload }
          ∃ z, exec (.ptpEgress f frame) s = .next z ∧ z.mem = s.mem ∧ z.dev.path = g.path ∧
            z.dev.get64 Reg.TYM_TC_CORR_LO.CORR Reg.TYM_TC_CORR_HI.CORR 0 =
              (d.get64 Reg.TYM_TC_CORR_LO.CORR Reg.TYM_TC_CORR_HI.CORR 0 + 1) % pow2 64)))

/-! ### The chime channel (R300 to R323) -/

/-- A packet whose preamble is heard is received; the lock ends 300 ms after the last valid packet; the packet of highest
priority goes out with the next number. Completes chimePreamble, chimeLockTimeout, chimeSend, helloSend, timeReportSend,
stepNoticeSend, blProposeRepeat, blProposeTimeout, snrReportSend and partnerAbsent. Transfers are repeated after 100 ms without
a receipt, on the next eligible carrier, and given up after five sendings; fragments that wait 2 s for the rest are discarded.
Completes transferRetry and transferPartialExpiry. -/
def Obligations.ChimePacketsSent : Prop :=
  (
    ∀ (s : State) (n : Fin 8), s.Runs →
      (∀ metric : Nat, s.dev.hears n.val = true → 100 ≤ metric → metric < 65536 → (s.dev.le n.val).chm.heard = none →
        ∃ t, exec (.chimePreamble n metric []) s = .next t ∧ t.dev.get Reg.LE_CHM_METRIC.PRE_DB n.val = metric ∧
          (t.dev.le n.val).chm.heard.isSome = true ∧ t.mem = s.mem) ∧
      (s.dev.flag Reg.LE_RX_STAT.CHIME n.val = true →
        exec (.chimeLockTimeout n) s = .next (s.withDev
          ((s.dev.until ((s.dev.le n.val).chm.validAt + 300000000)).chimeLost n.val))) ∧
      (∀ (ty : Nat) (p : List Nat), s.dev.permits n.val = true → (s.dev.le n.val).chm.nextPacket = some (ty, p) → ty ≠ tyTransfer →
        ∃ t, exec (.chimeSend n) s = .next t ∧
          t.dev.get Reg.LE_CHM_SEQ_TX.SEQ n.val = (s.dev.get Reg.LE_CHM_SEQ_TX.SEQ n.val + 1) % 65536 ∧
          t.dev.now = max s.dev.now (s.dev.le n.val).chm.freeAt ∧
          (t.dev.le n.val).chm.sent =
            packetBytes ty n.val (s.dev.get Reg.LE_CHM_SEQ_TX.EPOCH n.val) (s.dev.get Reg.LE_CHM_SEQ_TX.SEQ n.val) p ∧
          (t.dev.le n.val).chm.chips = packetChips (t.dev.le n.val).chm.sent ∧ t.mem = s.mem) ∧
      (s.dev.permits n.val = true →
        ∃ t, exec (.helloSend n) s = .next t ∧ (t.dev.le n.val).helloNow = false ∧ (t.dev.le n.val).chm.helloAt = t.dev.now ∧
          t.dev.regs = s.dev.regs ∧ t.mem = s.mem) ∧
      exec .timeReportSend s = .next (s.withDev (s.dev.over allLe fun n d => d.chimePend n tyReport (d.reportPayload n))) ∧
      (∀ x : StepReq, s.dev.tym.step = some x →
        ∃ t, exec .stepNoticeSend s = .next t ∧ t.dev.chime.noticeAt = t.dev.now ∧ t.dev.regs = s.dev.regs ∧ t.mem = s.mem) ∧
      (∀ p : Proposal, (s.dev.le n.val).chm.proposal = some p → p.cancel = false → p.answered = false →
        let d := s.dev.until (p.lastAt + 100000000)
        d.now < p.startAt + 1000000000 →
        exec (.blProposeRepeat n) s = .next (s.withDev
          ((d.modChm n.val fun c => { c with proposal := some { p with lastAt := d.now } }).chimePend n.val tyPropose p.payload))) ∧
      (∀ p : Proposal, (s.dev.le n.val).chm.proposal = some p → p.cancel = false → p.answered = false →
        s.dev.flag Reg.LE_TX_BL_CTRL.SWITCH n.val = true →
        exec (.blProposeTimeout n) s = .next (s.withDev
          (((((s.dev.until (p.startAt + 1000000000)).chimeDrop n.val tyPropose).set Reg.LE_TX_BL_CTRL.RESULT n.val 3).setB
            Reg.LE_TX_BL_CTRL.SWITCH n.val false).raise Ev.blRefused n.val n.val 3))) ∧
      (s.dev.rxLocked n.val = true →
        exec (.snrReportSend n) s = .next (s.withDev
          (s.dev.chimePend n.val tySnr ((List.range 32).flatMap fun i => bytesBE 2 (s.dev.snrEntry n.val i))))) ∧
      (∀ x : Nat, (s.dev.le n.val).chm.absFrom = some x → s.dev.flag Reg.LE_CHM_STAT.ABSENT n.val = false →
        let d := ((s.dev.until (x + 1000000000 * s.dev.get Reg.LE_CHM_CTRL.ABSENT_S n.val)).setB Reg.LE_CHM_STAT.ABSENT n.val true).raise
          Ev.partnerAbsent 0 n.val 1
        exec (.partnerAbsent n) s =
          .next (s.withDev (if d.flag Reg.LE_CHM_CTRL.ABSENT_EN n.val then d.beaconRequest n.val else d)))) ∧
  (
    ∀ s : State, s.Runs →
      (∀ (x : Xfer) (l : List Xfer), s.dev.chime.xfers = x :: l → s.dev.eligibles ≠ [] → 5 ≤ x.sends →
        exec .transferRetry s = .next (s.withDev ((s.dev.until (x.sentAt + 100000000)).xferEnd 2))) ∧
      (∀ (x : Xfer) (l : List Xfer) (n : Nat), s.dev.chime.xfers = x :: l → s.dev.eligibles ≠ [] → 0 < x.sends → x.sends < 5 →
        (s.dev.until (x.sentAt + 100000000)).eligibleAfter x.le = some n →
        exec .transferRetry s = .next (s.withDev (((s.dev.until (x.sentAt + 100000000)).chimeDrop x.le tyTransfer).sendFrag n))) ∧
      (∀ (xid : Nat) (p : Partial), (s.dev.chime.partials.find? fun p => p.xid == xid) = some p → p.checking = false →
        ∃ t, exec (.transferPartialExpiry xid) s = .next t ∧ t.dev.now = max s.dev.now (p.at_ + 2000000000) ∧
          (∀ q ∈ t.dev.chime.partials, q.xid ≠ xid) ∧ t.dev.regs = s.dev.regs ∧ t.mem = s.mem))

/-- A received packet that is taken in has its type's effect; a hello makes or judges the partner; a packet with a bad check is
counted as failed. Completes hello, timeReport, stepNotice, blPropose, blAnswer, snrReport, transfer and receipt. -/
def Obligations.ChimePacketsReceived : Prop :=
  ∀ (s : State) (n : Fin 8) (b : List Byte), s.Runs →
    let l := natsOf b
    let d := s.dev.packetHeard n.val l
    let p := payloadOf l
    (s.dev.PacketTaken n.val tyReport l → exec (.timeReport n b) s = .next (s.withDev (d.reportIn n.val p))) ∧
    (s.dev.PacketTaken n.val tyNotice l → exec (.stepNotice n b) s = .next (s.withDev
      (d.peerNotice (ofBytesBE (slice p 0 4)) (sgn 96 (ofBytesBE (slice p 4 12))) (p.getD 16 0)))) ∧
    (s.dev.PacketTaken n.val tyPropose l → exec (.blPropose n b) s = .next (s.withDev (d.proposalIn n.val p))) ∧
    (s.dev.PacketTaken n.val tyAnswer l → exec (.blAnswer n b) s = .next (s.withDev (d.answerIn n.val p))) ∧
    (s.dev.PacketTaken n.val tySnr l → exec (.snrReport n b) s = .next (s.withDev
      ((List.range 32).foldl (fun d i => d.setTab (pageOf .chime n.val) 0x01 i 0 (ofBytesBE (slice p (2 * i) 2))) d))) ∧
    (s.dev.PacketTaken n.val tyTransfer l → exec (.transfer n b) s = .next (s.withDev (d.transfer n.val p))) ∧
    (s.dev.PacketTaken n.val tyReceipt l → exec (.receipt n b) s = .next (s.withDev (d.receipt p))) ∧
    (s.dev.hears n.val = true → headerOk l = true → payloadOk l = true → l.getD 0 0 = tyHello → l.getD 2 0 % 8 = n.val →
      lenOk tyHello p.length = true → s.dev.partnerIdent = none → (s.dev.le n.val).chm.resetSeen = none →
      ∃ t, exec (.hello n b) s = .next t ∧ (t.dev.le n.val).chm.ident = some (p.take 32) ∧ t.mem = s.mem) ∧
    (s.dev.hears n.val = true → (headerOk l = false ∨ payloadOk l = false) →
      exec (.timeReport n b) s = .next (s.withDev (s.dev.chimeFailed n.val l)))

/-- R308: a valid packet whose LE is not the receiving line engine's is discarded and counted in MISWIRED; `LE:CHIME_MISWIRE` is
raised with the received LE as code, at most once per second. -/
def Obligations.MiswiredPacketsDiscarded : Prop :=
  ∀ (s : State) (n : Fin 8) (b : List Byte) (c : Instr) (ty : Nat), s.Runs →
    (c = .hello n b ∧ ty = tyHello) ∨ (c = .timeReport n b ∧ ty = tyReport) ∨ (c = .stepNotice n b ∧ ty = tyNotice) ∨
      (c = .blPropose n b ∧ ty = tyPropose) ∨ (c = .blAnswer n b ∧ ty = tyAnswer) ∨ (c = .snrReport n b ∧ ty = tySnr) ∨
      (c = .transfer n b ∧ ty = tyTransfer) ∨ (c = .receipt n b ∧ ty = tyReceipt) →
    let l := natsOf b
    let le := l.getD 2 0 % 8
    s.dev.hears n.val = true → headerOk l = true → payloadOk l = true → l.getD 0 0 = ty → le ≠ n.val →
    let d := ((s.dev.heardNone n.val).chimeLocked n.val).bump Reg.LE_CHM_DISC.MISWIRED n.val
    d.get Reg.LE_CHM_DISC.MISWIRED n.val = capN 0xFF (s.dev.get Reg.LE_CHM_DISC.MISWIRED n.val + 1) ∧
      (since (s.dev.le n.val).chm.miswireAt s.dev.now 1000000000 = true →
        exec c s = .next (s.withDev
          ((d.modChm n.val fun x => { x with miswireAt := some d.now }).raise Ev.chimeMiswire n.val n.val le))) ∧
      (since (s.dev.le n.val).chm.miswireAt s.dev.now 1000000000 = false → exec c s = .next (s.withDev d))

/-! ### Keys (R324 to R363) -/

/-- Carillon's commands and the trust unit's, when accepted. Completes importKey, generate, arm, erase, eraseFlow, zeroise,
nonce, alarmClear, anchorInstall, pairInstall and pairClear. -/
def Obligations.CarillonCommandsTakeEffect : Prop :=
  ∀ s : State,
    (∀ (c : Instr) (op arg : Nat) (f : Dev → Dev),
      (c = .importKey ∧ op = 1 ∧ arg = 0 ∧ f = Dev.importStart) ∨
      (∃ k : Fin 4096, c = .generate k ∧ op = 2 ∧ arg = k.val ∧ f = fun d => d.generateStart k.val) ∨
      (∃ k : Fin 4096, c = .arm k ∧ op = 3 ∧ arg = k.val ∧ f = fun d => d.armStart k.val) ∨
      (∃ k : Fin 4096, c = .erase k ∧ op = 4 ∧ arg = k.val ∧ f = fun d => d.eraseStart 4 k.val [k.val]) ∨
      (∃ k : Fin 4096, c = .eraseFlow k ∧ op = 5 ∧ arg = k.val ∧
        f = fun d => d.eraseStart 5 k.val ((List.range 4).map fun j => k.val / 4 * 4 + j)) ∨
      (c = .zeroise ∧ op = 6 ∧ arg = 0 ∧ f = Dev.zeroise) ∨
      (c = .nonce ∧ op = 7 ∧ arg = 0 ∧ f = fun d => ((d.carStart 7 0).drawNonce).carEnd 0 0) ∨
      (c = .alarmClear ∧ op = 8 ∧ arg = 0 ∧ f = Dev.alarmClear) →
      s.Accepts .car 0 0x040 (Reg.CAR_CMD.OP.put op arg) →
      exec c s = .next (s.withDev (f (s.stored .car 0 0x040 (Reg.CAR_CMD.OP.put op arg))))) ∧
    (∀ (c : Instr) (op : Nat), (c = .anchorInstall ∧ op = 1) ∨ (c = .pairInstall ∧ op = 2) ∨ (c = .pairClear ∧ op = 3) →
      s.Accepts .trust 0 0x044 (Reg.CAR_TRUST_CMD.OP.put op 0) →
      ∃ t, exec c s = .next t ∧ t.dev.flag Reg.CAR_TRUST_STAT.BUSY 0 = true ∧ t.dev.trust.cmd = op ∧ t.mem = s.mem)

/-- A key import ends with its result and no staged byte left; the erasing slots are emptied; a transported key is installed or
refused; received key signalling is taken up; a due switch is made; an alarm zeroises; a generated key is drawn and handed on; a
trust command ends. Completes importComplete, eraseApply, transportCheckDone, ksigReceive, switched, carillonAlarm,
generateLoadComplete and trustCmdDone. -/
def Obligations.KeyEventsTakeEffect : Prop :=
  ∀ s : State, s.Runs →
    (s.dev.carOp = 1 → s.dev.frozenSupply = false → s.dev.idReady = true → s.dev.rangeFails 6 0 (regionSize 6) = false →
      let r := s.dev.staged
      let n := s.dev.importDetail
      let d := match n, s.dev.unwrap r with
        | 0, some p => s.dev.loadSlot (recordSlot r) false (p.take 32) (ofBytesBE (p.drop 32))
        | _, _ => s.dev
      exec .importComplete s = .next (s.withDev ((d.clearStaging.drawNonce).carEnd (importResult n) n))) ∧
    (s.dev.carOp = 1 → s.dev.frozenSupply = true → s.dev.rangeFails 6 0 (regionSize 6) = false →
      exec .importComplete s = .next s) ∧
    (s.dev.vault.erasing ≠ [] →
      let d := (s.dev.over s.dev.vault.erasing fun k d => d.eraseOne k s.dev.gnum s.dev.formes).modVault fun v => { v with erasing := [] }
      exec .eraseApply s = .next (s.withDev (if d.carOp = 4 ∨ d.carOp = 5 then d.carEnd 0 0 else d))) ∧
    (∀ (t : Transport) (sigOk : Bool), s.dev.vault.transport = some t → s.dev.frozenSupply = false → s.dev.idReady = true →
      s.dev.rangeFails 6 0 (regionSize 6) = false →
      let ok := s.dev.transportOk t sigOk
      let d := s.dev.modVault fun v => { v with transport := none }
      let e := match ok, s.dev.unwrap t.record with
        | true, some p => ((d.loadSlot (recordSlot t.record) false (p.take 32) (ofBytesBE (p.drop 32))).modVault fun v =>
            { v with seqRx := ofBytesBE (slice t.record 4 8) }).raise (Ev.carEvent 2) 0 0 (recordSlot t.record)
        | _, _ => d
      exec (.transportCheckDone sigOk) s = .next (s.withDev (e.giveVerdict t.xid (b1 (!ok))))) ∧
    (∀ (g : Nat) (k : List Nat), s.dev.ksigOf g = some k → k.getD 0 0 = 1 →
      exec (.ksigReceive g) s = .next (s.withDev ((((s.dev.ksigSwitchIn g k).ksigEraseIn g k).ksigCkptIn g k).ksigRdyIn k))) ∧
    (∀ f : Fin 1024, s.dev.switchDue f.val s.dev.gnum = true →
      exec (.switched f) s = .next (s.withDev (s.dev.txSwitch f.val s.dev.gnum))) ∧
    (∀ m : Fin 64, exec (.carillonAlarm m) s = .next (s.withDev (s.dev.alarmConditions m.val)) ∧
      (s.dev.alarmConditions m.val).vault.present = m.val % 16) ∧
    (s.dev.carOp = 2 → (s.dev.slot s.dev.vault.arg).state = 1 → s.dev.frozenSupply = false → s.dev.idReady = true →
      s.dev.rangeFails 6 0 (regionSize 6) = false →
      ∃ (rec_ : List Nat) (d : Dev), exec .generateLoadComplete s = .next (s.withDev (d.transferStart 0x10 rec_)) ∧
        d.vault.seqTx = s.dev.vault.seqTx + 1 ∧ (d.slot s.dev.vault.arg).state = 2 ∧ d.regs = s.dev.regs ∧ d.free = s.dev.free + 4) ∧
    (s.dev.flag Reg.CAR_TRUST_STAT.BUSY 0 = true → s.dev.rangeFails 6 0 (regionSize 6) = false →
      (s.dev.trust.cmd = 1 → exec .trustCmdDone s = .next (s.withDev s.dev.anchorInstall)) ∧
      (s.dev.trust.cmd = 2 → exec .trustCmdDone s = .next (s.withDev s.dev.pairInstall)) ∧
      (s.dev.trust.cmd = 3 → exec .trustCmdDone s = .next (s.withDev s.dev.pairClear)))

/-! ### Boot and identity (R364 to R383) -/

/-- The ROM boots the better good slot, or waits for the host; the identity is derived, or fails; a host image is loaded and
checked; a fetch trap stops its core until it restarts. Completes romBoot, identityDerived, identityTimeout, load,
hostImageCheckDone, fetchTrap and coreRestart. -/
def Obligations.BootProceeds : Prop :=
  ∀ s : State,
    (∀ (a b : Option (List Byte)) (chain : List Byte), s.Runs → s.dev.flag Reg.CHIP_SEAL.SEALED 0 = true → s.dev.bootState = 0 →
      exec (.romBoot a b chain false) s = .next (s.withDev (s.dev.romBoot (imageOf a) (imageOf b) (natsOf chain) false)) ∧
        (s.dev.boots = false →
          s.dev.romBoot (imageOf a) (imageOf b) (natsOf chain) false = (s.dev.modTrust fun t => { t with chain := [] }).enterBoot 3)) ∧
    (s.Runs → s.dev.deriving_ = true → s.dev.boots = true → sha256 s.dev.modulus = s.dev.ownIdent →
      exec .identityDerived s = .next (s.withDev (s.dev.setB Reg.CAR_ID_STAT.READY 0 true))) ∧
    (s.Runs → s.dev.deriving_ = true → s.dev.boots = true → sha256 s.dev.modulus ≠ s.dev.ownIdent →
      exec .identityDerived s = .next (s.withDev s.dev.identityFail)) ∧
    (s.Runs → s.dev.deriving_ = true →
      exec .identityTimeout s = .next (s.withDev (s.dev.until (s.dev.trust.sealAt + 3000000000)).identityFail)) ∧
    (∀ k : Fin 8192,
      let w := Reg.MCU_BOOT_CMD.OP.put 1 k.val
      s.Accepts .mcu 0 0x050 w → exec (.load k) s = .next (s.withDev ((s.stored .mcu 0 0x050 w).loadImage (Reg.MCU_BOOT_CMD.LEN_KIB.of w)))) ∧
    (s.Runs → exec .hostImageCheckDone s = .next (s.withDev
      (s.dev.hostImageDone fun i => (Store.get memReset s.mem (16777216 + i)).toNat))) ∧
    (∀ (c : Fin 4) (off : Nat), s.Runs → (s.dev.badByte c.val off).fails c.val = true →
      exec (.fetchTrap c ⟨c.val, by omega⟩ off) s = .next (s.withDev
        ((s.dev.uncorrectable c.val off 0).modEcc fun x => { x with cores := Store.set (fun _ => 0) x.cores c.val 1 })) ) ∧
    (∀ (c : Fin 4), s.Runs → Store.get (fun _ => 0) s.dev.ecc.cores c.val = 1 →
      exec (.coreRestart c false) s = .next (s.withDev
        ((s.dev.modEcc fun x => { x with cores := Store.set (fun _ => 0) x.cores c.val 2 }).raise Ev.fetchTrap 0 c.val 2)))

/-! ### Calibration (R384 to R400) -/

/-- The calibration commands, when accepted. Completes calRunAdc, calRunDac, calRunTxpath, calRunRxpath, calRunMon, restore and
abort. A calibration run holds its carrier, settles for 100 ms, measures, and applies its set at a galley; drift is judged by
the temperature. Completes hold, settle, measure, apply and calDrift. -/
def Obligations.CalibrationRuns : Prop :=
  (
    ∀ s : State,
      (∀ (c : Instr) (k : Nat) (n : Fin 8),
        (c = .calRunAdc n ∧ k = 1) ∨ (c = .calRunDac n ∧ k = 2) ∨ (c = .calRunTxpath n ∧ k = 3) ∨ (c = .calRunRxpath n ∧ k = 4) →
        let w := Reg.CAL_CMD.OP.put 1 (Reg.CAL_CMD.KIND.put k n.val)
        s.Accepts .cal 0 0x040 w → exec c s = .next (s.withDev ((s.stored .cal 0 0x040 w).calRunLe k n.val))) ∧
      (
        let w := Reg.CAL_CMD.OP.put 1 (Reg.CAL_CMD.KIND.put 5 0)
        s.Accepts .cal 0 0x040 w → exec .calRunMon s = .next (s.withDev (s.stored .cal 0 0x040 w).calRunMon)) ∧
      (s.Accepts .cal 0 0x040 (Reg.CAL_CMD.OP.put 2 0) →
        exec .restore s = .next (s.withDev (s.stored .cal 0 0x040 (Reg.CAL_CMD.OP.put 2 0)).calRestore)) ∧
      (s.Accepts .cal 0 0x040 (Reg.CAL_CMD.OP.put 3 0) →
        exec .abort s = .next (s.withDev (s.stored .cal 0 0x040 (Reg.CAL_CMD.OP.put 3 0)).calAbort))) ∧
  (
    ∀ s : State, s.Runs →
      (s.dev.calIn 3 = true → exec .hold s = .next (s.withDev (if s.dev.calHolds.calHeld then s.dev.calHolds.calTo 4 else s.dev.calHolds))) ∧
      (s.dev.calIn 4 = true →
        let d := s.dev.until (Store.get (fun _ => 0) (s.dev.le s.dev.calLe).tx.bankEnd (calBank s.dev.calKind) + 100000000)
        exec .settle s = .next (s.withDev { (d.calTo 5) with calRun := { CalRun.reset with since := d.now } })) ∧
      (∀ (w : List Nat), s.dev.calIn 5 = true → s.dev.calKind < 3 →
        exec (.measure (.set w false)) s = .next (s.withDev (s.dev.calEnd 7))) ∧
      (∀ (w : List Nat),
        let body := s.dev.setHead s.dev.calKind s.dev.calLe ++ (List.range (setLen s.dev.calKind - 3)).map fun i => trunc 32 (w.getD i 0)
        s.dev.calIn 5 = true → s.dev.calKind < 3 → setRangesOk s.dev.calKind body = true →
        exec (.measure (.set w true)) s = .next (s.withDev
          { (s.dev.calTo 6) with calRun := { s.dev.calRun with words := body ++ [setCrc body] } })) ∧
      (s.dev.calIn 6 = true → s.dev.calKind ≤ 2 →
        exec .apply s = .next (s.withDev
          (((s.dev.until (s.dev.galleyFrom (s.dev.now + 1))).applySet s.dev.calKind s.dev.calLe s.dev.calRun.words).calEnd 0))) ∧
      (s.dev.calIn 6 = true → 2 < s.dev.calKind →
        let d := s.dev.until (s.dev.galleyFrom (s.dev.now + 1))
        exec .apply s = .next (s.withDev
          ((d.setTab 0x42 0x01 d.calLe (if d.calKind = 3 then 1 else 3) d.calRun.delay).calEnd 0))) ∧
      (∀ w : List Int, s.dev.calIn 5 = true → s.dev.calKind = 3 →
        exec (.measure (.edges w)) s = .next (s.withDev (s.dev.calPath s.dev.calRun.caps.reverse))) ∧
      (∀ l : List Int, exec (.calDrift l) s = .next (s.withDev (s.dev.calDrift l))))

/-! ### The monitor and the memories' scrubbing (R401 to R430) -/

/-- The monitor's commands and its conversions; a sequence's average is the sum over its conversions. Completes go,
monPeriodTrigger, monConversionDone, monInj, monData and monTdac. The scrubber visits priority words first; a late lap is
reported once; a tracker entry that stays quiet expires; a spare takes an entry's place; an injected error stands in its region.
Completes scrubVisit, lapLate, trackerEntryExpiry, spared and eccInj. -/
def Obligations.MonitorAndScrubberAct : Prop :=
  (
    ∀ s : State,
      (
        let w := Reg.MON_SEQ_CTRL.GO.put 1 (s.kept .mon 0 0x040)
        s.Accepts .mon 0 0x040 w → exec .go s = .next (s.withDev ((s.stored .mon 0 0x040 w).monCtrl (s.dev.get Reg.MON_SEQ_CTRL.TRIG 0) w))) ∧
      (s.Runs → s.dev.get Reg.MON_SEQ_CTRL.TRIG 0 = 1 →
        let d := s.dev.until (s.dev.mon.trigAt + 1000 * s.dev.get Reg.MON_SEQ_CTRL.PERIOD_US 0)
        exec .monPeriodTrigger s = .next (s.withDev ((d.modMon fun m => { m with trigAt := d.now }).monTrigger))) ∧
      (∀ code scaled : Nat, s.Runs → s.dev.mon.busy = 1 →
        let d := s.dev.until s.dev.mon.endAt
        let e := d.get Reg.MON_STAT.ENTRY 0
        let avg := pow2 (bitsOf (d.seqWord e 0) 16 3)
        let v : Int := if d.seqInput e < 16 then sgn 16 scaled else (d.scaledOf (bitsOf (d.seqWord e 0) 8 2) (trunc 16 code) : Int)
        let x := d.modMon fun m => { m with done := m.done + 1, sum := m.sum + trunc 16 code, sumScaled := m.sumScaled + v }
        exec (.monConversionDone code scaled) s = .next (s.withDev
          (if s.dev.mon.done + 1 < avg then x.monNext
          else ((x.monResult e (x.mon.sum / avg) (unsgn 16 (x.mon.sumScaled / (avg : Int)))).monAfter e).monNext))) ∧
      (∀ code scaled : Nat, s.Runs → s.dev.mon.busy = 2 →
        let d := s.dev.until s.dev.mon.endAt
        let i := d.get Reg.MON_INJ.INPUT 0
        exec (.monConversionDone code scaled) s = .next (s.withDev
          (((d.setB Reg.MON_INJ.PEND 0 false).putData true (d.mon.tdac == some i) i (trunc 16 code)).monNext))) ∧
      (∀ (g : Fin 4) (i : Fin 64),
        let w := Reg.MON_INJ.GO.put 1 (Reg.MON_INJ.GAIN.put g.val i.val)
        s.Accepts .mon 0 0x054 w → exec (.monInj g i) s = .next (s.withDev (s.stored .mon 0 0x054 w).inject)) ∧
      (s.Live → s.dev.pageServed (pageOf .mon 0) = true →
        exec .monData s = .next (s.withDev { (s.dev.readWord .mon 0 0x048).2 with readData := [(s.dev.readWord .mon 0 0x048).1] })) ∧
      (∀ (on : Bool) (i : Fin 64) (v : Fin 4096),
        let w := Reg.MON_TDAC.EN.put (b1 on) (Reg.MON_TDAC.INPUT.put i.val v.val)
        s.Accepts .mon 0 0x058 w → exec (.monTdac on i v) s = .next (s.withDev (s.stored .mon 0 0x058 w).tdacWritten))) ∧
  (
    ∀ s : State,
      (∀ (l : List Nat) (r w : Nat), s.Runs → s.dev.priorityWord = some (r, w) →
        exec (.scrubVisit l) s = .next (s.withDev ((s.dev.wait 1).visitWord r (w * 8) l))) ∧
      (∀ (r : Fin 16) (t : Nat), s.Runs → Store.get (fun _ => none) s.dev.ecc.lapAt r.val = some t → s.dev.ecc.lateSaid.contains r.val = false →
        let d := s.dev.until (t + 1000000000 * s.dev.get Reg.SCB_CTRL.LAP_LIMIT_S 0)
        exec (.lapLate r) s = .next (s.withDev
          ((d.modEcc fun x => { x with lateSaid := r.val :: x.lateSaid }).raise Ev.lapLate 0 r.val 0))) ∧
      (∀ (r e : Fin 16) (t : Tracked), s.Runs → s.dev.tracked r.val e.val = some t → t.lasting = false → t.count < 3 →
        exec (.trackerEntryExpiry r e) s = .next (s.withDev
          ((s.dev.until (t.openAt + 1000000000 * s.dev.get Reg.ECC_WINDOW.WINDOW_S 0)).setTracked r.val e.val none))) ∧
      (∀ (r : Fin 16) (k : Fin 8), s.Runs → r.val ≠ 8 → exec (.spared r k) s = .next (s.withDev (s.dev.spared r.val k.val).1)) ∧
      (∀ (r : Fin 16) (b : Fin 4),
        let w := Reg.ECC_INJ.GO.put 1 (Reg.ECC_INJ.REGION.put r.val (Reg.ECC_INJ.BITS.put b.val 0))
        s.Accepts .ecc 0 0x054 w →
        exec (.eccInj r b) s = .next (s.withDev
          ((s.stored .ecc 0 0x054 w).eccInject r.val b.val ((s.stored .ecc 0 0x054 w).get Reg.ECC_INJ_ADDR.OFFSET 0)))))
end

