-- ==== Sys2Proof/Laws/Store.lean ====
section
/-! SUPPORT. Read after write, independence of other keys, and canonical form of every store operation. -/

namespace Sys2Proof.Machine

variable {α : Type} {dflt : Nat → α}

theorem Store.get_put_same (m : Store α) (k : Nat) (v : α) : Store.get dflt (m.put k v) k = v := by
  induction m with
  | nil => simp [Store.put, Store.get]
  | cons e rest ih =>
    obtain ⟨a, x⟩ := e
    unfold Store.put
    split
    · simp [Store.get]
    · split
      · simp [Store.get]
      · rename_i h; simp [Store.get, h, ih]

theorem Store.get_put_ne (m : Store α) {k k' : Nat} (v : α) (h : k' ≠ k) :
    Store.get dflt (m.put k v) k' = Store.get dflt m k' := by
  induction m with
  | nil => simp [Store.put, Store.get, h.symm]
  | cons e rest ih =>
    obtain ⟨a, x⟩ := e
    unfold Store.put
    split
    · simp [Store.get, h.symm]
    · split
      · subst_vars; simp [Store.get, h.symm]
      · simp only [Store.get, ih]

theorem Store.get_drop_same (m : Store α) (k : Nat) : Store.get dflt (m.drop k) k = dflt k := by
  induction m with
  | nil => rfl
  | cons e rest ih =>
    obtain ⟨a, x⟩ := e
    unfold Store.drop
    split
    · exact ih
    · rename_i h; simp [Store.get, h, ih]

theorem Store.get_drop_ne (m : Store α) {k k' : Nat} (h : k' ≠ k) :
    Store.get dflt (m.drop k) k' = Store.get dflt m k' := by
  induction m with
  | nil => rfl
  | cons e rest ih =>
    obtain ⟨a, x⟩ := e
    unfold Store.drop
    split
    · subst_vars; simp [Store.get, h.symm, ih]
    · simp only [Store.get, ih]

@[simp] theorem Store.get_set_same [DecidableEq α] (m : Store α) (k : Nat) (v : α) :
    Store.get dflt (m.set dflt k v) k = v := by
  unfold Store.set
  split
  · rename_i h; rw [Store.get_drop_same, h]
  · exact Store.get_put_same m k v

theorem Store.get_set_ne [DecidableEq α] (m : Store α) {k k' : Nat} (v : α) (h : k' ≠ k) :
    Store.get dflt (m.set dflt k v) k' = Store.get dflt m k' := by
  unfold Store.set
  split
  · exact Store.get_drop_ne m h
  · exact Store.get_put_ne m v h

theorem Store.get_set [DecidableEq α] (m : Store α) (k k' : Nat) (v : α) :
    Store.get dflt (m.set dflt k v) k' = if k' = k then v else Store.get dflt m k' := by
  by_cases h : k' = k
  · subst h; simp
  · simp [h, Store.get_set_ne m v h]

theorem Store.wfFrom_mono [DecidableEq α] {lo lo' : Nat} (h : lo' ≤ lo) {m : Store α}
    (hm : Store.wfFrom dflt lo m = true) : Store.wfFrom dflt lo' m = true := by
  cases m with
  | nil => rfl
  | cons e rest =>
    obtain ⟨a, x⟩ := e
    simp only [Store.wfFrom, Bool.and_eq_true, decide_eq_true_eq] at hm ⊢
    exact ⟨⟨Nat.le_trans h hm.1.1, hm.1.2⟩, hm.2⟩

theorem Store.wfFrom_put [DecidableEq α] {k : Nat} {v : α} (hv : v ≠ dflt k) {m : Store α} :
    ∀ {lo : Nat}, lo ≤ k → Store.wfFrom dflt lo m = true → Store.wfFrom dflt lo (m.put k v) = true := by
  induction m with
  | nil => intro lo hl _; simp [Store.put, Store.wfFrom, hl, hv]
  | cons e rest ih =>
    obtain ⟨a, x⟩ := e
    intro lo hl hm
    simp only [Store.wfFrom, Bool.and_eq_true, decide_eq_true_eq, Bool.not_eq_true', decide_eq_false_iff_not] at hm
    unfold Store.put
    split
    · rename_i hk
      simp only [Store.wfFrom, Bool.and_eq_true, decide_eq_true_eq, Bool.not_eq_true', decide_eq_false_iff_not]
      exact ⟨⟨hl, hv⟩, ⟨hk, hm.1.2⟩, hm.2⟩
    · split
      · subst_vars
        simp only [Store.wfFrom, Bool.and_eq_true, decide_eq_true_eq, Bool.not_eq_true', decide_eq_false_iff_not]
        exact ⟨⟨hl, hv⟩, hm.2⟩
      · simp only [Store.wfFrom, Bool.and_eq_true, decide_eq_true_eq, Bool.not_eq_true', decide_eq_false_iff_not]
        exact ⟨hm.1, ih (by omega) hm.2⟩

theorem Store.wfFrom_drop [DecidableEq α] {k : Nat} {m : Store α} :
    ∀ {lo : Nat}, Store.wfFrom dflt lo m = true → Store.wfFrom dflt lo (m.drop k) = true := by
  induction m with
  | nil => intro lo _; rfl
  | cons e rest ih =>
    obtain ⟨a, x⟩ := e
    intro lo hm
    simp only [Store.wfFrom, Bool.and_eq_true, decide_eq_true_eq, Bool.not_eq_true', decide_eq_false_iff_not] at hm
    unfold Store.drop
    split
    · exact ih (Store.wfFrom_mono (by omega) hm.2)
    · simp only [Store.wfFrom, Bool.and_eq_true, decide_eq_true_eq, Bool.not_eq_true', decide_eq_false_iff_not]
      exact ⟨hm.1, ih hm.2⟩

theorem Store.wf_set [DecidableEq α] {m : Store α} (k : Nat) (v : α) (hm : m.wf dflt = true) :
    (m.set dflt k v).wf dflt = true := by
  unfold Store.set
  split
  · exact Store.wfFrom_drop hm
  · rename_i h; exact Store.wfFrom_put h (Nat.zero_le _) hm

theorem Store.wfFrom_clear [DecidableEq α] {p : Nat → Bool} {m : Store α} :
    ∀ {lo : Nat}, Store.wfFrom dflt lo m = true → Store.wfFrom dflt lo (m.clear p) = true := by
  induction m with
  | nil => intro lo _; rfl
  | cons e rest ih =>
    obtain ⟨a, x⟩ := e
    intro lo hm
    simp only [Store.wfFrom, Bool.and_eq_true, decide_eq_true_eq, Bool.not_eq_true', decide_eq_false_iff_not] at hm
    simp only [Store.clear, List.filter_cons]
    split
    · simp only [Store.wfFrom, Bool.and_eq_true, decide_eq_true_eq, Bool.not_eq_true', decide_eq_false_iff_not]
      exact ⟨hm.1, ih hm.2⟩
    · exact ih (Store.wfFrom_mono (by omega) hm.2)

theorem Store.wf_clear [DecidableEq α] {m : Store α} (p : Nat → Bool) (hm : m.wf dflt = true) :
    (m.clear p).wf dflt = true := Store.wfFrom_clear hm

end Sys2Proof.Machine
end

