-- ==== Sys2Proof/Laws/Ops.lean ====
section
/-! SUPPORT. The laws of register access, of lifting a device operation to the machine, and of accepted and rejected writes. -/

namespace Sys2Proof.Machine

/-! ### Fields -/

theorem pow2_pos (w : Nat) : 0 < pow2 w := Nat.two_pow_pos w

/-- A field read after a write of it gives the lowest bits written. -/
@[simp] theorem Dev.get_set_same (d : Dev) (f : Fld) (i v : Nat) : (d.set f i v).get f i = trunc f.width v := by
  simp [Dev.get, Dev.set]

/-- A write of a field leaves every field with another key alone. -/
theorem Dev.get_set_ne (d : Dev) {f g : Fld} {i j : Nat} (v : Nat) (h : g.key j 0 ≠ f.key i 0) :
    (d.set f i v).get g j = d.get g j := by
  simp [Dev.get, Dev.set, Store.get_set_ne _ _ h]

theorem Dev.getJ_set_ne (d : Dev) {f g : Fld} {i j m : Nat} (v : Nat) (h : g.key j m ≠ f.key i 0) :
    (d.set f i v).getJ g j m = d.getJ g j m := by
  simp [Dev.getJ, Dev.set, Store.get_set_ne _ _ h]

@[simp] theorem Dev.getJ_setJ_same (d : Dev) (f : Fld) (i j v : Nat) :
    (d.setJ f i j v).getJ f i j = trunc f.width v := by
  simp [Dev.getJ, Dev.setJ]

theorem Dev.get_setJ_ne (d : Dev) {f g : Fld} {i j m : Nat} (v : Nat) (h : g.key j 0 ≠ f.key i m) :
    (d.setJ f i m v).get g j = d.get g j := by
  simp [Dev.get, Dev.setJ, Store.get_set_ne _ _ h]

@[simp] theorem b1_trunc {w : Nat} (h : 0 < w) (b : Bool) : trunc w (b1 b) = b1 b := by
  have : 2 ≤ 2 ^ w := Nat.le_self_pow (by omega) 2
  unfold trunc pow2 b1; split <;> exact Nat.mod_eq_of_lt (by omega)

/-- A flag reads as it was written. -/
theorem Dev.flag_setB_same (d : Dev) {f : Fld} (h : 0 < f.width) (i : Nat) (b : Bool) : (d.setB f i b).flag f i = b := by
  simp only [Dev.flag, Dev.setB, Dev.get_set_same, b1_trunc h]; cases b <;> rfl

theorem Dev.flag_set_ne (d : Dev) {f g : Fld} {i j : Nat} (v : Nat) (h : g.key j 0 ≠ f.key i 0) :
    (d.set f i v).flag g j = d.flag g j := by
  simp [Dev.flag, Dev.get_set_ne d v h]

/-- A word takes a field's new value. -/
theorem Fld.of_put (f : Fld) (v w : Nat) : f.of (f.put v w) = trunc f.width v := by
  have hP : 0 < 2 ^ f.lo := Nat.two_pow_pos _
  have hW : 0 < 2 ^ f.width := Nat.two_pow_pos _
  unfold Fld.put Fld.of bitsOf trunc pow2
  generalize 2 ^ f.lo = P at *
  generalize 2 ^ f.width = W at *
  have hle : w / P % W * P ≤ w := Nat.le_trans (Nat.mul_le_mul_right _ (Nat.mod_le _ _)) (Nat.div_mul_le_self _ _)
  have h1 : w - w / P % W * P = (w / P / W * W) * P + w % P := by
    have e1 := Nat.div_add_mod w P
    have e2 := Nat.div_add_mod (w / P) W
    have e3 : w = (W * (w / P / W) + w / P % W) * P + w % P := by rw [e2, Nat.mul_comm]; exact e1.symm
    have e4 : (W * (w / P / W) + w / P % W) * P = w / P / W * W * P + w / P % W * P := by
      rw [Nat.add_mul, Nat.mul_comm W]
    omega
  rw [h1]
  have h2 : (w / P / W * W * P + w % P + v % W * P) = (w / P / W * W + v % W) * P + w % P := by
    rw [Nat.add_mul]; omega
  rw [h2, Nat.add_comm _ (w % P), Nat.add_mul_div_right _ _ hP, Nat.div_eq_of_lt (Nat.mod_lt _ hP), Nat.zero_add,
    Nat.add_comm, Nat.add_mul_mod_self_right, Nat.mod_mod]

/-! ### Lifting -/

/-- Out of reset a lifted operation is the operation. -/
theorem State.lift_live {s : State} (h : s.Live) (f : Dev → Dev) : s.lift f = s.withDev (f s.dev) := by
  unfold State.Live at h; simp [State.lift, State.withDev, h]

theorem State.liftRun_runs {s : State} (h : s.Runs) (f : Dev → Dev) : s.liftRun f = s.withDev (f s.dev) := by
  unfold State.Runs at h; simp [State.liftRun, State.withDev, h]

@[simp] theorem State.lift_mem (s : State) (f : Dev → Dev) : (s.lift f).mem = s.mem := by
  unfold State.lift; split <;> rfl
@[simp] theorem State.liftRun_mem (s : State) (f : Dev → Dev) : (s.liftRun f).mem = s.mem := by
  unfold State.liftRun; split <;> rfl
@[simp] theorem State.liftAny_mem (s : State) (f : Dev → Dev) : (s.liftAny f).mem = s.mem := rfl
@[simp] theorem State.lift_pending (s : State) (f : Dev → Dev) : (s.lift f).pending = s.pending := by
  unfold State.lift; split <;> rfl
@[simp] theorem State.liftRun_pending (s : State) (f : Dev → Dev) : (s.liftRun f).pending = s.pending := by
  unfold State.liftRun; split <;> rfl
@[simp] theorem State.liftAny_pending (s : State) (f : Dev → Dev) : (s.liftAny f).pending = s.pending := rfl
@[simp] theorem State.idle_mem (s : State) : s.idle.mem = s.mem := State.lift_mem _ _
@[simp] theorem State.idle_pending (s : State) : s.idle.pending = s.pending := State.lift_pending _ _

/-- A unit that runs is out of reset. -/
theorem State.Runs.live {s : State} (h : s.Runs) : s.Live := by
  unfold State.Runs Dev.runs at h; unfold State.Live
  cases hr : s.dev.power.inReset <;> simp_all

/-! ### Writes -/

/-- A page that answers in FUSE_FAULT is page 0. -/
theorem Dev.served_fault {d : Dev} {p : Nat} (h : d.pageServed p = true) : (d.flag Reg.CHIP_SEAL.FAULT 0 && p != 0) = false := by
  unfold Dev.pageServed at h
  cases hf : d.flag Reg.CHIP_SEAL.FAULT 0
  · rfl
  · simp [hf] at h; simp [h.2]

/-- An accepted write, the fence apart, has the register's effect. -/
theorem Dev.pageWrite_accepted {s : State} {k : PageKind} {i off w : Nat} (h : s.Accepts k i off w)
    (hf : ¬(pageOf k i = 0 ∧ off = 0x80)) : s.dev.pageWrite (pageOf k i) off w = s.dev.writeEffect k i off w := by
  obtain ⟨-, hd, hs, he⟩ := h
  simp only [Dev.pageWrite, hd, Dev.served_fault hs, hs, hf]
  simp [Dev.writeReg, Dev.checked, he, firstErr]

/-- A rejected write changes the page header alone. -/
theorem Dev.pageWrite_rejected {s : State} {k : PageKind} {i off w : Nat} {e : Err} (h : s.Rejects k i off w e)
    (hf : ¬(pageOf k i = 0 ∧ off = 0x80)) : s.dev.pageWrite (pageOf k i) off w = s.dev.reject (pageOf k i) off e := by
  obtain ⟨-, hd, hs, he⟩ := h
  simp only [Dev.pageWrite, hd, Dev.served_fault hs, hs, hf]
  simp [Dev.writeReg, Dev.checked, he]

/-- A command that writes one register has that write's effect. -/
theorem State.lift_command {s : State} {k : PageKind} {i off : Nat} {f : Nat → Nat} (h : s.Accepts k i off (f (s.kept k i off)))
    (hf : ¬(pageOf k i = 0 ∧ off = 0x80)) :
    (s.lift fun d => d.command k i off f) = s.withDev (s.dev.writeEffect k i off (f (s.kept k i off))) := by
  rw [State.lift_live h.1]
  exact congrArg s.withDev (Dev.pageWrite_accepted h hf)

/-- The same for a command that names its page by number. -/
theorem State.lift_pageCommand {s : State} {k : PageKind} {p i off : Nat} {f : Nat → Nat} (hp : pageOf k i = p)
    (h : s.Accepts k i off (f (s.kept k i off))) (hf : ¬(p = 0 ∧ off = 0x80)) :
    (s.lift fun d => d.pageCommand p off f) = s.withDev (s.dev.writeEffect k i off (f (s.kept k i off))) := by
  subst hp
  rw [State.lift_live h.1]
  simp only [Dev.pageCommand, h.2.1]
  exact congrArg s.withDev (Dev.pageWrite_accepted h hf)

end Sys2Proof.Machine
end

