-- ==== Sys2Proof/Laws/Memory.lean ====
section
/-! SUPPORT. What writes to the HDM store do: they keep the canonical form, change the bytes they name and no other byte. -/

namespace Sys2Proof.Machine

/-- Every write to the store keeps the canonical form of the bytes. -/
theorem State.hdmWrite_wf (l : List (Option Byte)) :
    ∀ (s : State) (off : Nat), Memory.wf s.mem = true → Memory.wf (s.hdmWrite off l).mem = true := by
  induction l with
  | nil => intro s off h; exact h
  | cons b rest ih =>
    intro s off h
    cases b with
    | none => exact ih s (off + 1) h
    | some b =>
      unfold State.hdmWrite
      split
      · exact ih _ _ (Store.wf_set off b h)
      · exact ih s (off + 1) h

@[simp] theorem State.hdmWrite_pending (l : List (Option Byte)) :
    ∀ (s : State) (off : Nat), (s.hdmWrite off l).pending = s.pending := by
  induction l with
  | nil => intro s off; rfl
  | cons b rest ih =>
    intro s off
    cases b with
    | none => exact ih s (off + 1)
    | some b =>
      unfold State.hdmWrite
      split
      · exact ih _ _
      · exact ih s (off + 1)

/-- Of the device a write changes the record of errors alone. -/
theorem State.hdmWrite_dev (l : List (Option Byte)) :
    ∀ (s : State) (off : Nat), ∃ x, (s.hdmWrite off l).dev = { s.dev with ecc := x } := by
  induction l with
  | nil => intro s off; exact ⟨s.dev.ecc, rfl⟩
  | cons b rest ih =>
    intro s off
    cases b with
    | none => exact ih s (off + 1)
    | some b =>
      unfold State.hdmWrite
      split
      · obtain ⟨x, hx⟩ := ih { s with mem := Store.set memReset s.mem off b, dev := s.dev.clearBad 8 off 1 } (off + 1)
        exact ⟨x, by rw [hx]; rfl⟩
      · exact ih s (off + 1)

/-- A byte of the list after a write: the written byte where the write names one and the area takes writes, else as before. -/
theorem State.hdmWrite_get (l : List (Option Byte)) :
    ∀ (s : State) (off a : Nat), Store.get memReset (s.hdmWrite off l).mem a =
      (if off ≤ a ∧ a < off + l.length ∧ hdmWritable a = true then ((l.getD (a - off) none).getD (Store.get memReset s.mem a))
       else Store.get memReset s.mem a) := by
  induction l with
  | nil => intro s off a; simp [State.hdmWrite]
  | cons b rest ih =>
    intro s off a
    have key (m : List Host.Cell) (v : Byte) (hm : off ≠ a → Store.get memReset m a = Store.get memReset s.mem a)
        (hv : off = a → hdmWritable a = true → Store.get memReset m a = b.getD v ∧ v = Store.get memReset s.mem a)
        (hw : off = a → hdmWritable a = false → Store.get memReset m a = Store.get memReset s.mem a) :
        (if off + 1 ≤ a ∧ a < off + 1 + rest.length ∧ hdmWritable a = true then
            ((rest.getD (a - (off + 1)) none).getD (Store.get memReset m a)) else Store.get memReset m a) =
        (if off ≤ a ∧ a < off + (b :: rest).length ∧ hdmWritable a = true then
            (((b :: rest).getD (a - off) none).getD (Store.get memReset s.mem a)) else Store.get memReset s.mem a) := by
      by_cases he : off = a
      · subst he
        simp only [List.length_cons, Nat.sub_self, List.getD_cons_zero]
        rw [if_neg (by omega)]
        cases hx : hdmWritable off
        · simp [hw rfl hx]
        · obtain ⟨h1, h2⟩ := hv rfl hx
          rw [if_pos ⟨Nat.le_refl _, by omega, rfl⟩, h1, h2]
      · rw [hm he]
        by_cases hc : off + 1 ≤ a
        · have e : a - off = (a - (off + 1)) + 1 := by omega
          rw [e, List.getD_cons_succ]
          simp only [List.length_cons]
          by_cases hd : a < off + 1 + rest.length ∧ hdmWritable a = true
          · rw [if_pos ⟨hc, hd⟩, if_pos ⟨by omega, by omega, hd.2⟩]
          · rw [if_neg (fun h => hd h.2), if_neg (fun h => hd ⟨by omega, h.2.2⟩)]
        · rw [if_neg (by omega), if_neg (by omega)]
    cases b with
    | none =>
      show Store.get memReset (s.hdmWrite (off + 1) rest).mem a = _
      rw [ih]
      exact key s.mem _ (fun _ => rfl) (fun _ _ => ⟨rfl, rfl⟩) (fun _ _ => rfl)
    | some b =>
      unfold State.hdmWrite
      split
      · rename_i hw
        rw [ih]
        refine key _ (Store.get memReset s.mem a) (fun hne => ?_) (fun he _ => ⟨?_, rfl⟩) (fun he hf => ?_)
        · exact Store.get_set_ne _ _ (Ne.symm hne)
        · subst he; simp
        · subst he; simp [hw] at hf
      · rename_i hw
        rw [ih]
        refine key _ (Store.get memReset s.mem a) (fun _ => rfl) (fun he ht => ?_) (fun _ _ => rfl)
        subst he; exact absurd ht hw

/-! ### The operations that act on more than the device -/

@[simp] theorem State.lineWrite_pending (s : State) (a e : Nat) (b : List Byte) : (s.lineWrite a e b).pending = s.pending := by
  unfold State.lineWrite; simp only; split <;> simp
@[simp] theorem State.lineRead_pending (s : State) (a : Nat) : (s.lineRead a).pending = s.pending := by
  unfold State.lineRead; simp only; repeat' split
  all_goals rfl
@[simp] theorem State.lineRead_mem (s : State) (a : Nat) : (s.lineRead a).mem = s.mem := by
  unfold State.lineRead; simp only; repeat' split
  all_goals rfl
@[simp] theorem State.zeroDone_pending (s : State) : s.zeroDone.pending = s.pending := by
  unfold State.zeroDone; split <;> rfl
@[simp] theorem State.chipReset_pending (s : State) (c r : Nat) : (s.chipReset c r).pending = s.pending := rfl
@[simp] theorem State.chipReset_mem (s : State) (c r : Nat) : (s.chipReset c r).mem = [] := rfl
@[simp] theorem State.hostWrite_pending (s : State) (sp : Space) (w : Nat) : (s.hostWrite sp w).pending = s.pending := by
  unfold State.hostWrite; repeat' split
  all_goals rfl
@[simp] theorem State.captureDone_pending (s : State) (l : List Byte) : (s.captureDone l).pending = s.pending := by
  unfold State.captureDone; simp only; split <;> simp
@[simp] theorem State.hostImageChecked_pending (s : State) : s.hostImageChecked.pending = s.pending := State.liftRun_pending _ _
@[simp] theorem State.hostImageChecked_mem (s : State) : s.hostImageChecked.mem = s.mem := State.liftRun_mem _ _

/-- The source side of a transfer reads the bytes and leaves them. -/
theorem State.dmaSource_state (s : State) (sp a n : Nat) (h : Option (List Nat)) :
    (s.dmaSource sp a n h).state.mem = s.mem ∧ (s.dmaSource sp a n h).state.pending = s.pending := by
  unfold State.dmaSource; simp only; repeat' split
  all_goals exact ⟨rfl, rfl⟩

@[simp] theorem State.dmaDest_pending (s : State) (c sp a : Nat) (b : List Nat) : (s.dmaDest c sp a b).1.pending = s.pending := by
  unfold State.dmaDest; repeat' split
  all_goals simp

theorem State.dmaDest_wf (s : State) (c sp a : Nat) (b : List Nat) (h : Memory.wf s.mem = true) :
    Memory.wf (s.dmaDest c sp a b).1.mem = true := by
  unfold State.dmaDest; repeat' split
  all_goals first | exact h | exact State.hdmWrite_wf _ _ _ h

theorem State.dmaStart_pending (s : State) (c : Nat) (h : Option (List Nat)) : (s.dmaStart c h).pending = s.pending := by
  have hp := (s.dmaSource_state (bitsOf (s.dev.descWord c 0) 4 4) (s.dev.descWord c 2 + pow2 32 * s.dev.descWord c 3) (s.dev.descWord c 1) h).2
  unfold State.dmaStart; simp only; repeat' split
  all_goals simp [hp]

theorem State.dmaStart_wf (s : State) (c : Nat) (h : Option (List Nat)) (hw : Memory.wf s.mem = true) :
    Memory.wf (s.dmaStart c h).mem = true := by
  have hp := (s.dmaSource_state (bitsOf (s.dev.descWord c 0) 4 4) (s.dev.descWord c 2 + pow2 32 * s.dev.descWord c 3) (s.dev.descWord c 1) h).1
  unfold State.dmaStart; simp only; repeat' split
  all_goals first | exact hw | (refine State.dmaDest_wf _ _ _ _ _ ?_; rw [hp]; exact hw)

/-- The copy of bytes into a spare of region 8. -/
theorem State.hdmZeros_pending (l : List Nat) : ∀ s : State, (l.foldl (fun s off => s.hdmWrite off [some 0]) s).pending = s.pending := by
  induction l with
  | nil => intro s; rfl
  | cons a l ih => intro s; exact (ih _).trans (State.hdmWrite_pending _ _ _)

theorem State.hdmZeros_wf (l : List Nat) :
    ∀ s : State, Memory.wf s.mem = true → Memory.wf (l.foldl (fun s off => s.hdmWrite off [some 0]) s).mem = true := by
  induction l with
  | nil => intro s h; exact h
  | cons a l ih => intro s h; exact ih _ (State.hdmWrite_wf _ _ _ h)

@[simp] theorem State.rowSpared_pending (s : State) (r k : Nat) : (s.rowSpared r k).pending = s.pending := by
  unfold State.rowSpared; simp only; repeat' split
  all_goals first | rfl | (rw [State.hdmZeros_pending])

theorem State.rowSpared_wf (s : State) (r k : Nat) (h : Memory.wf s.mem = true) : Memory.wf (s.rowSpared r k).mem = true := by
  unfold State.rowSpared; simp only; repeat' split
  all_goals first | exact h | (refine State.hdmZeros_wf _ _ ?_; exact h)

end Sys2Proof.Machine
end

