-- ==== Sys2Proof/Laws/Queue.lean ====
section
/-! SUPPORT. What raising an event may change: the event registers of its page, the queues, the retained tails and the vectors. -/

namespace Sys2Proof.Machine

theorem Dev.EventsOnly.refl (d : Dev) : d.EventsOnly d := ⟨rfl, fun _ _ => rfl⟩

theorem Dev.EventsOnly.trans {a b c : Dev} (h : a.EventsOnly b) (g : b.EventsOnly c) : a.EventsOnly c := by
  refine ⟨?_, fun k hk => (g.2 k hk).trans (h.2 k hk)⟩
  have h1 := h.1
  have g1 := g.1
  rw [h1] at g1
  exact g1

/-- A field whose key raising events does not write reads as before. -/
theorem Dev.EventsOnly.get {d e : Dev} (h : d.EventsOnly e) {f : Fld} {i : Nat} (hk : evKey (f.key i 0) = false) :
    e.get f i = d.get f i := h.2 _ hk

theorem Dev.EventsOnly.getJ {d e : Dev} (h : d.EventsOnly e) {f : Fld} {i j : Nat} (hk : evKey (f.key i j) = false) :
    e.getJ f i j = d.getJ f i j := h.2 _ hk

theorem Dev.EventsOnly.flag {d e : Dev} (h : d.EventsOnly e) {f : Fld} {i : Nat} (hk : evKey (f.key i 0) = false) :
    e.flag f i = d.flag f i := by simp [Dev.flag, h.get hk]

/-- A write of a register that raising events writes. -/
theorem Dev.eventsOnly_set (d : Dev) (f : Fld) (i v : Nat) (hk : evKey (f.key i 0) = true) : d.EventsOnly (d.set f i v) := by
  refine ⟨rfl, fun k hn => Store.get_set_ne _ _ ?_⟩
  rintro rfl; simp [hk] at hn

theorem Dev.eventsOnly_sendVector (d : Dev) (v : Nat) : d.EventsOnly (d.sendVector v) := by
  unfold Dev.sendVector
  split
  · exact .refl d
  · split
    · split
      · exact ⟨rfl, fun _ _ => rfl⟩
      · exact ⟨rfl, fun _ _ => rfl⟩
    · exact .refl d

theorem Dev.eventsOnly_setQueue (d : Dev) (q : Nat) (x : Queue) : d.EventsOnly (d.setQueue q x) := ⟨rfl, fun _ _ => rfl⟩

theorem Dev.eventsOnly_queueVector (d : Dev) (q : Nat) : d.EventsOnly (d.queueVector q) := by
  unfold Dev.queueVector
  simp only
  split
  · exact .refl d
  · split
    · exact d.eventsOnly_setQueue q _
    · exact (d.eventsOnly_setQueue q _).trans (Dev.eventsOnly_sendVector _ _)

theorem Dev.eventsOnly_bumpDrop (d : Dev) {q : Nat} (hq : q < 4) : d.EventsOnly (d.bump Reg.EVQ_DROP.COUNT q) := by
  refine d.eventsOnly_set _ _ _ ?_
  have : ∀ q : Fin 4, evKey (Reg.EVQ_DROP.COUNT.key q.val 0) = true := by decide
  exact this ⟨q, hq⟩

theorem Dev.eventsOnly_dropEntry (d : Dev) {q : Nat} (hq : q < 4) : d.EventsOnly (d.dropEntry q) := by
  unfold Dev.dropEntry
  simp only
  have h1 := d.eventsOnly_bumpDrop hq
  split
  · exact h1.trans (Dev.eventsOnly_setQueue _ _ _)
  · exact (h1.trans (Dev.eventsOnly_setQueue _ _ _)).trans (Dev.eventsOnly_queueVector _ _)

theorem Dev.eventsOnly_push (d : Dev) {q : Nat} (hq : q < 4) (src ins code : Nat) (forced : Bool) :
    d.EventsOnly (d.push q src ins code forced).1 := by
  unfold Dev.push
  simp only
  split
  · exact (d.eventsOnly_bumpDrop hq).trans (Dev.eventsOnly_setQueue _ _ _)
  · split
    · exact d.eventsOnly_dropEntry hq
    · have h1 : d.EventsOnly { (d.setQueue q (Queue.advance
          { (d.queue q).setSlot (d.queue q).wp (entryQuad d.time src ins code (d.queue q).seq (d.queue q).epoch forced) with
            wp := nextSlot (d.queue q).wp, depth := (d.queue q).depth + 1, peak := max (d.queue q).peak ((d.queue q).depth + 1) })) with
          ret := d.ret.addTail q (entryQuad d.time src ins code (d.queue q).seq (d.queue q).epoch forced) } := ⟨rfl, fun _ _ => rfl⟩
      unfold onlyIf
      split
      · exact h1.trans (Dev.eventsOnly_queueVector _ _)
      · exact h1

theorem Dev.routeOf_lt (d : Dev) (s : Nat) : d.routeOf s < 4 := Nat.mod_lt _ (by decide)

/-- Raising an event changes what `EventsOnly` allows and nothing else (R457). -/
theorem Dev.eventsOnly_raiseWith (fuel : Nat) : ∀ (d : Dev) (e : Ev) (i ins code : Nat) (forced : Bool),
    d.EventsOnly (d.raiseWith fuel e i ins code forced) := by
  have start (d : Dev) (e : Ev) (i : Nat) :
      d.EventsOnly ((d.putBit Hdr.EV_LATCH.LATCH (pageOf e.kind i) e.bit true).bump Hdr.EV_COUNT.COUNT (pageOf e.kind i)) := by
    refine (d.eventsOnly_set _ _ _ ?_).trans (Dev.eventsOnly_set _ _ _ _ ?_) <;>
      simp only [evKey, Fld.key, Hdr.EV_LATCH.LATCH, Hdr.EV_COUNT.COUNT, Bool.or_eq_true, beq_iff_eq] <;> omega
  have vec (e : Ev) (x : Dev) :
      x.EventsOnly (onlyIf (e.kind == .link || e.kind == .hdm) (fun d => d.sendVector 20) x) := by
    unfold onlyIf; split
    · exact Dev.eventsOnly_sendVector _ _
    · exact .refl _
  induction fuel with
  | zero =>
    intro d e i ins code forced
    unfold Dev.raiseWith
    simp only
    have h1 := start d e i
    generalize (d.putBit Hdr.EV_LATCH.LATCH (pageOf e.kind i) e.bit true).bump Hdr.EV_COUNT.COUNT (pageOf e.kind i) = d1 at *
    split
    · exact h1.trans ((d1.eventsOnly_push (d1.routeOf_lt e.source) e.source ins code forced).trans (vec e _))
    · exact h1
  | succ n ih =>
    intro d e i ins code forced
    unfold Dev.raiseWith
    simp only
    have h1 := start d e i
    generalize (d.putBit Hdr.EV_LATCH.LATCH (pageOf e.kind i) e.bit true).bump Hdr.EV_COUNT.COUNT (pageOf e.kind i) = d1 at *
    split
    · refine h1.trans ((d1.eventsOnly_push (d1.routeOf_lt e.source) e.source ins code forced).trans ?_)
      split
      · rename_i m hm _
        obtain rfl : n = m := by omega
        exact (vec e _).trans (ih _ _ _ _ _ _)
      · exact vec e _
    · exact h1

theorem Dev.eventsOnly_raise (d : Dev) (e : Ev) (i ins code : Nat) : d.EventsOnly (d.raise e i ins code) :=
  d.eventsOnly_raiseWith 3 e i ins code false

end Sys2Proof.Machine
end

