-- ==== Sys2Proof/Laws/State.lean ====
section
/-! SUPPORT. What each basic update leaves alone, field by field, so that no later proof unfolds a record update. -/

namespace Sys2Proof.Machine

/-! ### A write of a field -/

@[simp] theorem Dev.set_tabs (d : Dev) (f : Fld) (i v : Nat) : (d.set f i v).tabs = d.tabs := rfl
@[simp] theorem Dev.set_frozen (d : Dev) (f : Fld) (i v : Nat) : (d.set f i v).frozen = d.frozen := rfl
@[simp] theorem Dev.set_latch (d : Dev) (f : Fld) (i v : Nat) : (d.set f i v).latch = d.latch := rfl
@[simp] theorem Dev.set_readData (d : Dev) (f : Fld) (i v : Nat) : (d.set f i v).readData = d.readData := rfl
@[simp] theorem Dev.set_now (d : Dev) (f : Fld) (i v : Nat) : (d.set f i v).now = d.now := rfl
@[simp] theorem Dev.set_locked (d : Dev) (f : Fld) (i v : Nat) : (d.set f i v).locked = d.locked := rfl
@[simp] theorem Dev.set_dt (d : Dev) (f : Fld) (i v : Nat) : (d.set f i v).dt = d.dt := rfl
@[simp] theorem Dev.set_lockAt (d : Dev) (f : Fld) (i v : Nat) : (d.set f i v).lockAt = d.lockAt := rfl
@[simp] theorem Dev.set_incr (d : Dev) (f : Fld) (i v : Nat) : (d.set f i v).incr = d.incr := rfl
@[simp] theorem Dev.set_tgrid (d : Dev) (f : Fld) (i v : Nat) : (d.set f i v).tgrid = d.tgrid := rfl
@[simp] theorem Dev.set_grid (d : Dev) (f : Fld) (i v : Nat) : (d.set f i v).grid = d.grid := rfl
@[simp] theorem Dev.set_gnum (d : Dev) (f : Fld) (i v : Nat) : (d.set f i v).gnum = d.gnum := rfl
@[simp] theorem Dev.set_nextGalley (d : Dev) (f : Fld) (i v : Nat) : (d.set f i v).nextGalley = d.nextGalley := rfl
@[simp] theorem Dev.set_galleys (d : Dev) (f : Fld) (i v : Nat) : (d.set f i v).galleys = d.galleys := rfl
@[simp] theorem Dev.set_formes (d : Dev) (f : Fld) (i v : Nat) : (d.set f i v).formes = d.formes := rfl
@[simp] theorem Dev.set_power (d : Dev) (f : Fld) (i v : Nat) : (d.set f i v).power = d.power := rfl
@[simp] theorem Dev.set_arb (d : Dev) (f : Fld) (i v : Nat) : (d.set f i v).arb = d.arb := rfl
@[simp] theorem Dev.set_host (d : Dev) (f : Fld) (i v : Nat) : (d.set f i v).host = d.host := rfl
@[simp] theorem Dev.set_msix (d : Dev) (f : Fld) (i v : Nat) : (d.set f i v).msix = d.msix := rfl
@[simp] theorem Dev.set_vec (d : Dev) (f : Fld) (i v : Nat) : (d.set f i v).vec = d.vec := rfl
@[simp] theorem Dev.set_queues (d : Dev) (f : Fld) (i v : Nat) : (d.set f i v).queues = d.queues := rfl
@[simp] theorem Dev.set_snaps (d : Dev) (f : Fld) (i v : Nat) : (d.set f i v).snaps = d.snaps := rfl
@[simp] theorem Dev.set_cap (d : Dev) (f : Fld) (i v : Nat) : (d.set f i v).cap = d.cap := rfl
@[simp] theorem Dev.set_fuse (d : Dev) (f : Fld) (i v : Nat) : (d.set f i v).fuse = d.fuse := rfl
@[simp] theorem Dev.set_pins (d : Dev) (f : Fld) (i v : Nat) : (d.set f i v).pins = d.pins := rfl
@[simp] theorem Dev.set_ret (d : Dev) (f : Fld) (i v : Nat) : (d.set f i v).ret = d.ret := rfl
@[simp] theorem Dev.set_lim (d : Dev) (f : Fld) (i v : Nat) : (d.set f i v).lim = d.lim := rfl
@[simp] theorem Dev.set_les (d : Dev) (f : Fld) (i v : Nat) : (d.set f i v).les = d.les := rfl
@[simp] theorem Dev.set_fmx (d : Dev) (f : Fld) (i v : Nat) : (d.set f i v).fmx = d.fmx := rfl
@[simp] theorem Dev.set_grps (d : Dev) (f : Fld) (i v : Nat) : (d.set f i v).grps = d.grps := rfl
@[simp] theorem Dev.set_path (d : Dev) (f : Fld) (i v : Nat) : (d.set f i v).path = d.path := rfl
@[simp] theorem Dev.set_tym (d : Dev) (f : Fld) (i v : Nat) : (d.set f i v).tym = d.tym := rfl
@[simp] theorem Dev.set_vault (d : Dev) (f : Fld) (i v : Nat) : (d.set f i v).vault = d.vault := rfl
@[simp] theorem Dev.set_trust (d : Dev) (f : Fld) (i v : Nat) : (d.set f i v).trust = d.trust := rfl
@[simp] theorem Dev.set_calRun (d : Dev) (f : Fld) (i v : Nat) : (d.set f i v).calRun = d.calRun := rfl
@[simp] theorem Dev.set_mon (d : Dev) (f : Fld) (i v : Nat) : (d.set f i v).mon = d.mon := rfl
@[simp] theorem Dev.set_ecc (d : Dev) (f : Fld) (i v : Nat) : (d.set f i v).ecc = d.ecc := rfl
@[simp] theorem Dev.set_chime (d : Dev) (f : Fld) (i v : Nat) : (d.set f i v).chime = d.chime := rfl
@[simp] theorem Dev.set_pmClock (d : Dev) (f : Fld) (i v : Nat) : (d.set f i v).pmClock = d.pmClock := rfl
@[simp] theorem Dev.set_flowPm (d : Dev) (f : Fld) (i v : Nat) : (d.set f i v).flowPm = d.flowPm := rfl
@[simp] theorem Dev.set_flowDef (d : Dev) (f : Fld) (i v : Nat) : (d.set f i v).flowDef = d.flowDef := rfl
@[simp] theorem Dev.set_free (d : Dev) (f : Fld) (i v : Nat) : (d.set f i v).free = d.free := rfl

/-! ### A write of a one-bit field -/

@[simp] theorem Dev.setB_tabs (d : Dev) (f : Fld) (i : Nat) (b : Bool) : (d.setB f i b).tabs = d.tabs := rfl
@[simp] theorem Dev.setB_frozen (d : Dev) (f : Fld) (i : Nat) (b : Bool) : (d.setB f i b).frozen = d.frozen := rfl
@[simp] theorem Dev.setB_latch (d : Dev) (f : Fld) (i : Nat) (b : Bool) : (d.setB f i b).latch = d.latch := rfl
@[simp] theorem Dev.setB_readData (d : Dev) (f : Fld) (i : Nat) (b : Bool) : (d.setB f i b).readData = d.readData := rfl
@[simp] theorem Dev.setB_now (d : Dev) (f : Fld) (i : Nat) (b : Bool) : (d.setB f i b).now = d.now := rfl
@[simp] theorem Dev.setB_locked (d : Dev) (f : Fld) (i : Nat) (b : Bool) : (d.setB f i b).locked = d.locked := rfl
@[simp] theorem Dev.setB_dt (d : Dev) (f : Fld) (i : Nat) (b : Bool) : (d.setB f i b).dt = d.dt := rfl
@[simp] theorem Dev.setB_lockAt (d : Dev) (f : Fld) (i : Nat) (b : Bool) : (d.setB f i b).lockAt = d.lockAt := rfl
@[simp] theorem Dev.setB_incr (d : Dev) (f : Fld) (i : Nat) (b : Bool) : (d.setB f i b).incr = d.incr := rfl
@[simp] theorem Dev.setB_tgrid (d : Dev) (f : Fld) (i : Nat) (b : Bool) : (d.setB f i b).tgrid = d.tgrid := rfl
@[simp] theorem Dev.setB_grid (d : Dev) (f : Fld) (i : Nat) (b : Bool) : (d.setB f i b).grid = d.grid := rfl
@[simp] theorem Dev.setB_gnum (d : Dev) (f : Fld) (i : Nat) (b : Bool) : (d.setB f i b).gnum = d.gnum := rfl
@[simp] theorem Dev.setB_nextGalley (d : Dev) (f : Fld) (i : Nat) (b : Bool) : (d.setB f i b).nextGalley = d.nextGalley := rfl
@[simp] theorem Dev.setB_galleys (d : Dev) (f : Fld) (i : Nat) (b : Bool) : (d.setB f i b).galleys = d.galleys := rfl
@[simp] theorem Dev.setB_formes (d : Dev) (f : Fld) (i : Nat) (b : Bool) : (d.setB f i b).formes = d.formes := rfl
@[simp] theorem Dev.setB_power (d : Dev) (f : Fld) (i : Nat) (b : Bool) : (d.setB f i b).power = d.power := rfl
@[simp] theorem Dev.setB_arb (d : Dev) (f : Fld) (i : Nat) (b : Bool) : (d.setB f i b).arb = d.arb := rfl
@[simp] theorem Dev.setB_host (d : Dev) (f : Fld) (i : Nat) (b : Bool) : (d.setB f i b).host = d.host := rfl
@[simp] theorem Dev.setB_msix (d : Dev) (f : Fld) (i : Nat) (b : Bool) : (d.setB f i b).msix = d.msix := rfl
@[simp] theorem Dev.setB_vec (d : Dev) (f : Fld) (i : Nat) (b : Bool) : (d.setB f i b).vec = d.vec := rfl
@[simp] theorem Dev.setB_queues (d : Dev) (f : Fld) (i : Nat) (b : Bool) : (d.setB f i b).queues = d.queues := rfl
@[simp] theorem Dev.setB_snaps (d : Dev) (f : Fld) (i : Nat) (b : Bool) : (d.setB f i b).snaps = d.snaps := rfl
@[simp] theorem Dev.setB_cap (d : Dev) (f : Fld) (i : Nat) (b : Bool) : (d.setB f i b).cap = d.cap := rfl
@[simp] theorem Dev.setB_fuse (d : Dev) (f : Fld) (i : Nat) (b : Bool) : (d.setB f i b).fuse = d.fuse := rfl
@[simp] theorem Dev.setB_pins (d : Dev) (f : Fld) (i : Nat) (b : Bool) : (d.setB f i b).pins = d.pins := rfl
@[simp] theorem Dev.setB_ret (d : Dev) (f : Fld) (i : Nat) (b : Bool) : (d.setB f i b).ret = d.ret := rfl
@[simp] theorem Dev.setB_lim (d : Dev) (f : Fld) (i : Nat) (b : Bool) : (d.setB f i b).lim = d.lim := rfl
@[simp] theorem Dev.setB_les (d : Dev) (f : Fld) (i : Nat) (b : Bool) : (d.setB f i b).les = d.les := rfl
@[simp] theorem Dev.setB_fmx (d : Dev) (f : Fld) (i : Nat) (b : Bool) : (d.setB f i b).fmx = d.fmx := rfl
@[simp] theorem Dev.setB_grps (d : Dev) (f : Fld) (i : Nat) (b : Bool) : (d.setB f i b).grps = d.grps := rfl
@[simp] theorem Dev.setB_path (d : Dev) (f : Fld) (i : Nat) (b : Bool) : (d.setB f i b).path = d.path := rfl
@[simp] theorem Dev.setB_tym (d : Dev) (f : Fld) (i : Nat) (b : Bool) : (d.setB f i b).tym = d.tym := rfl
@[simp] theorem Dev.setB_vault (d : Dev) (f : Fld) (i : Nat) (b : Bool) : (d.setB f i b).vault = d.vault := rfl
@[simp] theorem Dev.setB_trust (d : Dev) (f : Fld) (i : Nat) (b : Bool) : (d.setB f i b).trust = d.trust := rfl
@[simp] theorem Dev.setB_calRun (d : Dev) (f : Fld) (i : Nat) (b : Bool) : (d.setB f i b).calRun = d.calRun := rfl
@[simp] theorem Dev.setB_mon (d : Dev) (f : Fld) (i : Nat) (b : Bool) : (d.setB f i b).mon = d.mon := rfl
@[simp] theorem Dev.setB_ecc (d : Dev) (f : Fld) (i : Nat) (b : Bool) : (d.setB f i b).ecc = d.ecc := rfl
@[simp] theorem Dev.setB_chime (d : Dev) (f : Fld) (i : Nat) (b : Bool) : (d.setB f i b).chime = d.chime := rfl
@[simp] theorem Dev.setB_pmClock (d : Dev) (f : Fld) (i : Nat) (b : Bool) : (d.setB f i b).pmClock = d.pmClock := rfl
@[simp] theorem Dev.setB_flowPm (d : Dev) (f : Fld) (i : Nat) (b : Bool) : (d.setB f i b).flowPm = d.flowPm := rfl
@[simp] theorem Dev.setB_flowDef (d : Dev) (f : Fld) (i : Nat) (b : Bool) : (d.setB f i b).flowDef = d.flowDef := rfl
@[simp] theorem Dev.setB_free (d : Dev) (f : Fld) (i : Nat) (b : Bool) : (d.setB f i b).free = d.free := rfl

/-! ### A write of a field of an array -/

@[simp] theorem Dev.setJ_tabs (d : Dev) (f : Fld) (i j v : Nat) : (d.setJ f i j v).tabs = d.tabs := rfl
@[simp] theorem Dev.setJ_frozen (d : Dev) (f : Fld) (i j v : Nat) : (d.setJ f i j v).frozen = d.frozen := rfl
@[simp] theorem Dev.setJ_latch (d : Dev) (f : Fld) (i j v : Nat) : (d.setJ f i j v).latch = d.latch := rfl
@[simp] theorem Dev.setJ_readData (d : Dev) (f : Fld) (i j v : Nat) : (d.setJ f i j v).readData = d.readData := rfl
@[simp] theorem Dev.setJ_now (d : Dev) (f : Fld) (i j v : Nat) : (d.setJ f i j v).now = d.now := rfl
@[simp] theorem Dev.setJ_locked (d : Dev) (f : Fld) (i j v : Nat) : (d.setJ f i j v).locked = d.locked := rfl
@[simp] theorem Dev.setJ_dt (d : Dev) (f : Fld) (i j v : Nat) : (d.setJ f i j v).dt = d.dt := rfl
@[simp] theorem Dev.setJ_lockAt (d : Dev) (f : Fld) (i j v : Nat) : (d.setJ f i j v).lockAt = d.lockAt := rfl
@[simp] theorem Dev.setJ_incr (d : Dev) (f : Fld) (i j v : Nat) : (d.setJ f i j v).incr = d.incr := rfl
@[simp] theorem Dev.setJ_tgrid (d : Dev) (f : Fld) (i j v : Nat) : (d.setJ f i j v).tgrid = d.tgrid := rfl
@[simp] theorem Dev.setJ_grid (d : Dev) (f : Fld) (i j v : Nat) : (d.setJ f i j v).grid = d.grid := rfl
@[simp] theorem Dev.setJ_gnum (d : Dev) (f : Fld) (i j v : Nat) : (d.setJ f i j v).gnum = d.gnum := rfl
@[simp] theorem Dev.setJ_nextGalley (d : Dev) (f : Fld) (i j v : Nat) : (d.setJ f i j v).nextGalley = d.nextGalley := rfl
@[simp] theorem Dev.setJ_galleys (d : Dev) (f : Fld) (i j v : Nat) : (d.setJ f i j v).galleys = d.galleys := rfl
@[simp] theorem Dev.setJ_formes (d : Dev) (f : Fld) (i j v : Nat) : (d.setJ f i j v).formes = d.formes := rfl
@[simp] theorem Dev.setJ_power (d : Dev) (f : Fld) (i j v : Nat) : (d.setJ f i j v).power = d.power := rfl
@[simp] theorem Dev.setJ_arb (d : Dev) (f : Fld) (i j v : Nat) : (d.setJ f i j v).arb = d.arb := rfl
@[simp] theorem Dev.setJ_host (d : Dev) (f : Fld) (i j v : Nat) : (d.setJ f i j v).host = d.host := rfl
@[simp] theorem Dev.setJ_msix (d : Dev) (f : Fld) (i j v : Nat) : (d.setJ f i j v).msix = d.msix := rfl
@[simp] theorem Dev.setJ_vec (d : Dev) (f : Fld) (i j v : Nat) : (d.setJ f i j v).vec = d.vec := rfl
@[simp] theorem Dev.setJ_queues (d : Dev) (f : Fld) (i j v : Nat) : (d.setJ f i j v).queues = d.queues := rfl
@[simp] theorem Dev.setJ_snaps (d : Dev) (f : Fld) (i j v : Nat) : (d.setJ f i j v).snaps = d.snaps := rfl
@[simp] theorem Dev.setJ_cap (d : Dev) (f : Fld) (i j v : Nat) : (d.setJ f i j v).cap = d.cap := rfl
@[simp] theorem Dev.setJ_fuse (d : Dev) (f : Fld) (i j v : Nat) : (d.setJ f i j v).fuse = d.fuse := rfl
@[simp] theorem Dev.setJ_pins (d : Dev) (f : Fld) (i j v : Nat) : (d.setJ f i j v).pins = d.pins := rfl
@[simp] theorem Dev.setJ_ret (d : Dev) (f : Fld) (i j v : Nat) : (d.setJ f i j v).ret = d.ret := rfl
@[simp] theorem Dev.setJ_lim (d : Dev) (f : Fld) (i j v : Nat) : (d.setJ f i j v).lim = d.lim := rfl
@[simp] theorem Dev.setJ_les (d : Dev) (f : Fld) (i j v : Nat) : (d.setJ f i j v).les = d.les := rfl
@[simp] theorem Dev.setJ_fmx (d : Dev) (f : Fld) (i j v : Nat) : (d.setJ f i j v).fmx = d.fmx := rfl
@[simp] theorem Dev.setJ_grps (d : Dev) (f : Fld) (i j v : Nat) : (d.setJ f i j v).grps = d.grps := rfl
@[simp] theorem Dev.setJ_path (d : Dev) (f : Fld) (i j v : Nat) : (d.setJ f i j v).path = d.path := rfl
@[simp] theorem Dev.setJ_tym (d : Dev) (f : Fld) (i j v : Nat) : (d.setJ f i j v).tym = d.tym := rfl
@[simp] theorem Dev.setJ_vault (d : Dev) (f : Fld) (i j v : Nat) : (d.setJ f i j v).vault = d.vault := rfl
@[simp] theorem Dev.setJ_trust (d : Dev) (f : Fld) (i j v : Nat) : (d.setJ f i j v).trust = d.trust := rfl
@[simp] theorem Dev.setJ_calRun (d : Dev) (f : Fld) (i j v : Nat) : (d.setJ f i j v).calRun = d.calRun := rfl
@[simp] theorem Dev.setJ_mon (d : Dev) (f : Fld) (i j v : Nat) : (d.setJ f i j v).mon = d.mon := rfl
@[simp] theorem Dev.setJ_ecc (d : Dev) (f : Fld) (i j v : Nat) : (d.setJ f i j v).ecc = d.ecc := rfl
@[simp] theorem Dev.setJ_chime (d : Dev) (f : Fld) (i j v : Nat) : (d.setJ f i j v).chime = d.chime := rfl
@[simp] theorem Dev.setJ_pmClock (d : Dev) (f : Fld) (i j v : Nat) : (d.setJ f i j v).pmClock = d.pmClock := rfl
@[simp] theorem Dev.setJ_flowPm (d : Dev) (f : Fld) (i j v : Nat) : (d.setJ f i j v).flowPm = d.flowPm := rfl
@[simp] theorem Dev.setJ_flowDef (d : Dev) (f : Fld) (i j v : Nat) : (d.setJ f i j v).flowDef = d.flowDef := rfl
@[simp] theorem Dev.setJ_free (d : Dev) (f : Fld) (i j v : Nat) : (d.setJ f i j v).free = d.free := rfl

/-! ### A write of a table word -/

@[simp] theorem Dev.setTab_regs (d : Dev) (p s i w v : Nat) : (d.setTab p s i w v).regs = d.regs := rfl
@[simp] theorem Dev.setTab_frozen (d : Dev) (p s i w v : Nat) : (d.setTab p s i w v).frozen = d.frozen := rfl
@[simp] theorem Dev.setTab_latch (d : Dev) (p s i w v : Nat) : (d.setTab p s i w v).latch = d.latch := rfl
@[simp] theorem Dev.setTab_readData (d : Dev) (p s i w v : Nat) : (d.setTab p s i w v).readData = d.readData := rfl
@[simp] theorem Dev.setTab_now (d : Dev) (p s i w v : Nat) : (d.setTab p s i w v).now = d.now := rfl
@[simp] theorem Dev.setTab_locked (d : Dev) (p s i w v : Nat) : (d.setTab p s i w v).locked = d.locked := rfl
@[simp] theorem Dev.setTab_dt (d : Dev) (p s i w v : Nat) : (d.setTab p s i w v).dt = d.dt := rfl
@[simp] theorem Dev.setTab_lockAt (d : Dev) (p s i w v : Nat) : (d.setTab p s i w v).lockAt = d.lockAt := rfl
@[simp] theorem Dev.setTab_incr (d : Dev) (p s i w v : Nat) : (d.setTab p s i w v).incr = d.incr := rfl
@[simp] theorem Dev.setTab_tgrid (d : Dev) (p s i w v : Nat) : (d.setTab p s i w v).tgrid = d.tgrid := rfl
@[simp] theorem Dev.setTab_grid (d : Dev) (p s i w v : Nat) : (d.setTab p s i w v).grid = d.grid := rfl
@[simp] theorem Dev.setTab_gnum (d : Dev) (p s i w v : Nat) : (d.setTab p s i w v).gnum = d.gnum := rfl
@[simp] theorem Dev.setTab_nextGalley (d : Dev) (p s i w v : Nat) : (d.setTab p s i w v).nextGalley = d.nextGalley := rfl
@[simp] theorem Dev.setTab_galleys (d : Dev) (p s i w v : Nat) : (d.setTab p s i w v).galleys = d.galleys := rfl
@[simp] theorem Dev.setTab_formes (d : Dev) (p s i w v : Nat) : (d.setTab p s i w v).formes = d.formes := rfl
@[simp] theorem Dev.setTab_power (d : Dev) (p s i w v : Nat) : (d.setTab p s i w v).power = d.power := rfl
@[simp] theorem Dev.setTab_arb (d : Dev) (p s i w v : Nat) : (d.setTab p s i w v).arb = d.arb := rfl
@[simp] theorem Dev.setTab_host (d : Dev) (p s i w v : Nat) : (d.setTab p s i w v).host = d.host := rfl
@[simp] theorem Dev.setTab_msix (d : Dev) (p s i w v : Nat) : (d.setTab p s i w v).msix = d.msix := rfl
@[simp] theorem Dev.setTab_vec (d : Dev) (p s i w v : Nat) : (d.setTab p s i w v).vec = d.vec := rfl
@[simp] theorem Dev.setTab_queues (d : Dev) (p s i w v : Nat) : (d.setTab p s i w v).queues = d.queues := rfl
@[simp] theorem Dev.setTab_snaps (d : Dev) (p s i w v : Nat) : (d.setTab p s i w v).snaps = d.snaps := rfl
@[simp] theorem Dev.setTab_cap (d : Dev) (p s i w v : Nat) : (d.setTab p s i w v).cap = d.cap := rfl
@[simp] theorem Dev.setTab_fuse (d : Dev) (p s i w v : Nat) : (d.setTab p s i w v).fuse = d.fuse := rfl
@[simp] theorem Dev.setTab_pins (d : Dev) (p s i w v : Nat) : (d.setTab p s i w v).pins = d.pins := rfl
@[simp] theorem Dev.setTab_ret (d : Dev) (p s i w v : Nat) : (d.setTab p s i w v).ret = d.ret := rfl
@[simp] theorem Dev.setTab_lim (d : Dev) (p s i w v : Nat) : (d.setTab p s i w v).lim = d.lim := rfl
@[simp] theorem Dev.setTab_les (d : Dev) (p s i w v : Nat) : (d.setTab p s i w v).les = d.les := rfl
@[simp] theorem Dev.setTab_fmx (d : Dev) (p s i w v : Nat) : (d.setTab p s i w v).fmx = d.fmx := rfl
@[simp] theorem Dev.setTab_grps (d : Dev) (p s i w v : Nat) : (d.setTab p s i w v).grps = d.grps := rfl
@[simp] theorem Dev.setTab_path (d : Dev) (p s i w v : Nat) : (d.setTab p s i w v).path = d.path := rfl
@[simp] theorem Dev.setTab_tym (d : Dev) (p s i w v : Nat) : (d.setTab p s i w v).tym = d.tym := rfl
@[simp] theorem Dev.setTab_vault (d : Dev) (p s i w v : Nat) : (d.setTab p s i w v).vault = d.vault := rfl
@[simp] theorem Dev.setTab_trust (d : Dev) (p s i w v : Nat) : (d.setTab p s i w v).trust = d.trust := rfl
@[simp] theorem Dev.setTab_calRun (d : Dev) (p s i w v : Nat) : (d.setTab p s i w v).calRun = d.calRun := rfl
@[simp] theorem Dev.setTab_mon (d : Dev) (p s i w v : Nat) : (d.setTab p s i w v).mon = d.mon := rfl
@[simp] theorem Dev.setTab_ecc (d : Dev) (p s i w v : Nat) : (d.setTab p s i w v).ecc = d.ecc := rfl
@[simp] theorem Dev.setTab_chime (d : Dev) (p s i w v : Nat) : (d.setTab p s i w v).chime = d.chime := rfl
@[simp] theorem Dev.setTab_pmClock (d : Dev) (p s i w v : Nat) : (d.setTab p s i w v).pmClock = d.pmClock := rfl
@[simp] theorem Dev.setTab_flowPm (d : Dev) (p s i w v : Nat) : (d.setTab p s i w v).flowPm = d.flowPm := rfl
@[simp] theorem Dev.setTab_flowDef (d : Dev) (p s i w v : Nat) : (d.setTab p s i w v).flowDef = d.flowDef := rfl
@[simp] theorem Dev.setTab_free (d : Dev) (p s i w v : Nat) : (d.setTab p s i w v).free = d.free := rfl

/-! ### A write of a line engine's state -/

@[simp] theorem Dev.setLe_regs (d : Dev) (n : Nat) (x : Le) : (d.setLe n x).regs = d.regs := rfl
@[simp] theorem Dev.setLe_tabs (d : Dev) (n : Nat) (x : Le) : (d.setLe n x).tabs = d.tabs := rfl
@[simp] theorem Dev.setLe_frozen (d : Dev) (n : Nat) (x : Le) : (d.setLe n x).frozen = d.frozen := rfl
@[simp] theorem Dev.setLe_latch (d : Dev) (n : Nat) (x : Le) : (d.setLe n x).latch = d.latch := rfl
@[simp] theorem Dev.setLe_readData (d : Dev) (n : Nat) (x : Le) : (d.setLe n x).readData = d.readData := rfl
@[simp] theorem Dev.setLe_now (d : Dev) (n : Nat) (x : Le) : (d.setLe n x).now = d.now := rfl
@[simp] theorem Dev.setLe_locked (d : Dev) (n : Nat) (x : Le) : (d.setLe n x).locked = d.locked := rfl
@[simp] theorem Dev.setLe_dt (d : Dev) (n : Nat) (x : Le) : (d.setLe n x).dt = d.dt := rfl
@[simp] theorem Dev.setLe_lockAt (d : Dev) (n : Nat) (x : Le) : (d.setLe n x).lockAt = d.lockAt := rfl
@[simp] theorem Dev.setLe_incr (d : Dev) (n : Nat) (x : Le) : (d.setLe n x).incr = d.incr := rfl
@[simp] theorem Dev.setLe_tgrid (d : Dev) (n : Nat) (x : Le) : (d.setLe n x).tgrid = d.tgrid := rfl
@[simp] theorem Dev.setLe_grid (d : Dev) (n : Nat) (x : Le) : (d.setLe n x).grid = d.grid := rfl
@[simp] theorem Dev.setLe_gnum (d : Dev) (n : Nat) (x : Le) : (d.setLe n x).gnum = d.gnum := rfl
@[simp] theorem Dev.setLe_nextGalley (d : Dev) (n : Nat) (x : Le) : (d.setLe n x).nextGalley = d.nextGalley := rfl
@[simp] theorem Dev.setLe_galleys (d : Dev) (n : Nat) (x : Le) : (d.setLe n x).galleys = d.galleys := rfl
@[simp] theorem Dev.setLe_formes (d : Dev) (n : Nat) (x : Le) : (d.setLe n x).formes = d.formes := rfl
@[simp] theorem Dev.setLe_power (d : Dev) (n : Nat) (x : Le) : (d.setLe n x).power = d.power := rfl
@[simp] theorem Dev.setLe_arb (d : Dev) (n : Nat) (x : Le) : (d.setLe n x).arb = d.arb := rfl
@[simp] theorem Dev.setLe_host (d : Dev) (n : Nat) (x : Le) : (d.setLe n x).host = d.host := rfl
@[simp] theorem Dev.setLe_msix (d : Dev) (n : Nat) (x : Le) : (d.setLe n x).msix = d.msix := rfl
@[simp] theorem Dev.setLe_vec (d : Dev) (n : Nat) (x : Le) : (d.setLe n x).vec = d.vec := rfl
@[simp] theorem Dev.setLe_queues (d : Dev) (n : Nat) (x : Le) : (d.setLe n x).queues = d.queues := rfl
@[simp] theorem Dev.setLe_snaps (d : Dev) (n : Nat) (x : Le) : (d.setLe n x).snaps = d.snaps := rfl
@[simp] theorem Dev.setLe_cap (d : Dev) (n : Nat) (x : Le) : (d.setLe n x).cap = d.cap := rfl
@[simp] theorem Dev.setLe_fuse (d : Dev) (n : Nat) (x : Le) : (d.setLe n x).fuse = d.fuse := rfl
@[simp] theorem Dev.setLe_pins (d : Dev) (n : Nat) (x : Le) : (d.setLe n x).pins = d.pins := rfl
@[simp] theorem Dev.setLe_ret (d : Dev) (n : Nat) (x : Le) : (d.setLe n x).ret = d.ret := rfl
@[simp] theorem Dev.setLe_lim (d : Dev) (n : Nat) (x : Le) : (d.setLe n x).lim = d.lim := rfl
@[simp] theorem Dev.setLe_fmx (d : Dev) (n : Nat) (x : Le) : (d.setLe n x).fmx = d.fmx := rfl
@[simp] theorem Dev.setLe_grps (d : Dev) (n : Nat) (x : Le) : (d.setLe n x).grps = d.grps := rfl
@[simp] theorem Dev.setLe_path (d : Dev) (n : Nat) (x : Le) : (d.setLe n x).path = d.path := rfl
@[simp] theorem Dev.setLe_tym (d : Dev) (n : Nat) (x : Le) : (d.setLe n x).tym = d.tym := rfl
@[simp] theorem Dev.setLe_vault (d : Dev) (n : Nat) (x : Le) : (d.setLe n x).vault = d.vault := rfl
@[simp] theorem Dev.setLe_trust (d : Dev) (n : Nat) (x : Le) : (d.setLe n x).trust = d.trust := rfl
@[simp] theorem Dev.setLe_calRun (d : Dev) (n : Nat) (x : Le) : (d.setLe n x).calRun = d.calRun := rfl
@[simp] theorem Dev.setLe_mon (d : Dev) (n : Nat) (x : Le) : (d.setLe n x).mon = d.mon := rfl
@[simp] theorem Dev.setLe_ecc (d : Dev) (n : Nat) (x : Le) : (d.setLe n x).ecc = d.ecc := rfl
@[simp] theorem Dev.setLe_chime (d : Dev) (n : Nat) (x : Le) : (d.setLe n x).chime = d.chime := rfl
@[simp] theorem Dev.setLe_pmClock (d : Dev) (n : Nat) (x : Le) : (d.setLe n x).pmClock = d.pmClock := rfl
@[simp] theorem Dev.setLe_flowPm (d : Dev) (n : Nat) (x : Le) : (d.setLe n x).flowPm = d.flowPm := rfl
@[simp] theorem Dev.setLe_flowDef (d : Dev) (n : Nat) (x : Le) : (d.setLe n x).flowDef = d.flowDef := rfl
@[simp] theorem Dev.setLe_free (d : Dev) (n : Nat) (x : Le) : (d.setLe n x).free = d.free := rfl

/-! ### A write of a queue -/

@[simp] theorem Dev.setQueue_regs (d : Dev) (q : Nat) (x : Queue) : (d.setQueue q x).regs = d.regs := rfl
@[simp] theorem Dev.setQueue_tabs (d : Dev) (q : Nat) (x : Queue) : (d.setQueue q x).tabs = d.tabs := rfl
@[simp] theorem Dev.setQueue_frozen (d : Dev) (q : Nat) (x : Queue) : (d.setQueue q x).frozen = d.frozen := rfl
@[simp] theorem Dev.setQueue_latch (d : Dev) (q : Nat) (x : Queue) : (d.setQueue q x).latch = d.latch := rfl
@[simp] theorem Dev.setQueue_readData (d : Dev) (q : Nat) (x : Queue) : (d.setQueue q x).readData = d.readData := rfl
@[simp] theorem Dev.setQueue_now (d : Dev) (q : Nat) (x : Queue) : (d.setQueue q x).now = d.now := rfl
@[simp] theorem Dev.setQueue_locked (d : Dev) (q : Nat) (x : Queue) : (d.setQueue q x).locked = d.locked := rfl
@[simp] theorem Dev.setQueue_dt (d : Dev) (q : Nat) (x : Queue) : (d.setQueue q x).dt = d.dt := rfl
@[simp] theorem Dev.setQueue_lockAt (d : Dev) (q : Nat) (x : Queue) : (d.setQueue q x).lockAt = d.lockAt := rfl
@[simp] theorem Dev.setQueue_incr (d : Dev) (q : Nat) (x : Queue) : (d.setQueue q x).incr = d.incr := rfl
@[simp] theorem Dev.setQueue_tgrid (d : Dev) (q : Nat) (x : Queue) : (d.setQueue q x).tgrid = d.tgrid := rfl
@[simp] theorem Dev.setQueue_grid (d : Dev) (q : Nat) (x : Queue) : (d.setQueue q x).grid = d.grid := rfl
@[simp] theorem Dev.setQueue_gnum (d : Dev) (q : Nat) (x : Queue) : (d.setQueue q x).gnum = d.gnum := rfl
@[simp] theorem Dev.setQueue_nextGalley (d : Dev) (q : Nat) (x : Queue) : (d.setQueue q x).nextGalley = d.nextGalley := rfl
@[simp] theorem Dev.setQueue_galleys (d : Dev) (q : Nat) (x : Queue) : (d.setQueue q x).galleys = d.galleys := rfl
@[simp] theorem Dev.setQueue_formes (d : Dev) (q : Nat) (x : Queue) : (d.setQueue q x).formes = d.formes := rfl
@[simp] theorem Dev.setQueue_power (d : Dev) (q : Nat) (x : Queue) : (d.setQueue q x).power = d.power := rfl
@[simp] theorem Dev.setQueue_arb (d : Dev) (q : Nat) (x : Queue) : (d.setQueue q x).arb = d.arb := rfl
@[simp] theorem Dev.setQueue_host (d : Dev) (q : Nat) (x : Queue) : (d.setQueue q x).host = d.host := rfl
@[simp] theorem Dev.setQueue_msix (d : Dev) (q : Nat) (x : Queue) : (d.setQueue q x).msix = d.msix := rfl
@[simp] theorem Dev.setQueue_vec (d : Dev) (q : Nat) (x : Queue) : (d.setQueue q x).vec = d.vec := rfl
@[simp] theorem Dev.setQueue_snaps (d : Dev) (q : Nat) (x : Queue) : (d.setQueue q x).snaps = d.snaps := rfl
@[simp] theorem Dev.setQueue_cap (d : Dev) (q : Nat) (x : Queue) : (d.setQueue q x).cap = d.cap := rfl
@[simp] theorem Dev.setQueue_fuse (d : Dev) (q : Nat) (x : Queue) : (d.setQueue q x).fuse = d.fuse := rfl
@[simp] theorem Dev.setQueue_pins (d : Dev) (q : Nat) (x : Queue) : (d.setQueue q x).pins = d.pins := rfl
@[simp] theorem Dev.setQueue_ret (d : Dev) (q : Nat) (x : Queue) : (d.setQueue q x).ret = d.ret := rfl
@[simp] theorem Dev.setQueue_lim (d : Dev) (q : Nat) (x : Queue) : (d.setQueue q x).lim = d.lim := rfl
@[simp] theorem Dev.setQueue_les (d : Dev) (q : Nat) (x : Queue) : (d.setQueue q x).les = d.les := rfl
@[simp] theorem Dev.setQueue_fmx (d : Dev) (q : Nat) (x : Queue) : (d.setQueue q x).fmx = d.fmx := rfl
@[simp] theorem Dev.setQueue_grps (d : Dev) (q : Nat) (x : Queue) : (d.setQueue q x).grps = d.grps := rfl
@[simp] theorem Dev.setQueue_path (d : Dev) (q : Nat) (x : Queue) : (d.setQueue q x).path = d.path := rfl
@[simp] theorem Dev.setQueue_tym (d : Dev) (q : Nat) (x : Queue) : (d.setQueue q x).tym = d.tym := rfl
@[simp] theorem Dev.setQueue_vault (d : Dev) (q : Nat) (x : Queue) : (d.setQueue q x).vault = d.vault := rfl
@[simp] theorem Dev.setQueue_trust (d : Dev) (q : Nat) (x : Queue) : (d.setQueue q x).trust = d.trust := rfl
@[simp] theorem Dev.setQueue_calRun (d : Dev) (q : Nat) (x : Queue) : (d.setQueue q x).calRun = d.calRun := rfl
@[simp] theorem Dev.setQueue_mon (d : Dev) (q : Nat) (x : Queue) : (d.setQueue q x).mon = d.mon := rfl
@[simp] theorem Dev.setQueue_ecc (d : Dev) (q : Nat) (x : Queue) : (d.setQueue q x).ecc = d.ecc := rfl
@[simp] theorem Dev.setQueue_chime (d : Dev) (q : Nat) (x : Queue) : (d.setQueue q x).chime = d.chime := rfl
@[simp] theorem Dev.setQueue_pmClock (d : Dev) (q : Nat) (x : Queue) : (d.setQueue q x).pmClock = d.pmClock := rfl
@[simp] theorem Dev.setQueue_flowPm (d : Dev) (q : Nat) (x : Queue) : (d.setQueue q x).flowPm = d.flowPm := rfl
@[simp] theorem Dev.setQueue_flowDef (d : Dev) (q : Nat) (x : Queue) : (d.setQueue q x).flowDef = d.flowDef := rfl
@[simp] theorem Dev.setQueue_free (d : Dev) (q : Nat) (x : Queue) : (d.setQueue q x).free = d.free := rfl

/-! ### Raising an event -/

@[simp] theorem Dev.raise_tabs (d : Dev) (e : Ev) (i a c : Nat) : (d.raise e i a c).tabs = d.tabs :=
  (congrArg Dev.tabs (d.eventsOnly_raise e i a c).1).trans rfl
@[simp] theorem Dev.raise_frozen (d : Dev) (e : Ev) (i a c : Nat) : (d.raise e i a c).frozen = d.frozen :=
  (congrArg Dev.frozen (d.eventsOnly_raise e i a c).1).trans rfl
@[simp] theorem Dev.raise_latch (d : Dev) (e : Ev) (i a c : Nat) : (d.raise e i a c).latch = d.latch :=
  (congrArg Dev.latch (d.eventsOnly_raise e i a c).1).trans rfl
@[simp] theorem Dev.raise_readData (d : Dev) (e : Ev) (i a c : Nat) : (d.raise e i a c).readData = d.readData :=
  (congrArg Dev.readData (d.eventsOnly_raise e i a c).1).trans rfl
@[simp] theorem Dev.raise_now (d : Dev) (e : Ev) (i a c : Nat) : (d.raise e i a c).now = d.now :=
  (congrArg Dev.now (d.eventsOnly_raise e i a c).1).trans rfl
@[simp] theorem Dev.raise_locked (d : Dev) (e : Ev) (i a c : Nat) : (d.raise e i a c).locked = d.locked :=
  (congrArg Dev.locked (d.eventsOnly_raise e i a c).1).trans rfl
@[simp] theorem Dev.raise_dt (d : Dev) (e : Ev) (i a c : Nat) : (d.raise e i a c).dt = d.dt :=
  (congrArg Dev.dt (d.eventsOnly_raise e i a c).1).trans rfl
@[simp] theorem Dev.raise_lockAt (d : Dev) (e : Ev) (i a c : Nat) : (d.raise e i a c).lockAt = d.lockAt :=
  (congrArg Dev.lockAt (d.eventsOnly_raise e i a c).1).trans rfl
@[simp] theorem Dev.raise_incr (d : Dev) (e : Ev) (i a c : Nat) : (d.raise e i a c).incr = d.incr :=
  (congrArg Dev.incr (d.eventsOnly_raise e i a c).1).trans rfl
@[simp] theorem Dev.raise_tgrid (d : Dev) (e : Ev) (i a c : Nat) : (d.raise e i a c).tgrid = d.tgrid :=
  (congrArg Dev.tgrid (d.eventsOnly_raise e i a c).1).trans rfl
@[simp] theorem Dev.raise_grid (d : Dev) (e : Ev) (i a c : Nat) : (d.raise e i a c).grid = d.grid :=
  (congrArg Dev.grid (d.eventsOnly_raise e i a c).1).trans rfl
@[simp] theorem Dev.raise_gnum (d : Dev) (e : Ev) (i a c : Nat) : (d.raise e i a c).gnum = d.gnum :=
  (congrArg Dev.gnum (d.eventsOnly_raise e i a c).1).trans rfl
@[simp] theorem Dev.raise_nextGalley (d : Dev) (e : Ev) (i a c : Nat) : (d.raise e i a c).nextGalley = d.nextGalley :=
  (congrArg Dev.nextGalley (d.eventsOnly_raise e i a c).1).trans rfl
@[simp] theorem Dev.raise_galleys (d : Dev) (e : Ev) (i a c : Nat) : (d.raise e i a c).galleys = d.galleys :=
  (congrArg Dev.galleys (d.eventsOnly_raise e i a c).1).trans rfl
@[simp] theorem Dev.raise_formes (d : Dev) (e : Ev) (i a c : Nat) : (d.raise e i a c).formes = d.formes :=
  (congrArg Dev.formes (d.eventsOnly_raise e i a c).1).trans rfl
@[simp] theorem Dev.raise_power (d : Dev) (e : Ev) (i a c : Nat) : (d.raise e i a c).power = d.power :=
  (congrArg Dev.power (d.eventsOnly_raise e i a c).1).trans rfl
@[simp] theorem Dev.raise_arb (d : Dev) (e : Ev) (i a c : Nat) : (d.raise e i a c).arb = d.arb :=
  (congrArg Dev.arb (d.eventsOnly_raise e i a c).1).trans rfl
@[simp] theorem Dev.raise_host (d : Dev) (e : Ev) (i a c : Nat) : (d.raise e i a c).host = d.host :=
  (congrArg Dev.host (d.eventsOnly_raise e i a c).1).trans rfl
@[simp] theorem Dev.raise_snaps (d : Dev) (e : Ev) (i a c : Nat) : (d.raise e i a c).snaps = d.snaps :=
  (congrArg Dev.snaps (d.eventsOnly_raise e i a c).1).trans rfl
@[simp] theorem Dev.raise_cap (d : Dev) (e : Ev) (i a c : Nat) : (d.raise e i a c).cap = d.cap :=
  (congrArg Dev.cap (d.eventsOnly_raise e i a c).1).trans rfl
@[simp] theorem Dev.raise_fuse (d : Dev) (e : Ev) (i a c : Nat) : (d.raise e i a c).fuse = d.fuse :=
  (congrArg Dev.fuse (d.eventsOnly_raise e i a c).1).trans rfl
@[simp] theorem Dev.raise_pins (d : Dev) (e : Ev) (i a c : Nat) : (d.raise e i a c).pins = d.pins :=
  (congrArg Dev.pins (d.eventsOnly_raise e i a c).1).trans rfl
@[simp] theorem Dev.raise_lim (d : Dev) (e : Ev) (i a c : Nat) : (d.raise e i a c).lim = d.lim :=
  (congrArg Dev.lim (d.eventsOnly_raise e i a c).1).trans rfl
@[simp] theorem Dev.raise_les (d : Dev) (e : Ev) (i a c : Nat) : (d.raise e i a c).les = d.les :=
  (congrArg Dev.les (d.eventsOnly_raise e i a c).1).trans rfl
@[simp] theorem Dev.raise_fmx (d : Dev) (e : Ev) (i a c : Nat) : (d.raise e i a c).fmx = d.fmx :=
  (congrArg Dev.fmx (d.eventsOnly_raise e i a c).1).trans rfl
@[simp] theorem Dev.raise_grps (d : Dev) (e : Ev) (i a c : Nat) : (d.raise e i a c).grps = d.grps :=
  (congrArg Dev.grps (d.eventsOnly_raise e i a c).1).trans rfl
@[simp] theorem Dev.raise_path (d : Dev) (e : Ev) (i a c : Nat) : (d.raise e i a c).path = d.path :=
  (congrArg Dev.path (d.eventsOnly_raise e i a c).1).trans rfl
@[simp] theorem Dev.raise_tym (d : Dev) (e : Ev) (i a c : Nat) : (d.raise e i a c).tym = d.tym :=
  (congrArg Dev.tym (d.eventsOnly_raise e i a c).1).trans rfl
@[simp] theorem Dev.raise_vault (d : Dev) (e : Ev) (i a c : Nat) : (d.raise e i a c).vault = d.vault :=
  (congrArg Dev.vault (d.eventsOnly_raise e i a c).1).trans rfl
@[simp] theorem Dev.raise_trust (d : Dev) (e : Ev) (i a c : Nat) : (d.raise e i a c).trust = d.trust :=
  (congrArg Dev.trust (d.eventsOnly_raise e i a c).1).trans rfl
@[simp] theorem Dev.raise_calRun (d : Dev) (e : Ev) (i a c : Nat) : (d.raise e i a c).calRun = d.calRun :=
  (congrArg Dev.calRun (d.eventsOnly_raise e i a c).1).trans rfl
@[simp] theorem Dev.raise_mon (d : Dev) (e : Ev) (i a c : Nat) : (d.raise e i a c).mon = d.mon :=
  (congrArg Dev.mon (d.eventsOnly_raise e i a c).1).trans rfl
@[simp] theorem Dev.raise_ecc (d : Dev) (e : Ev) (i a c : Nat) : (d.raise e i a c).ecc = d.ecc :=
  (congrArg Dev.ecc (d.eventsOnly_raise e i a c).1).trans rfl
@[simp] theorem Dev.raise_chime (d : Dev) (e : Ev) (i a c : Nat) : (d.raise e i a c).chime = d.chime :=
  (congrArg Dev.chime (d.eventsOnly_raise e i a c).1).trans rfl
@[simp] theorem Dev.raise_pmClock (d : Dev) (e : Ev) (i a c : Nat) : (d.raise e i a c).pmClock = d.pmClock :=
  (congrArg Dev.pmClock (d.eventsOnly_raise e i a c).1).trans rfl
@[simp] theorem Dev.raise_flowPm (d : Dev) (e : Ev) (i a c : Nat) : (d.raise e i a c).flowPm = d.flowPm :=
  (congrArg Dev.flowPm (d.eventsOnly_raise e i a c).1).trans rfl
@[simp] theorem Dev.raise_flowDef (d : Dev) (e : Ev) (i a c : Nat) : (d.raise e i a c).flowDef = d.flowDef :=
  (congrArg Dev.flowDef (d.eventsOnly_raise e i a c).1).trans rfl
@[simp] theorem Dev.raise_free (d : Dev) (e : Ev) (i a c : Nat) : (d.raise e i a c).free = d.free :=
  (congrArg Dev.free (d.eventsOnly_raise e i a c).1).trans rfl

/-! ### Time running on -/

@[simp] theorem Dev.until_regs (d : Dev) (t : Nat) : (d.until t).regs = d.regs := by unfold Dev.until; split <;> rfl
@[simp] theorem Dev.until_tabs (d : Dev) (t : Nat) : (d.until t).tabs = d.tabs := by unfold Dev.until; split <;> rfl
@[simp] theorem Dev.until_frozen (d : Dev) (t : Nat) : (d.until t).frozen = d.frozen := by unfold Dev.until; split <;> rfl
@[simp] theorem Dev.until_latch (d : Dev) (t : Nat) : (d.until t).latch = d.latch := by unfold Dev.until; split <;> rfl
@[simp] theorem Dev.until_readData (d : Dev) (t : Nat) : (d.until t).readData = d.readData := by unfold Dev.until; split <;> rfl
@[simp] theorem Dev.until_locked (d : Dev) (t : Nat) : (d.until t).locked = d.locked := by unfold Dev.until; split <;> rfl
@[simp] theorem Dev.until_lockAt (d : Dev) (t : Nat) : (d.until t).lockAt = d.lockAt := by unfold Dev.until; split <;> rfl
@[simp] theorem Dev.until_incr (d : Dev) (t : Nat) : (d.until t).incr = d.incr := by unfold Dev.until; split <;> rfl
@[simp] theorem Dev.until_tgrid (d : Dev) (t : Nat) : (d.until t).tgrid = d.tgrid := by unfold Dev.until; split <;> rfl
@[simp] theorem Dev.until_grid (d : Dev) (t : Nat) : (d.until t).grid = d.grid := by unfold Dev.until; split <;> rfl
@[simp] theorem Dev.until_gnum (d : Dev) (t : Nat) : (d.until t).gnum = d.gnum := by unfold Dev.until; split <;> rfl
@[simp] theorem Dev.until_nextGalley (d : Dev) (t : Nat) : (d.until t).nextGalley = d.nextGalley := by unfold Dev.until; split <;> rfl
@[simp] theorem Dev.until_galleys (d : Dev) (t : Nat) : (d.until t).galleys = d.galleys := by unfold Dev.until; split <;> rfl
@[simp] theorem Dev.until_formes (d : Dev) (t : Nat) : (d.until t).formes = d.formes := by unfold Dev.until; split <;> rfl
@[simp] theorem Dev.until_power (d : Dev) (t : Nat) : (d.until t).power = d.power := by unfold Dev.until; split <;> rfl
@[simp] theorem Dev.until_arb (d : Dev) (t : Nat) : (d.until t).arb = d.arb := by unfold Dev.until; split <;> rfl
@[simp] theorem Dev.until_host (d : Dev) (t : Nat) : (d.until t).host = d.host := by unfold Dev.until; split <;> rfl
@[simp] theorem Dev.until_msix (d : Dev) (t : Nat) : (d.until t).msix = d.msix := by unfold Dev.until; split <;> rfl
@[simp] theorem Dev.until_vec (d : Dev) (t : Nat) : (d.until t).vec = d.vec := by unfold Dev.until; split <;> rfl
@[simp] theorem Dev.until_queues (d : Dev) (t : Nat) : (d.until t).queues = d.queues := by unfold Dev.until; split <;> rfl
@[simp] theorem Dev.until_snaps (d : Dev) (t : Nat) : (d.until t).snaps = d.snaps := by unfold Dev.until; split <;> rfl
@[simp] theorem Dev.until_cap (d : Dev) (t : Nat) : (d.until t).cap = d.cap := by unfold Dev.until; split <;> rfl
@[simp] theorem Dev.until_fuse (d : Dev) (t : Nat) : (d.until t).fuse = d.fuse := by unfold Dev.until; split <;> rfl
@[simp] theorem Dev.until_pins (d : Dev) (t : Nat) : (d.until t).pins = d.pins := by unfold Dev.until; split <;> rfl
@[simp] theorem Dev.until_ret (d : Dev) (t : Nat) : (d.until t).ret = d.ret := by unfold Dev.until; split <;> rfl
@[simp] theorem Dev.until_lim (d : Dev) (t : Nat) : (d.until t).lim = d.lim := by unfold Dev.until; split <;> rfl
@[simp] theorem Dev.until_les (d : Dev) (t : Nat) : (d.until t).les = d.les := by unfold Dev.until; split <;> rfl
@[simp] theorem Dev.until_fmx (d : Dev) (t : Nat) : (d.until t).fmx = d.fmx := by unfold Dev.until; split <;> rfl
@[simp] theorem Dev.until_grps (d : Dev) (t : Nat) : (d.until t).grps = d.grps := by unfold Dev.until; split <;> rfl
@[simp] theorem Dev.until_path (d : Dev) (t : Nat) : (d.until t).path = d.path := by unfold Dev.until; split <;> rfl
@[simp] theorem Dev.until_tym (d : Dev) (t : Nat) : (d.until t).tym = d.tym := by unfold Dev.until; split <;> rfl
@[simp] theorem Dev.until_vault (d : Dev) (t : Nat) : (d.until t).vault = d.vault := by unfold Dev.until; split <;> rfl
@[simp] theorem Dev.until_trust (d : Dev) (t : Nat) : (d.until t).trust = d.trust := by unfold Dev.until; split <;> rfl
@[simp] theorem Dev.until_calRun (d : Dev) (t : Nat) : (d.until t).calRun = d.calRun := by unfold Dev.until; split <;> rfl
@[simp] theorem Dev.until_mon (d : Dev) (t : Nat) : (d.until t).mon = d.mon := by unfold Dev.until; split <;> rfl
@[simp] theorem Dev.until_ecc (d : Dev) (t : Nat) : (d.until t).ecc = d.ecc := by unfold Dev.until; split <;> rfl
@[simp] theorem Dev.until_chime (d : Dev) (t : Nat) : (d.until t).chime = d.chime := by unfold Dev.until; split <;> rfl
@[simp] theorem Dev.until_pmClock (d : Dev) (t : Nat) : (d.until t).pmClock = d.pmClock := by unfold Dev.until; split <;> rfl
@[simp] theorem Dev.until_flowPm (d : Dev) (t : Nat) : (d.until t).flowPm = d.flowPm := by unfold Dev.until; split <;> rfl
@[simp] theorem Dev.until_flowDef (d : Dev) (t : Nat) : (d.until t).flowDef = d.flowDef := by unfold Dev.until; split <;> rfl
@[simp] theorem Dev.until_free (d : Dev) (t : Nat) : (d.until t).free = d.free := by unfold Dev.until; split <;> rfl
@[simp] theorem Dev.until_now (d : Dev) (t : Nat) : (d.until t).now = max d.now t := by
  unfold Dev.until; split
  · show t = max d.now t; omega
  · show d.now = max d.now t; omega
/-- Of the device time running on changes the time alone. -/
theorem Dev.until_eq (d : Dev) (t : Nat) : d.until t = { d with now := (d.until t).now, dt := (d.until t).dt } := by
  unfold Dev.until; split <;> rfl
@[simp] theorem Dev.until_get (d : Dev) (t : Nat) (f : Fld) (i : Nat) : (d.until t).get f i = d.get f i := by simp [Dev.get]
@[simp] theorem Dev.until_getJ (d : Dev) (t : Nat) (f : Fld) (i j : Nat) : (d.until t).getJ f i j = d.getJ f i j := by simp [Dev.getJ]
@[simp] theorem Dev.until_flag (d : Dev) (t : Nat) (f : Fld) (i : Nat) : (d.until t).flag f i = d.flag f i := by simp [Dev.flag]
@[simp] theorem Dev.until_le (d : Dev) (t n : Nat) : (d.until t).le n = d.le n := by simp [Dev.le]
@[simp] theorem Dev.until_txState (d : Dev) (t n : Nat) : (d.until t).txState n = d.txState n := by simp [Dev.txState]
@[simp] theorem Dev.until_rxState (d : Dev) (t n : Nat) : (d.until t).rxState n = d.rxState n := by simp [Dev.rxState]
@[simp] theorem Dev.until_grp (d : Dev) (t g : Nat) : (d.until t).grp g = d.grp g := by simp [Dev.grp]
@[simp] theorem Dev.until_queue (d : Dev) (t q : Nat) : (d.until t).queue q = d.queue q := by simp [Dev.queue]

/-! ### Changes of a line engine's state -/

@[simp] theorem Dev.le_setLe_same (d : Dev) (n : Nat) (x : Le) : (d.setLe n x).le n = x := by simp [Dev.le, Dev.setLe]
theorem Dev.le_setLe_ne (d : Dev) {n m : Nat} (x : Le) (h : m ≠ n) : (d.setLe n x).le m = d.le m := by
  simp [Dev.le, Dev.setLe, Store.get_set_ne _ _ h]
@[simp] theorem Dev.set_le (d : Dev) (f : Fld) (i v n : Nat) : (d.set f i v).le n = d.le n := rfl
@[simp] theorem Dev.setJ_le (d : Dev) (f : Fld) (i j v n : Nat) : (d.setJ f i j v).le n = d.le n := rfl
@[simp] theorem Dev.modTx_get (d : Dev) (n : Nat) (g : LeTx → LeTx) (f : Fld) (i : Nat) : (d.modTx n g).get f i = d.get f i := rfl
@[simp] theorem Dev.modRx_get (d : Dev) (n : Nat) (g : LeRx → LeRx) (f : Fld) (i : Nat) : (d.modRx n g).get f i = d.get f i := rfl
@[simp] theorem Dev.modFec_get (d : Dev) (n : Nat) (g : LeFec → LeFec) (f : Fld) (i : Nat) : (d.modFec n g).get f i = d.get f i := rfl
@[simp] theorem Dev.modFrm_get (d : Dev) (n : Nat) (g : Frm → Frm) (f : Fld) (i : Nat) : (d.modFrm n g).get f i = d.get f i := rfl
@[simp] theorem Dev.modChm_get (d : Dev) (n : Nat) (g : LeChm → LeChm) (f : Fld) (i : Nat) : (d.modChm n g).get f i = d.get f i := rfl
@[simp] theorem Dev.le_modTx (d : Dev) (n : Nat) (g : LeTx → LeTx) : (d.modTx n g).le n = { d.le n with tx := g (d.le n).tx } := by
  simp [Dev.modTx]
@[simp] theorem Dev.le_modRx (d : Dev) (n : Nat) (g : LeRx → LeRx) : (d.modRx n g).le n = { d.le n with rx := g (d.le n).rx } := by
  simp [Dev.modRx]
@[simp] theorem Dev.le_modFec (d : Dev) (n : Nat) (g : LeFec → LeFec) : (d.modFec n g).le n = { d.le n with fec := g (d.le n).fec } := by
  simp [Dev.modFec]
@[simp] theorem Dev.le_modFrm (d : Dev) (n : Nat) (g : Frm → Frm) : (d.modFrm n g).le n = { d.le n with frm := g (d.le n).frm } := by
  simp [Dev.modFrm]
@[simp] theorem Dev.le_modChm (d : Dev) (n : Nat) (g : LeChm → LeChm) : (d.modChm n g).le n = { d.le n with chm := g (d.le n).chm } := by
  simp [Dev.modChm]

/-! ### The machine with its device replaced -/

@[simp] theorem State.withDev_dev (s : State) (d : Dev) : (s.withDev d).dev = d := rfl
@[simp] theorem State.withDev_mem (s : State) (d : Dev) : (s.withDev d).mem = s.mem := rfl
@[simp] theorem State.withDev_pending (s : State) (d : Dev) : (s.withDev d).pending = s.pending := rfl

end Sys2Proof.Machine
end

