-- ==== Sys2Proof/Laws/Parts.lean ====
section
/-! SUPPORT. Changes of one block's state leave registers, tables and every other block's state alone. -/

namespace Sys2Proof.Machine

/-! ### `modFmx` -/

@[simp] theorem Dev.modFmx_regs (d : Dev) (f : Fmx → Fmx) : (d.modFmx f).regs = d.regs := rfl
@[simp] theorem Dev.modFmx_tabs (d : Dev) (f : Fmx → Fmx) : (d.modFmx f).tabs = d.tabs := rfl
@[simp] theorem Dev.modFmx_frozen (d : Dev) (f : Fmx → Fmx) : (d.modFmx f).frozen = d.frozen := rfl
@[simp] theorem Dev.modFmx_latch (d : Dev) (f : Fmx → Fmx) : (d.modFmx f).latch = d.latch := rfl
@[simp] theorem Dev.modFmx_readData (d : Dev) (f : Fmx → Fmx) : (d.modFmx f).readData = d.readData := rfl
@[simp] theorem Dev.modFmx_now (d : Dev) (f : Fmx → Fmx) : (d.modFmx f).now = d.now := rfl
@[simp] theorem Dev.modFmx_locked (d : Dev) (f : Fmx → Fmx) : (d.modFmx f).locked = d.locked := rfl
@[simp] theorem Dev.modFmx_dt (d : Dev) (f : Fmx → Fmx) : (d.modFmx f).dt = d.dt := rfl
@[simp] theorem Dev.modFmx_lockAt (d : Dev) (f : Fmx → Fmx) : (d.modFmx f).lockAt = d.lockAt := rfl
@[simp] theorem Dev.modFmx_incr (d : Dev) (f : Fmx → Fmx) : (d.modFmx f).incr = d.incr := rfl
@[simp] theorem Dev.modFmx_tgrid (d : Dev) (f : Fmx → Fmx) : (d.modFmx f).tgrid = d.tgrid := rfl
@[simp] theorem Dev.modFmx_grid (d : Dev) (f : Fmx → Fmx) : (d.modFmx f).grid = d.grid := rfl
@[simp] theorem Dev.modFmx_gnum (d : Dev) (f : Fmx → Fmx) : (d.modFmx f).gnum = d.gnum := rfl
@[simp] theorem Dev.modFmx_nextGalley (d : Dev) (f : Fmx → Fmx) : (d.modFmx f).nextGalley = d.nextGalley := rfl
@[simp] theorem Dev.modFmx_galleys (d : Dev) (f : Fmx → Fmx) : (d.modFmx f).galleys = d.galleys := rfl
@[simp] theorem Dev.modFmx_formes (d : Dev) (f : Fmx → Fmx) : (d.modFmx f).formes = d.formes := rfl
@[simp] theorem Dev.modFmx_power (d : Dev) (f : Fmx → Fmx) : (d.modFmx f).power = d.power := rfl
@[simp] theorem Dev.modFmx_arb (d : Dev) (f : Fmx → Fmx) : (d.modFmx f).arb = d.arb := rfl
@[simp] theorem Dev.modFmx_host (d : Dev) (f : Fmx → Fmx) : (d.modFmx f).host = d.host := rfl
@[simp] theorem Dev.modFmx_msix (d : Dev) (f : Fmx → Fmx) : (d.modFmx f).msix = d.msix := rfl
@[simp] theorem Dev.modFmx_vec (d : Dev) (f : Fmx → Fmx) : (d.modFmx f).vec = d.vec := rfl
@[simp] theorem Dev.modFmx_queues (d : Dev) (f : Fmx → Fmx) : (d.modFmx f).queues = d.queues := rfl
@[simp] theorem Dev.modFmx_snaps (d : Dev) (f : Fmx → Fmx) : (d.modFmx f).snaps = d.snaps := rfl
@[simp] theorem Dev.modFmx_cap (d : Dev) (f : Fmx → Fmx) : (d.modFmx f).cap = d.cap := rfl
@[simp] theorem Dev.modFmx_fuse (d : Dev) (f : Fmx → Fmx) : (d.modFmx f).fuse = d.fuse := rfl
@[simp] theorem Dev.modFmx_pins (d : Dev) (f : Fmx → Fmx) : (d.modFmx f).pins = d.pins := rfl
@[simp] theorem Dev.modFmx_ret (d : Dev) (f : Fmx → Fmx) : (d.modFmx f).ret = d.ret := rfl
@[simp] theorem Dev.modFmx_lim (d : Dev) (f : Fmx → Fmx) : (d.modFmx f).lim = d.lim := rfl
@[simp] theorem Dev.modFmx_les (d : Dev) (f : Fmx → Fmx) : (d.modFmx f).les = d.les := rfl
@[simp] theorem Dev.modFmx_fmx (d : Dev) (f : Fmx → Fmx) : (d.modFmx f).fmx = f d.fmx := rfl
@[simp] theorem Dev.modFmx_grps (d : Dev) (f : Fmx → Fmx) : (d.modFmx f).grps = d.grps := rfl
@[simp] theorem Dev.modFmx_path (d : Dev) (f : Fmx → Fmx) : (d.modFmx f).path = d.path := rfl
@[simp] theorem Dev.modFmx_tym (d : Dev) (f : Fmx → Fmx) : (d.modFmx f).tym = d.tym := rfl
@[simp] theorem Dev.modFmx_vault (d : Dev) (f : Fmx → Fmx) : (d.modFmx f).vault = d.vault := rfl
@[simp] theorem Dev.modFmx_trust (d : Dev) (f : Fmx → Fmx) : (d.modFmx f).trust = d.trust := rfl
@[simp] theorem Dev.modFmx_calRun (d : Dev) (f : Fmx → Fmx) : (d.modFmx f).calRun = d.calRun := rfl
@[simp] theorem Dev.modFmx_mon (d : Dev) (f : Fmx → Fmx) : (d.modFmx f).mon = d.mon := rfl
@[simp] theorem Dev.modFmx_ecc (d : Dev) (f : Fmx → Fmx) : (d.modFmx f).ecc = d.ecc := rfl
@[simp] theorem Dev.modFmx_chime (d : Dev) (f : Fmx → Fmx) : (d.modFmx f).chime = d.chime := rfl
@[simp] theorem Dev.modFmx_pmClock (d : Dev) (f : Fmx → Fmx) : (d.modFmx f).pmClock = d.pmClock := rfl
@[simp] theorem Dev.modFmx_flowPm (d : Dev) (f : Fmx → Fmx) : (d.modFmx f).flowPm = d.flowPm := rfl
@[simp] theorem Dev.modFmx_flowDef (d : Dev) (f : Fmx → Fmx) : (d.modFmx f).flowDef = d.flowDef := rfl
@[simp] theorem Dev.modFmx_free (d : Dev) (f : Fmx → Fmx) : (d.modFmx f).free = d.free := rfl
@[simp] theorem Dev.modFmx_get (d : Dev) (f : Fmx → Fmx) (r : Fld) (i : Nat) : (d.modFmx f).get r i = d.get r i := rfl
@[simp] theorem Dev.modFmx_getJ (d : Dev) (f : Fmx → Fmx) (r : Fld) (i j : Nat) : (d.modFmx f).getJ r i j = d.getJ r i j := rfl
@[simp] theorem Dev.modFmx_flag (d : Dev) (f : Fmx → Fmx) (r : Fld) (i : Nat) : (d.modFmx f).flag r i = d.flag r i := rfl
@[simp] theorem Dev.modFmx_le (d : Dev) (f : Fmx → Fmx) (n : Nat) : (d.modFmx f).le n = d.le n := rfl

/-! ### `modEcc` -/

@[simp] theorem Dev.modEcc_regs (d : Dev) (f : Ecc → Ecc) : (d.modEcc f).regs = d.regs := rfl
@[simp] theorem Dev.modEcc_tabs (d : Dev) (f : Ecc → Ecc) : (d.modEcc f).tabs = d.tabs := rfl
@[simp] theorem Dev.modEcc_frozen (d : Dev) (f : Ecc → Ecc) : (d.modEcc f).frozen = d.frozen := rfl
@[simp] theorem Dev.modEcc_latch (d : Dev) (f : Ecc → Ecc) : (d.modEcc f).latch = d.latch := rfl
@[simp] theorem Dev.modEcc_readData (d : Dev) (f : Ecc → Ecc) : (d.modEcc f).readData = d.readData := rfl
@[simp] theorem Dev.modEcc_now (d : Dev) (f : Ecc → Ecc) : (d.modEcc f).now = d.now := rfl
@[simp] theorem Dev.modEcc_locked (d : Dev) (f : Ecc → Ecc) : (d.modEcc f).locked = d.locked := rfl
@[simp] theorem Dev.modEcc_dt (d : Dev) (f : Ecc → Ecc) : (d.modEcc f).dt = d.dt := rfl
@[simp] theorem Dev.modEcc_lockAt (d : Dev) (f : Ecc → Ecc) : (d.modEcc f).lockAt = d.lockAt := rfl
@[simp] theorem Dev.modEcc_incr (d : Dev) (f : Ecc → Ecc) : (d.modEcc f).incr = d.incr := rfl
@[simp] theorem Dev.modEcc_tgrid (d : Dev) (f : Ecc → Ecc) : (d.modEcc f).tgrid = d.tgrid := rfl
@[simp] theorem Dev.modEcc_grid (d : Dev) (f : Ecc → Ecc) : (d.modEcc f).grid = d.grid := rfl
@[simp] theorem Dev.modEcc_gnum (d : Dev) (f : Ecc → Ecc) : (d.modEcc f).gnum = d.gnum := rfl
@[simp] theorem Dev.modEcc_nextGalley (d : Dev) (f : Ecc → Ecc) : (d.modEcc f).nextGalley = d.nextGalley := rfl
@[simp] theorem Dev.modEcc_galleys (d : Dev) (f : Ecc → Ecc) : (d.modEcc f).galleys = d.galleys := rfl
@[simp] theorem Dev.modEcc_formes (d : Dev) (f : Ecc → Ecc) : (d.modEcc f).formes = d.formes := rfl
@[simp] theorem Dev.modEcc_power (d : Dev) (f : Ecc → Ecc) : (d.modEcc f).power = d.power := rfl
@[simp] theorem Dev.modEcc_arb (d : Dev) (f : Ecc → Ecc) : (d.modEcc f).arb = d.arb := rfl
@[simp] theorem Dev.modEcc_host (d : Dev) (f : Ecc → Ecc) : (d.modEcc f).host = d.host := rfl
@[simp] theorem Dev.modEcc_msix (d : Dev) (f : Ecc → Ecc) : (d.modEcc f).msix = d.msix := rfl
@[simp] theorem Dev.modEcc_vec (d : Dev) (f : Ecc → Ecc) : (d.modEcc f).vec = d.vec := rfl
@[simp] theorem Dev.modEcc_queues (d : Dev) (f : Ecc → Ecc) : (d.modEcc f).queues = d.queues := rfl
@[simp] theorem Dev.modEcc_snaps (d : Dev) (f : Ecc → Ecc) : (d.modEcc f).snaps = d.snaps := rfl
@[simp] theorem Dev.modEcc_cap (d : Dev) (f : Ecc → Ecc) : (d.modEcc f).cap = d.cap := rfl
@[simp] theorem Dev.modEcc_fuse (d : Dev) (f : Ecc → Ecc) : (d.modEcc f).fuse = d.fuse := rfl
@[simp] theorem Dev.modEcc_pins (d : Dev) (f : Ecc → Ecc) : (d.modEcc f).pins = d.pins := rfl
@[simp] theorem Dev.modEcc_ret (d : Dev) (f : Ecc → Ecc) : (d.modEcc f).ret = d.ret := rfl
@[simp] theorem Dev.modEcc_lim (d : Dev) (f : Ecc → Ecc) : (d.modEcc f).lim = d.lim := rfl
@[simp] theorem Dev.modEcc_les (d : Dev) (f : Ecc → Ecc) : (d.modEcc f).les = d.les := rfl
@[simp] theorem Dev.modEcc_fmx (d : Dev) (f : Ecc → Ecc) : (d.modEcc f).fmx = d.fmx := rfl
@[simp] theorem Dev.modEcc_grps (d : Dev) (f : Ecc → Ecc) : (d.modEcc f).grps = d.grps := rfl
@[simp] theorem Dev.modEcc_path (d : Dev) (f : Ecc → Ecc) : (d.modEcc f).path = d.path := rfl
@[simp] theorem Dev.modEcc_tym (d : Dev) (f : Ecc → Ecc) : (d.modEcc f).tym = d.tym := rfl
@[simp] theorem Dev.modEcc_vault (d : Dev) (f : Ecc → Ecc) : (d.modEcc f).vault = d.vault := rfl
@[simp] theorem Dev.modEcc_trust (d : Dev) (f : Ecc → Ecc) : (d.modEcc f).trust = d.trust := rfl
@[simp] theorem Dev.modEcc_calRun (d : Dev) (f : Ecc → Ecc) : (d.modEcc f).calRun = d.calRun := rfl
@[simp] theorem Dev.modEcc_mon (d : Dev) (f : Ecc → Ecc) : (d.modEcc f).mon = d.mon := rfl
@[simp] theorem Dev.modEcc_ecc (d : Dev) (f : Ecc → Ecc) : (d.modEcc f).ecc = f d.ecc := rfl
@[simp] theorem Dev.modEcc_chime (d : Dev) (f : Ecc → Ecc) : (d.modEcc f).chime = d.chime := rfl
@[simp] theorem Dev.modEcc_pmClock (d : Dev) (f : Ecc → Ecc) : (d.modEcc f).pmClock = d.pmClock := rfl
@[simp] theorem Dev.modEcc_flowPm (d : Dev) (f : Ecc → Ecc) : (d.modEcc f).flowPm = d.flowPm := rfl
@[simp] theorem Dev.modEcc_flowDef (d : Dev) (f : Ecc → Ecc) : (d.modEcc f).flowDef = d.flowDef := rfl
@[simp] theorem Dev.modEcc_free (d : Dev) (f : Ecc → Ecc) : (d.modEcc f).free = d.free := rfl
@[simp] theorem Dev.modEcc_get (d : Dev) (f : Ecc → Ecc) (r : Fld) (i : Nat) : (d.modEcc f).get r i = d.get r i := rfl
@[simp] theorem Dev.modEcc_getJ (d : Dev) (f : Ecc → Ecc) (r : Fld) (i j : Nat) : (d.modEcc f).getJ r i j = d.getJ r i j := rfl
@[simp] theorem Dev.modEcc_flag (d : Dev) (f : Ecc → Ecc) (r : Fld) (i : Nat) : (d.modEcc f).flag r i = d.flag r i := rfl
@[simp] theorem Dev.modEcc_le (d : Dev) (f : Ecc → Ecc) (n : Nat) : (d.modEcc f).le n = d.le n := rfl

/-! ### `modMon` -/

@[simp] theorem Dev.modMon_regs (d : Dev) (f : Mon → Mon) : (d.modMon f).regs = d.regs := rfl
@[simp] theorem Dev.modMon_tabs (d : Dev) (f : Mon → Mon) : (d.modMon f).tabs = d.tabs := rfl
@[simp] theorem Dev.modMon_frozen (d : Dev) (f : Mon → Mon) : (d.modMon f).frozen = d.frozen := rfl
@[simp] theorem Dev.modMon_latch (d : Dev) (f : Mon → Mon) : (d.modMon f).latch = d.latch := rfl
@[simp] theorem Dev.modMon_readData (d : Dev) (f : Mon → Mon) : (d.modMon f).readData = d.readData := rfl
@[simp] theorem Dev.modMon_now (d : Dev) (f : Mon → Mon) : (d.modMon f).now = d.now := rfl
@[simp] theorem Dev.modMon_locked (d : Dev) (f : Mon → Mon) : (d.modMon f).locked = d.locked := rfl
@[simp] theorem Dev.modMon_dt (d : Dev) (f : Mon → Mon) : (d.modMon f).dt = d.dt := rfl
@[simp] theorem Dev.modMon_lockAt (d : Dev) (f : Mon → Mon) : (d.modMon f).lockAt = d.lockAt := rfl
@[simp] theorem Dev.modMon_incr (d : Dev) (f : Mon → Mon) : (d.modMon f).incr = d.incr := rfl
@[simp] theorem Dev.modMon_tgrid (d : Dev) (f : Mon → Mon) : (d.modMon f).tgrid = d.tgrid := rfl
@[simp] theorem Dev.modMon_grid (d : Dev) (f : Mon → Mon) : (d.modMon f).grid = d.grid := rfl
@[simp] theorem Dev.modMon_gnum (d : Dev) (f : Mon → Mon) : (d.modMon f).gnum = d.gnum := rfl
@[simp] theorem Dev.modMon_nextGalley (d : Dev) (f : Mon → Mon) : (d.modMon f).nextGalley = d.nextGalley := rfl
@[simp] theorem Dev.modMon_galleys (d : Dev) (f : Mon → Mon) : (d.modMon f).galleys = d.galleys := rfl
@[simp] theorem Dev.modMon_formes (d : Dev) (f : Mon → Mon) : (d.modMon f).formes = d.formes := rfl
@[simp] theorem Dev.modMon_power (d : Dev) (f : Mon → Mon) : (d.modMon f).power = d.power := rfl
@[simp] theorem Dev.modMon_arb (d : Dev) (f : Mon → Mon) : (d.modMon f).arb = d.arb := rfl
@[simp] theorem Dev.modMon_host (d : Dev) (f : Mon → Mon) : (d.modMon f).host = d.host := rfl
@[simp] theorem Dev.modMon_msix (d : Dev) (f : Mon → Mon) : (d.modMon f).msix = d.msix := rfl
@[simp] theorem Dev.modMon_vec (d : Dev) (f : Mon → Mon) : (d.modMon f).vec = d.vec := rfl
@[simp] theorem Dev.modMon_queues (d : Dev) (f : Mon → Mon) : (d.modMon f).queues = d.queues := rfl
@[simp] theorem Dev.modMon_snaps (d : Dev) (f : Mon → Mon) : (d.modMon f).snaps = d.snaps := rfl
@[simp] theorem Dev.modMon_cap (d : Dev) (f : Mon → Mon) : (d.modMon f).cap = d.cap := rfl
@[simp] theorem Dev.modMon_fuse (d : Dev) (f : Mon → Mon) : (d.modMon f).fuse = d.fuse := rfl
@[simp] theorem Dev.modMon_pins (d : Dev) (f : Mon → Mon) : (d.modMon f).pins = d.pins := rfl
@[simp] theorem Dev.modMon_ret (d : Dev) (f : Mon → Mon) : (d.modMon f).ret = d.ret := rfl
@[simp] theorem Dev.modMon_lim (d : Dev) (f : Mon → Mon) : (d.modMon f).lim = d.lim := rfl
@[simp] theorem Dev.modMon_les (d : Dev) (f : Mon → Mon) : (d.modMon f).les = d.les := rfl
@[simp] theorem Dev.modMon_fmx (d : Dev) (f : Mon → Mon) : (d.modMon f).fmx = d.fmx := rfl
@[simp] theorem Dev.modMon_grps (d : Dev) (f : Mon → Mon) : (d.modMon f).grps = d.grps := rfl
@[simp] theorem Dev.modMon_path (d : Dev) (f : Mon → Mon) : (d.modMon f).path = d.path := rfl
@[simp] theorem Dev.modMon_tym (d : Dev) (f : Mon → Mon) : (d.modMon f).tym = d.tym := rfl
@[simp] theorem Dev.modMon_vault (d : Dev) (f : Mon → Mon) : (d.modMon f).vault = d.vault := rfl
@[simp] theorem Dev.modMon_trust (d : Dev) (f : Mon → Mon) : (d.modMon f).trust = d.trust := rfl
@[simp] theorem Dev.modMon_calRun (d : Dev) (f : Mon → Mon) : (d.modMon f).calRun = d.calRun := rfl
@[simp] theorem Dev.modMon_mon (d : Dev) (f : Mon → Mon) : (d.modMon f).mon = f d.mon := rfl
@[simp] theorem Dev.modMon_ecc (d : Dev) (f : Mon → Mon) : (d.modMon f).ecc = d.ecc := rfl
@[simp] theorem Dev.modMon_chime (d : Dev) (f : Mon → Mon) : (d.modMon f).chime = d.chime := rfl
@[simp] theorem Dev.modMon_pmClock (d : Dev) (f : Mon → Mon) : (d.modMon f).pmClock = d.pmClock := rfl
@[simp] theorem Dev.modMon_flowPm (d : Dev) (f : Mon → Mon) : (d.modMon f).flowPm = d.flowPm := rfl
@[simp] theorem Dev.modMon_flowDef (d : Dev) (f : Mon → Mon) : (d.modMon f).flowDef = d.flowDef := rfl
@[simp] theorem Dev.modMon_free (d : Dev) (f : Mon → Mon) : (d.modMon f).free = d.free := rfl
@[simp] theorem Dev.modMon_get (d : Dev) (f : Mon → Mon) (r : Fld) (i : Nat) : (d.modMon f).get r i = d.get r i := rfl
@[simp] theorem Dev.modMon_getJ (d : Dev) (f : Mon → Mon) (r : Fld) (i j : Nat) : (d.modMon f).getJ r i j = d.getJ r i j := rfl
@[simp] theorem Dev.modMon_flag (d : Dev) (f : Mon → Mon) (r : Fld) (i : Nat) : (d.modMon f).flag r i = d.flag r i := rfl
@[simp] theorem Dev.modMon_le (d : Dev) (f : Mon → Mon) (n : Nat) : (d.modMon f).le n = d.le n := rfl

/-! ### `modPath` -/

@[simp] theorem Dev.modPath_regs (d : Dev) (f : CellPath → CellPath) : (d.modPath f).regs = d.regs := rfl
@[simp] theorem Dev.modPath_tabs (d : Dev) (f : CellPath → CellPath) : (d.modPath f).tabs = d.tabs := rfl
@[simp] theorem Dev.modPath_frozen (d : Dev) (f : CellPath → CellPath) : (d.modPath f).frozen = d.frozen := rfl
@[simp] theorem Dev.modPath_latch (d : Dev) (f : CellPath → CellPath) : (d.modPath f).latch = d.latch := rfl
@[simp] theorem Dev.modPath_readData (d : Dev) (f : CellPath → CellPath) : (d.modPath f).readData = d.readData := rfl
@[simp] theorem Dev.modPath_now (d : Dev) (f : CellPath → CellPath) : (d.modPath f).now = d.now := rfl
@[simp] theorem Dev.modPath_locked (d : Dev) (f : CellPath → CellPath) : (d.modPath f).locked = d.locked := rfl
@[simp] theorem Dev.modPath_dt (d : Dev) (f : CellPath → CellPath) : (d.modPath f).dt = d.dt := rfl
@[simp] theorem Dev.modPath_lockAt (d : Dev) (f : CellPath → CellPath) : (d.modPath f).lockAt = d.lockAt := rfl
@[simp] theorem Dev.modPath_incr (d : Dev) (f : CellPath → CellPath) : (d.modPath f).incr = d.incr := rfl
@[simp] theorem Dev.modPath_tgrid (d : Dev) (f : CellPath → CellPath) : (d.modPath f).tgrid = d.tgrid := rfl
@[simp] theorem Dev.modPath_grid (d : Dev) (f : CellPath → CellPath) : (d.modPath f).grid = d.grid := rfl
@[simp] theorem Dev.modPath_gnum (d : Dev) (f : CellPath → CellPath) : (d.modPath f).gnum = d.gnum := rfl
@[simp] theorem Dev.modPath_nextGalley (d : Dev) (f : CellPath → CellPath) : (d.modPath f).nextGalley = d.nextGalley := rfl
@[simp] theorem Dev.modPath_galleys (d : Dev) (f : CellPath → CellPath) : (d.modPath f).galleys = d.galleys := rfl
@[simp] theorem Dev.modPath_formes (d : Dev) (f : CellPath → CellPath) : (d.modPath f).formes = d.formes := rfl
@[simp] theorem Dev.modPath_power (d : Dev) (f : CellPath → CellPath) : (d.modPath f).power = d.power := rfl
@[simp] theorem Dev.modPath_arb (d : Dev) (f : CellPath → CellPath) : (d.modPath f).arb = d.arb := rfl
@[simp] theorem Dev.modPath_host (d : Dev) (f : CellPath → CellPath) : (d.modPath f).host = d.host := rfl
@[simp] theorem Dev.modPath_msix (d : Dev) (f : CellPath → CellPath) : (d.modPath f).msix = d.msix := rfl
@[simp] theorem Dev.modPath_vec (d : Dev) (f : CellPath → CellPath) : (d.modPath f).vec = d.vec := rfl
@[simp] theorem Dev.modPath_queues (d : Dev) (f : CellPath → CellPath) : (d.modPath f).queues = d.queues := rfl
@[simp] theorem Dev.modPath_snaps (d : Dev) (f : CellPath → CellPath) : (d.modPath f).snaps = d.snaps := rfl
@[simp] theorem Dev.modPath_cap (d : Dev) (f : CellPath → CellPath) : (d.modPath f).cap = d.cap := rfl
@[simp] theorem Dev.modPath_fuse (d : Dev) (f : CellPath → CellPath) : (d.modPath f).fuse = d.fuse := rfl
@[simp] theorem Dev.modPath_pins (d : Dev) (f : CellPath → CellPath) : (d.modPath f).pins = d.pins := rfl
@[simp] theorem Dev.modPath_ret (d : Dev) (f : CellPath → CellPath) : (d.modPath f).ret = d.ret := rfl
@[simp] theorem Dev.modPath_lim (d : Dev) (f : CellPath → CellPath) : (d.modPath f).lim = d.lim := rfl
@[simp] theorem Dev.modPath_les (d : Dev) (f : CellPath → CellPath) : (d.modPath f).les = d.les := rfl
@[simp] theorem Dev.modPath_fmx (d : Dev) (f : CellPath → CellPath) : (d.modPath f).fmx = d.fmx := rfl
@[simp] theorem Dev.modPath_grps (d : Dev) (f : CellPath → CellPath) : (d.modPath f).grps = d.grps := rfl
@[simp] theorem Dev.modPath_path (d : Dev) (f : CellPath → CellPath) : (d.modPath f).path = f d.path := rfl
@[simp] theorem Dev.modPath_tym (d : Dev) (f : CellPath → CellPath) : (d.modPath f).tym = d.tym := rfl
@[simp] theorem Dev.modPath_vault (d : Dev) (f : CellPath → CellPath) : (d.modPath f).vault = d.vault := rfl
@[simp] theorem Dev.modPath_trust (d : Dev) (f : CellPath → CellPath) : (d.modPath f).trust = d.trust := rfl
@[simp] theorem Dev.modPath_calRun (d : Dev) (f : CellPath → CellPath) : (d.modPath f).calRun = d.calRun := rfl
@[simp] theorem Dev.modPath_mon (d : Dev) (f : CellPath → CellPath) : (d.modPath f).mon = d.mon := rfl
@[simp] theorem Dev.modPath_ecc (d : Dev) (f : CellPath → CellPath) : (d.modPath f).ecc = d.ecc := rfl
@[simp] theorem Dev.modPath_chime (d : Dev) (f : CellPath → CellPath) : (d.modPath f).chime = d.chime := rfl
@[simp] theorem Dev.modPath_pmClock (d : Dev) (f : CellPath → CellPath) : (d.modPath f).pmClock = d.pmClock := rfl
@[simp] theorem Dev.modPath_flowPm (d : Dev) (f : CellPath → CellPath) : (d.modPath f).flowPm = d.flowPm := rfl
@[simp] theorem Dev.modPath_flowDef (d : Dev) (f : CellPath → CellPath) : (d.modPath f).flowDef = d.flowDef := rfl
@[simp] theorem Dev.modPath_free (d : Dev) (f : CellPath → CellPath) : (d.modPath f).free = d.free := rfl
@[simp] theorem Dev.modPath_get (d : Dev) (f : CellPath → CellPath) (r : Fld) (i : Nat) : (d.modPath f).get r i = d.get r i := rfl
@[simp] theorem Dev.modPath_getJ (d : Dev) (f : CellPath → CellPath) (r : Fld) (i j : Nat) : (d.modPath f).getJ r i j = d.getJ r i j := rfl
@[simp] theorem Dev.modPath_flag (d : Dev) (f : CellPath → CellPath) (r : Fld) (i : Nat) : (d.modPath f).flag r i = d.flag r i := rfl
@[simp] theorem Dev.modPath_le (d : Dev) (f : CellPath → CellPath) (n : Nat) : (d.modPath f).le n = d.le n := rfl

/-! ### `modTym` -/

@[simp] theorem Dev.modTym_regs (d : Dev) (f : Tym → Tym) : (d.modTym f).regs = d.regs := rfl
@[simp] theorem Dev.modTym_tabs (d : Dev) (f : Tym → Tym) : (d.modTym f).tabs = d.tabs := rfl
@[simp] theorem Dev.modTym_frozen (d : Dev) (f : Tym → Tym) : (d.modTym f).frozen = d.frozen := rfl
@[simp] theorem Dev.modTym_latch (d : Dev) (f : Tym → Tym) : (d.modTym f).latch = d.latch := rfl
@[simp] theorem Dev.modTym_readData (d : Dev) (f : Tym → Tym) : (d.modTym f).readData = d.readData := rfl
@[simp] theorem Dev.modTym_now (d : Dev) (f : Tym → Tym) : (d.modTym f).now = d.now := rfl
@[simp] theorem Dev.modTym_locked (d : Dev) (f : Tym → Tym) : (d.modTym f).locked = d.locked := rfl
@[simp] theorem Dev.modTym_dt (d : Dev) (f : Tym → Tym) : (d.modTym f).dt = d.dt := rfl
@[simp] theorem Dev.modTym_lockAt (d : Dev) (f : Tym → Tym) : (d.modTym f).lockAt = d.lockAt := rfl
@[simp] theorem Dev.modTym_incr (d : Dev) (f : Tym → Tym) : (d.modTym f).incr = d.incr := rfl
@[simp] theorem Dev.modTym_tgrid (d : Dev) (f : Tym → Tym) : (d.modTym f).tgrid = d.tgrid := rfl
@[simp] theorem Dev.modTym_grid (d : Dev) (f : Tym → Tym) : (d.modTym f).grid = d.grid := rfl
@[simp] theorem Dev.modTym_gnum (d : Dev) (f : Tym → Tym) : (d.modTym f).gnum = d.gnum := rfl
@[simp] theorem Dev.modTym_nextGalley (d : Dev) (f : Tym → Tym) : (d.modTym f).nextGalley = d.nextGalley := rfl
@[simp] theorem Dev.modTym_galleys (d : Dev) (f : Tym → Tym) : (d.modTym f).galleys = d.galleys := rfl
@[simp] theorem Dev.modTym_formes (d : Dev) (f : Tym → Tym) : (d.modTym f).formes = d.formes := rfl
@[simp] theorem Dev.modTym_power (d : Dev) (f : Tym → Tym) : (d.modTym f).power = d.power := rfl
@[simp] theorem Dev.modTym_arb (d : Dev) (f : Tym → Tym) : (d.modTym f).arb = d.arb := rfl
@[simp] theorem Dev.modTym_host (d : Dev) (f : Tym → Tym) : (d.modTym f).host = d.host := rfl
@[simp] theorem Dev.modTym_msix (d : Dev) (f : Tym → Tym) : (d.modTym f).msix = d.msix := rfl
@[simp] theorem Dev.modTym_vec (d : Dev) (f : Tym → Tym) : (d.modTym f).vec = d.vec := rfl
@[simp] theorem Dev.modTym_queues (d : Dev) (f : Tym → Tym) : (d.modTym f).queues = d.queues := rfl
@[simp] theorem Dev.modTym_snaps (d : Dev) (f : Tym → Tym) : (d.modTym f).snaps = d.snaps := rfl
@[simp] theorem Dev.modTym_cap (d : Dev) (f : Tym → Tym) : (d.modTym f).cap = d.cap := rfl
@[simp] theorem Dev.modTym_fuse (d : Dev) (f : Tym → Tym) : (d.modTym f).fuse = d.fuse := rfl
@[simp] theorem Dev.modTym_pins (d : Dev) (f : Tym → Tym) : (d.modTym f).pins = d.pins := rfl
@[simp] theorem Dev.modTym_ret (d : Dev) (f : Tym → Tym) : (d.modTym f).ret = d.ret := rfl
@[simp] theorem Dev.modTym_lim (d : Dev) (f : Tym → Tym) : (d.modTym f).lim = d.lim := rfl
@[simp] theorem Dev.modTym_les (d : Dev) (f : Tym → Tym) : (d.modTym f).les = d.les := rfl
@[simp] theorem Dev.modTym_fmx (d : Dev) (f : Tym → Tym) : (d.modTym f).fmx = d.fmx := rfl
@[simp] theorem Dev.modTym_grps (d : Dev) (f : Tym → Tym) : (d.modTym f).grps = d.grps := rfl
@[simp] theorem Dev.modTym_path (d : Dev) (f : Tym → Tym) : (d.modTym f).path = d.path := rfl
@[simp] theorem Dev.modTym_tym (d : Dev) (f : Tym → Tym) : (d.modTym f).tym = f d.tym := rfl
@[simp] theorem Dev.modTym_vault (d : Dev) (f : Tym → Tym) : (d.modTym f).vault = d.vault := rfl
@[simp] theorem Dev.modTym_trust (d : Dev) (f : Tym → Tym) : (d.modTym f).trust = d.trust := rfl
@[simp] theorem Dev.modTym_calRun (d : Dev) (f : Tym → Tym) : (d.modTym f).calRun = d.calRun := rfl
@[simp] theorem Dev.modTym_mon (d : Dev) (f : Tym → Tym) : (d.modTym f).mon = d.mon := rfl
@[simp] theorem Dev.modTym_ecc (d : Dev) (f : Tym → Tym) : (d.modTym f).ecc = d.ecc := rfl
@[simp] theorem Dev.modTym_chime (d : Dev) (f : Tym → Tym) : (d.modTym f).chime = d.chime := rfl
@[simp] theorem Dev.modTym_pmClock (d : Dev) (f : Tym → Tym) : (d.modTym f).pmClock = d.pmClock := rfl
@[simp] theorem Dev.modTym_flowPm (d : Dev) (f : Tym → Tym) : (d.modTym f).flowPm = d.flowPm := rfl
@[simp] theorem Dev.modTym_flowDef (d : Dev) (f : Tym → Tym) : (d.modTym f).flowDef = d.flowDef := rfl
@[simp] theorem Dev.modTym_free (d : Dev) (f : Tym → Tym) : (d.modTym f).free = d.free := rfl
@[simp] theorem Dev.modTym_get (d : Dev) (f : Tym → Tym) (r : Fld) (i : Nat) : (d.modTym f).get r i = d.get r i := rfl
@[simp] theorem Dev.modTym_getJ (d : Dev) (f : Tym → Tym) (r : Fld) (i j : Nat) : (d.modTym f).getJ r i j = d.getJ r i j := rfl
@[simp] theorem Dev.modTym_flag (d : Dev) (f : Tym → Tym) (r : Fld) (i : Nat) : (d.modTym f).flag r i = d.flag r i := rfl
@[simp] theorem Dev.modTym_le (d : Dev) (f : Tym → Tym) (n : Nat) : (d.modTym f).le n = d.le n := rfl

/-! ### `modVault` -/

@[simp] theorem Dev.modVault_regs (d : Dev) (f : Car → Car) : (d.modVault f).regs = d.regs := rfl
@[simp] theorem Dev.modVault_tabs (d : Dev) (f : Car → Car) : (d.modVault f).tabs = d.tabs := rfl
@[simp] theorem Dev.modVault_frozen (d : Dev) (f : Car → Car) : (d.modVault f).frozen = d.frozen := rfl
@[simp] theorem Dev.modVault_latch (d : Dev) (f : Car → Car) : (d.modVault f).latch = d.latch := rfl
@[simp] theorem Dev.modVault_readData (d : Dev) (f : Car → Car) : (d.modVault f).readData = d.readData := rfl
@[simp] theorem Dev.modVault_now (d : Dev) (f : Car → Car) : (d.modVault f).now = d.now := rfl
@[simp] theorem Dev.modVault_locked (d : Dev) (f : Car → Car) : (d.modVault f).locked = d.locked := rfl
@[simp] theorem Dev.modVault_dt (d : Dev) (f : Car → Car) : (d.modVault f).dt = d.dt := rfl
@[simp] theorem Dev.modVault_lockAt (d : Dev) (f : Car → Car) : (d.modVault f).lockAt = d.lockAt := rfl
@[simp] theorem Dev.modVault_incr (d : Dev) (f : Car → Car) : (d.modVault f).incr = d.incr := rfl
@[simp] theorem Dev.modVault_tgrid (d : Dev) (f : Car → Car) : (d.modVault f).tgrid = d.tgrid := rfl
@[simp] theorem Dev.modVault_grid (d : Dev) (f : Car → Car) : (d.modVault f).grid = d.grid := rfl
@[simp] theorem Dev.modVault_gnum (d : Dev) (f : Car → Car) : (d.modVault f).gnum = d.gnum := rfl
@[simp] theorem Dev.modVault_nextGalley (d : Dev) (f : Car → Car) : (d.modVault f).nextGalley = d.nextGalley := rfl
@[simp] theorem Dev.modVault_galleys (d : Dev) (f : Car → Car) : (d.modVault f).galleys = d.galleys := rfl
@[simp] theorem Dev.modVault_formes (d : Dev) (f : Car → Car) : (d.modVault f).formes = d.formes := rfl
@[simp] theorem Dev.modVault_power (d : Dev) (f : Car → Car) : (d.modVault f).power = d.power := rfl
@[simp] theorem Dev.modVault_arb (d : Dev) (f : Car → Car) : (d.modVault f).arb = d.arb := rfl
@[simp] theorem Dev.modVault_host (d : Dev) (f : Car → Car) : (d.modVault f).host = d.host := rfl
@[simp] theorem Dev.modVault_msix (d : Dev) (f : Car → Car) : (d.modVault f).msix = d.msix := rfl
@[simp] theorem Dev.modVault_vec (d : Dev) (f : Car → Car) : (d.modVault f).vec = d.vec := rfl
@[simp] theorem Dev.modVault_queues (d : Dev) (f : Car → Car) : (d.modVault f).queues = d.queues := rfl
@[simp] theorem Dev.modVault_snaps (d : Dev) (f : Car → Car) : (d.modVault f).snaps = d.snaps := rfl
@[simp] theorem Dev.modVault_cap (d : Dev) (f : Car → Car) : (d.modVault f).cap = d.cap := rfl
@[simp] theorem Dev.modVault_fuse (d : Dev) (f : Car → Car) : (d.modVault f).fuse = d.fuse := rfl
@[simp] theorem Dev.modVault_pins (d : Dev) (f : Car → Car) : (d.modVault f).pins = d.pins := rfl
@[simp] theorem Dev.modVault_ret (d : Dev) (f : Car → Car) : (d.modVault f).ret = d.ret := rfl
@[simp] theorem Dev.modVault_lim (d : Dev) (f : Car → Car) : (d.modVault f).lim = d.lim := rfl
@[simp] theorem Dev.modVault_les (d : Dev) (f : Car → Car) : (d.modVault f).les = d.les := rfl
@[simp] theorem Dev.modVault_fmx (d : Dev) (f : Car → Car) : (d.modVault f).fmx = d.fmx := rfl
@[simp] theorem Dev.modVault_grps (d : Dev) (f : Car → Car) : (d.modVault f).grps = d.grps := rfl
@[simp] theorem Dev.modVault_path (d : Dev) (f : Car → Car) : (d.modVault f).path = d.path := rfl
@[simp] theorem Dev.modVault_tym (d : Dev) (f : Car → Car) : (d.modVault f).tym = d.tym := rfl
@[simp] theorem Dev.modVault_vault (d : Dev) (f : Car → Car) : (d.modVault f).vault = f d.vault := rfl
@[simp] theorem Dev.modVault_trust (d : Dev) (f : Car → Car) : (d.modVault f).trust = d.trust := rfl
@[simp] theorem Dev.modVault_calRun (d : Dev) (f : Car → Car) : (d.modVault f).calRun = d.calRun := rfl
@[simp] theorem Dev.modVault_mon (d : Dev) (f : Car → Car) : (d.modVault f).mon = d.mon := rfl
@[simp] theorem Dev.modVault_ecc (d : Dev) (f : Car → Car) : (d.modVault f).ecc = d.ecc := rfl
@[simp] theorem Dev.modVault_chime (d : Dev) (f : Car → Car) : (d.modVault f).chime = d.chime := rfl
@[simp] theorem Dev.modVault_pmClock (d : Dev) (f : Car → Car) : (d.modVault f).pmClock = d.pmClock := rfl
@[simp] theorem Dev.modVault_flowPm (d : Dev) (f : Car → Car) : (d.modVault f).flowPm = d.flowPm := rfl
@[simp] theorem Dev.modVault_flowDef (d : Dev) (f : Car → Car) : (d.modVault f).flowDef = d.flowDef := rfl
@[simp] theorem Dev.modVault_free (d : Dev) (f : Car → Car) : (d.modVault f).free = d.free := rfl
@[simp] theorem Dev.modVault_get (d : Dev) (f : Car → Car) (r : Fld) (i : Nat) : (d.modVault f).get r i = d.get r i := rfl
@[simp] theorem Dev.modVault_getJ (d : Dev) (f : Car → Car) (r : Fld) (i j : Nat) : (d.modVault f).getJ r i j = d.getJ r i j := rfl
@[simp] theorem Dev.modVault_flag (d : Dev) (f : Car → Car) (r : Fld) (i : Nat) : (d.modVault f).flag r i = d.flag r i := rfl
@[simp] theorem Dev.modVault_le (d : Dev) (f : Car → Car) (n : Nat) : (d.modVault f).le n = d.le n := rfl

/-! ### `modTrust` -/

@[simp] theorem Dev.modTrust_regs (d : Dev) (f : Trust → Trust) : (d.modTrust f).regs = d.regs := rfl
@[simp] theorem Dev.modTrust_tabs (d : Dev) (f : Trust → Trust) : (d.modTrust f).tabs = d.tabs := rfl
@[simp] theorem Dev.modTrust_frozen (d : Dev) (f : Trust → Trust) : (d.modTrust f).frozen = d.frozen := rfl
@[simp] theorem Dev.modTrust_latch (d : Dev) (f : Trust → Trust) : (d.modTrust f).latch = d.latch := rfl
@[simp] theorem Dev.modTrust_readData (d : Dev) (f : Trust → Trust) : (d.modTrust f).readData = d.readData := rfl
@[simp] theorem Dev.modTrust_now (d : Dev) (f : Trust → Trust) : (d.modTrust f).now = d.now := rfl
@[simp] theorem Dev.modTrust_locked (d : Dev) (f : Trust → Trust) : (d.modTrust f).locked = d.locked := rfl
@[simp] theorem Dev.modTrust_dt (d : Dev) (f : Trust → Trust) : (d.modTrust f).dt = d.dt := rfl
@[simp] theorem Dev.modTrust_lockAt (d : Dev) (f : Trust → Trust) : (d.modTrust f).lockAt = d.lockAt := rfl
@[simp] theorem Dev.modTrust_incr (d : Dev) (f : Trust → Trust) : (d.modTrust f).incr = d.incr := rfl
@[simp] theorem Dev.modTrust_tgrid (d : Dev) (f : Trust → Trust) : (d.modTrust f).tgrid = d.tgrid := rfl
@[simp] theorem Dev.modTrust_grid (d : Dev) (f : Trust → Trust) : (d.modTrust f).grid = d.grid := rfl
@[simp] theorem Dev.modTrust_gnum (d : Dev) (f : Trust → Trust) : (d.modTrust f).gnum = d.gnum := rfl
@[simp] theorem Dev.modTrust_nextGalley (d : Dev) (f : Trust → Trust) : (d.modTrust f).nextGalley = d.nextGalley := rfl
@[simp] theorem Dev.modTrust_galleys (d : Dev) (f : Trust → Trust) : (d.modTrust f).galleys = d.galleys := rfl
@[simp] theorem Dev.modTrust_formes (d : Dev) (f : Trust → Trust) : (d.modTrust f).formes = d.formes := rfl
@[simp] theorem Dev.modTrust_power (d : Dev) (f : Trust → Trust) : (d.modTrust f).power = d.power := rfl
@[simp] theorem Dev.modTrust_arb (d : Dev) (f : Trust → Trust) : (d.modTrust f).arb = d.arb := rfl
@[simp] theorem Dev.modTrust_host (d : Dev) (f : Trust → Trust) : (d.modTrust f).host = d.host := rfl
@[simp] theorem Dev.modTrust_msix (d : Dev) (f : Trust → Trust) : (d.modTrust f).msix = d.msix := rfl
@[simp] theorem Dev.modTrust_vec (d : Dev) (f : Trust → Trust) : (d.modTrust f).vec = d.vec := rfl
@[simp] theorem Dev.modTrust_queues (d : Dev) (f : Trust → Trust) : (d.modTrust f).queues = d.queues := rfl
@[simp] theorem Dev.modTrust_snaps (d : Dev) (f : Trust → Trust) : (d.modTrust f).snaps = d.snaps := rfl
@[simp] theorem Dev.modTrust_cap (d : Dev) (f : Trust → Trust) : (d.modTrust f).cap = d.cap := rfl
@[simp] theorem Dev.modTrust_fuse (d : Dev) (f : Trust → Trust) : (d.modTrust f).fuse = d.fuse := rfl
@[simp] theorem Dev.modTrust_pins (d : Dev) (f : Trust → Trust) : (d.modTrust f).pins = d.pins := rfl
@[simp] theorem Dev.modTrust_ret (d : Dev) (f : Trust → Trust) : (d.modTrust f).ret = d.ret := rfl
@[simp] theorem Dev.modTrust_lim (d : Dev) (f : Trust → Trust) : (d.modTrust f).lim = d.lim := rfl
@[simp] theorem Dev.modTrust_les (d : Dev) (f : Trust → Trust) : (d.modTrust f).les = d.les := rfl
@[simp] theorem Dev.modTrust_fmx (d : Dev) (f : Trust → Trust) : (d.modTrust f).fmx = d.fmx := rfl
@[simp] theorem Dev.modTrust_grps (d : Dev) (f : Trust → Trust) : (d.modTrust f).grps = d.grps := rfl
@[simp] theorem Dev.modTrust_path (d : Dev) (f : Trust → Trust) : (d.modTrust f).path = d.path := rfl
@[simp] theorem Dev.modTrust_tym (d : Dev) (f : Trust → Trust) : (d.modTrust f).tym = d.tym := rfl
@[simp] theorem Dev.modTrust_vault (d : Dev) (f : Trust → Trust) : (d.modTrust f).vault = d.vault := rfl
@[simp] theorem Dev.modTrust_trust (d : Dev) (f : Trust → Trust) : (d.modTrust f).trust = f d.trust := rfl
@[simp] theorem Dev.modTrust_calRun (d : Dev) (f : Trust → Trust) : (d.modTrust f).calRun = d.calRun := rfl
@[simp] theorem Dev.modTrust_mon (d : Dev) (f : Trust → Trust) : (d.modTrust f).mon = d.mon := rfl
@[simp] theorem Dev.modTrust_ecc (d : Dev) (f : Trust → Trust) : (d.modTrust f).ecc = d.ecc := rfl
@[simp] theorem Dev.modTrust_chime (d : Dev) (f : Trust → Trust) : (d.modTrust f).chime = d.chime := rfl
@[simp] theorem Dev.modTrust_pmClock (d : Dev) (f : Trust → Trust) : (d.modTrust f).pmClock = d.pmClock := rfl
@[simp] theorem Dev.modTrust_flowPm (d : Dev) (f : Trust → Trust) : (d.modTrust f).flowPm = d.flowPm := rfl
@[simp] theorem Dev.modTrust_flowDef (d : Dev) (f : Trust → Trust) : (d.modTrust f).flowDef = d.flowDef := rfl
@[simp] theorem Dev.modTrust_free (d : Dev) (f : Trust → Trust) : (d.modTrust f).free = d.free := rfl
@[simp] theorem Dev.modTrust_get (d : Dev) (f : Trust → Trust) (r : Fld) (i : Nat) : (d.modTrust f).get r i = d.get r i := rfl
@[simp] theorem Dev.modTrust_getJ (d : Dev) (f : Trust → Trust) (r : Fld) (i j : Nat) : (d.modTrust f).getJ r i j = d.getJ r i j := rfl
@[simp] theorem Dev.modTrust_flag (d : Dev) (f : Trust → Trust) (r : Fld) (i : Nat) : (d.modTrust f).flag r i = d.flag r i := rfl
@[simp] theorem Dev.modTrust_le (d : Dev) (f : Trust → Trust) (n : Nat) : (d.modTrust f).le n = d.le n := rfl

/-! ### `modArb` -/

@[simp] theorem Dev.modArb_regs (d : Dev) (f : Arbiter → Arbiter) : (d.modArb f).regs = d.regs := rfl
@[simp] theorem Dev.modArb_tabs (d : Dev) (f : Arbiter → Arbiter) : (d.modArb f).tabs = d.tabs := rfl
@[simp] theorem Dev.modArb_frozen (d : Dev) (f : Arbiter → Arbiter) : (d.modArb f).frozen = d.frozen := rfl
@[simp] theorem Dev.modArb_latch (d : Dev) (f : Arbiter → Arbiter) : (d.modArb f).latch = d.latch := rfl
@[simp] theorem Dev.modArb_readData (d : Dev) (f : Arbiter → Arbiter) : (d.modArb f).readData = d.readData := rfl
@[simp] theorem Dev.modArb_now (d : Dev) (f : Arbiter → Arbiter) : (d.modArb f).now = d.now := rfl
@[simp] theorem Dev.modArb_locked (d : Dev) (f : Arbiter → Arbiter) : (d.modArb f).locked = d.locked := rfl
@[simp] theorem Dev.modArb_dt (d : Dev) (f : Arbiter → Arbiter) : (d.modArb f).dt = d.dt := rfl
@[simp] theorem Dev.modArb_lockAt (d : Dev) (f : Arbiter → Arbiter) : (d.modArb f).lockAt = d.lockAt := rfl
@[simp] theorem Dev.modArb_incr (d : Dev) (f : Arbiter → Arbiter) : (d.modArb f).incr = d.incr := rfl
@[simp] theorem Dev.modArb_tgrid (d : Dev) (f : Arbiter → Arbiter) : (d.modArb f).tgrid = d.tgrid := rfl
@[simp] theorem Dev.modArb_grid (d : Dev) (f : Arbiter → Arbiter) : (d.modArb f).grid = d.grid := rfl
@[simp] theorem Dev.modArb_gnum (d : Dev) (f : Arbiter → Arbiter) : (d.modArb f).gnum = d.gnum := rfl
@[simp] theorem Dev.modArb_nextGalley (d : Dev) (f : Arbiter → Arbiter) : (d.modArb f).nextGalley = d.nextGalley := rfl
@[simp] theorem Dev.modArb_galleys (d : Dev) (f : Arbiter → Arbiter) : (d.modArb f).galleys = d.galleys := rfl
@[simp] theorem Dev.modArb_formes (d : Dev) (f : Arbiter → Arbiter) : (d.modArb f).formes = d.formes := rfl
@[simp] theorem Dev.modArb_power (d : Dev) (f : Arbiter → Arbiter) : (d.modArb f).power = d.power := rfl
@[simp] theorem Dev.modArb_arb (d : Dev) (f : Arbiter → Arbiter) : (d.modArb f).arb = f d.arb := rfl
@[simp] theorem Dev.modArb_host (d : Dev) (f : Arbiter → Arbiter) : (d.modArb f).host = d.host := rfl
@[simp] theorem Dev.modArb_msix (d : Dev) (f : Arbiter → Arbiter) : (d.modArb f).msix = d.msix := rfl
@[simp] theorem Dev.modArb_vec (d : Dev) (f : Arbiter → Arbiter) : (d.modArb f).vec = d.vec := rfl
@[simp] theorem Dev.modArb_queues (d : Dev) (f : Arbiter → Arbiter) : (d.modArb f).queues = d.queues := rfl
@[simp] theorem Dev.modArb_snaps (d : Dev) (f : Arbiter → Arbiter) : (d.modArb f).snaps = d.snaps := rfl
@[simp] theorem Dev.modArb_cap (d : Dev) (f : Arbiter → Arbiter) : (d.modArb f).cap = d.cap := rfl
@[simp] theorem Dev.modArb_fuse (d : Dev) (f : Arbiter → Arbiter) : (d.modArb f).fuse = d.fuse := rfl
@[simp] theorem Dev.modArb_pins (d : Dev) (f : Arbiter → Arbiter) : (d.modArb f).pins = d.pins := rfl
@[simp] theorem Dev.modArb_ret (d : Dev) (f : Arbiter → Arbiter) : (d.modArb f).ret = d.ret := rfl
@[simp] theorem Dev.modArb_lim (d : Dev) (f : Arbiter → Arbiter) : (d.modArb f).lim = d.lim := rfl
@[simp] theorem Dev.modArb_les (d : Dev) (f : Arbiter → Arbiter) : (d.modArb f).les = d.les := rfl
@[simp] theorem Dev.modArb_fmx (d : Dev) (f : Arbiter → Arbiter) : (d.modArb f).fmx = d.fmx := rfl
@[simp] theorem Dev.modArb_grps (d : Dev) (f : Arbiter → Arbiter) : (d.modArb f).grps = d.grps := rfl
@[simp] theorem Dev.modArb_path (d : Dev) (f : Arbiter → Arbiter) : (d.modArb f).path = d.path := rfl
@[simp] theorem Dev.modArb_tym (d : Dev) (f : Arbiter → Arbiter) : (d.modArb f).tym = d.tym := rfl
@[simp] theorem Dev.modArb_vault (d : Dev) (f : Arbiter → Arbiter) : (d.modArb f).vault = d.vault := rfl
@[simp] theorem Dev.modArb_trust (d : Dev) (f : Arbiter → Arbiter) : (d.modArb f).trust = d.trust := rfl
@[simp] theorem Dev.modArb_calRun (d : Dev) (f : Arbiter → Arbiter) : (d.modArb f).calRun = d.calRun := rfl
@[simp] theorem Dev.modArb_mon (d : Dev) (f : Arbiter → Arbiter) : (d.modArb f).mon = d.mon := rfl
@[simp] theorem Dev.modArb_ecc (d : Dev) (f : Arbiter → Arbiter) : (d.modArb f).ecc = d.ecc := rfl
@[simp] theorem Dev.modArb_chime (d : Dev) (f : Arbiter → Arbiter) : (d.modArb f).chime = d.chime := rfl
@[simp] theorem Dev.modArb_pmClock (d : Dev) (f : Arbiter → Arbiter) : (d.modArb f).pmClock = d.pmClock := rfl
@[simp] theorem Dev.modArb_flowPm (d : Dev) (f : Arbiter → Arbiter) : (d.modArb f).flowPm = d.flowPm := rfl
@[simp] theorem Dev.modArb_flowDef (d : Dev) (f : Arbiter → Arbiter) : (d.modArb f).flowDef = d.flowDef := rfl
@[simp] theorem Dev.modArb_free (d : Dev) (f : Arbiter → Arbiter) : (d.modArb f).free = d.free := rfl
@[simp] theorem Dev.modArb_get (d : Dev) (f : Arbiter → Arbiter) (r : Fld) (i : Nat) : (d.modArb f).get r i = d.get r i := rfl
@[simp] theorem Dev.modArb_getJ (d : Dev) (f : Arbiter → Arbiter) (r : Fld) (i j : Nat) : (d.modArb f).getJ r i j = d.getJ r i j := rfl
@[simp] theorem Dev.modArb_flag (d : Dev) (f : Arbiter → Arbiter) (r : Fld) (i : Nat) : (d.modArb f).flag r i = d.flag r i := rfl
@[simp] theorem Dev.modArb_le (d : Dev) (f : Arbiter → Arbiter) (n : Nat) : (d.modArb f).le n = d.le n := rfl

/-! ### `modPower` -/

@[simp] theorem Dev.modPower_regs (d : Dev) (f : Power → Power) : (d.modPower f).regs = d.regs := rfl
@[simp] theorem Dev.modPower_tabs (d : Dev) (f : Power → Power) : (d.modPower f).tabs = d.tabs := rfl
@[simp] theorem Dev.modPower_frozen (d : Dev) (f : Power → Power) : (d.modPower f).frozen = d.frozen := rfl
@[simp] theorem Dev.modPower_latch (d : Dev) (f : Power → Power) : (d.modPower f).latch = d.latch := rfl
@[simp] theorem Dev.modPower_readData (d : Dev) (f : Power → Power) : (d.modPower f).readData = d.readData := rfl
@[simp] theorem Dev.modPower_now (d : Dev) (f : Power → Power) : (d.modPower f).now = d.now := rfl
@[simp] theorem Dev.modPower_locked (d : Dev) (f : Power → Power) : (d.modPower f).locked = d.locked := rfl
@[simp] theorem Dev.modPower_dt (d : Dev) (f : Power → Power) : (d.modPower f).dt = d.dt := rfl
@[simp] theorem Dev.modPower_lockAt (d : Dev) (f : Power → Power) : (d.modPower f).lockAt = d.lockAt := rfl
@[simp] theorem Dev.modPower_incr (d : Dev) (f : Power → Power) : (d.modPower f).incr = d.incr := rfl
@[simp] theorem Dev.modPower_tgrid (d : Dev) (f : Power → Power) : (d.modPower f).tgrid = d.tgrid := rfl
@[simp] theorem Dev.modPower_grid (d : Dev) (f : Power → Power) : (d.modPower f).grid = d.grid := rfl
@[simp] theorem Dev.modPower_gnum (d : Dev) (f : Power → Power) : (d.modPower f).gnum = d.gnum := rfl
@[simp] theorem Dev.modPower_nextGalley (d : Dev) (f : Power → Power) : (d.modPower f).nextGalley = d.nextGalley := rfl
@[simp] theorem Dev.modPower_galleys (d : Dev) (f : Power → Power) : (d.modPower f).galleys = d.galleys := rfl
@[simp] theorem Dev.modPower_formes (d : Dev) (f : Power → Power) : (d.modPower f).formes = d.formes := rfl
@[simp] theorem Dev.modPower_power (d : Dev) (f : Power → Power) : (d.modPower f).power = f d.power := rfl
@[simp] theorem Dev.modPower_arb (d : Dev) (f : Power → Power) : (d.modPower f).arb = d.arb := rfl
@[simp] theorem Dev.modPower_host (d : Dev) (f : Power → Power) : (d.modPower f).host = d.host := rfl
@[simp] theorem Dev.modPower_msix (d : Dev) (f : Power → Power) : (d.modPower f).msix = d.msix := rfl
@[simp] theorem Dev.modPower_vec (d : Dev) (f : Power → Power) : (d.modPower f).vec = d.vec := rfl
@[simp] theorem Dev.modPower_queues (d : Dev) (f : Power → Power) : (d.modPower f).queues = d.queues := rfl
@[simp] theorem Dev.modPower_snaps (d : Dev) (f : Power → Power) : (d.modPower f).snaps = d.snaps := rfl
@[simp] theorem Dev.modPower_cap (d : Dev) (f : Power → Power) : (d.modPower f).cap = d.cap := rfl
@[simp] theorem Dev.modPower_fuse (d : Dev) (f : Power → Power) : (d.modPower f).fuse = d.fuse := rfl
@[simp] theorem Dev.modPower_pins (d : Dev) (f : Power → Power) : (d.modPower f).pins = d.pins := rfl
@[simp] theorem Dev.modPower_ret (d : Dev) (f : Power → Power) : (d.modPower f).ret = d.ret := rfl
@[simp] theorem Dev.modPower_lim (d : Dev) (f : Power → Power) : (d.modPower f).lim = d.lim := rfl
@[simp] theorem Dev.modPower_les (d : Dev) (f : Power → Power) : (d.modPower f).les = d.les := rfl
@[simp] theorem Dev.modPower_fmx (d : Dev) (f : Power → Power) : (d.modPower f).fmx = d.fmx := rfl
@[simp] theorem Dev.modPower_grps (d : Dev) (f : Power → Power) : (d.modPower f).grps = d.grps := rfl
@[simp] theorem Dev.modPower_path (d : Dev) (f : Power → Power) : (d.modPower f).path = d.path := rfl
@[simp] theorem Dev.modPower_tym (d : Dev) (f : Power → Power) : (d.modPower f).tym = d.tym := rfl
@[simp] theorem Dev.modPower_vault (d : Dev) (f : Power → Power) : (d.modPower f).vault = d.vault := rfl
@[simp] theorem Dev.modPower_trust (d : Dev) (f : Power → Power) : (d.modPower f).trust = d.trust := rfl
@[simp] theorem Dev.modPower_calRun (d : Dev) (f : Power → Power) : (d.modPower f).calRun = d.calRun := rfl
@[simp] theorem Dev.modPower_mon (d : Dev) (f : Power → Power) : (d.modPower f).mon = d.mon := rfl
@[simp] theorem Dev.modPower_ecc (d : Dev) (f : Power → Power) : (d.modPower f).ecc = d.ecc := rfl
@[simp] theorem Dev.modPower_chime (d : Dev) (f : Power → Power) : (d.modPower f).chime = d.chime := rfl
@[simp] theorem Dev.modPower_pmClock (d : Dev) (f : Power → Power) : (d.modPower f).pmClock = d.pmClock := rfl
@[simp] theorem Dev.modPower_flowPm (d : Dev) (f : Power → Power) : (d.modPower f).flowPm = d.flowPm := rfl
@[simp] theorem Dev.modPower_flowDef (d : Dev) (f : Power → Power) : (d.modPower f).flowDef = d.flowDef := rfl
@[simp] theorem Dev.modPower_free (d : Dev) (f : Power → Power) : (d.modPower f).free = d.free := rfl
@[simp] theorem Dev.modPower_get (d : Dev) (f : Power → Power) (r : Fld) (i : Nat) : (d.modPower f).get r i = d.get r i := rfl
@[simp] theorem Dev.modPower_getJ (d : Dev) (f : Power → Power) (r : Fld) (i j : Nat) : (d.modPower f).getJ r i j = d.getJ r i j := rfl
@[simp] theorem Dev.modPower_flag (d : Dev) (f : Power → Power) (r : Fld) (i : Nat) : (d.modPower f).flag r i = d.flag r i := rfl
@[simp] theorem Dev.modPower_le (d : Dev) (f : Power → Power) (n : Nat) : (d.modPower f).le n = d.le n := rfl

/-! ### `modChime` -/

@[simp] theorem Dev.modChime_regs (d : Dev) (f : Chime → Chime) : (d.modChime f).regs = d.regs := rfl
@[simp] theorem Dev.modChime_tabs (d : Dev) (f : Chime → Chime) : (d.modChime f).tabs = d.tabs := rfl
@[simp] theorem Dev.modChime_frozen (d : Dev) (f : Chime → Chime) : (d.modChime f).frozen = d.frozen := rfl
@[simp] theorem Dev.modChime_latch (d : Dev) (f : Chime → Chime) : (d.modChime f).latch = d.latch := rfl
@[simp] theorem Dev.modChime_readData (d : Dev) (f : Chime → Chime) : (d.modChime f).readData = d.readData := rfl
@[simp] theorem Dev.modChime_now (d : Dev) (f : Chime → Chime) : (d.modChime f).now = d.now := rfl
@[simp] theorem Dev.modChime_locked (d : Dev) (f : Chime → Chime) : (d.modChime f).locked = d.locked := rfl
@[simp] theorem Dev.modChime_dt (d : Dev) (f : Chime → Chime) : (d.modChime f).dt = d.dt := rfl
@[simp] theorem Dev.modChime_lockAt (d : Dev) (f : Chime → Chime) : (d.modChime f).lockAt = d.lockAt := rfl
@[simp] theorem Dev.modChime_incr (d : Dev) (f : Chime → Chime) : (d.modChime f).incr = d.incr := rfl
@[simp] theorem Dev.modChime_tgrid (d : Dev) (f : Chime → Chime) : (d.modChime f).tgrid = d.tgrid := rfl
@[simp] theorem Dev.modChime_grid (d : Dev) (f : Chime → Chime) : (d.modChime f).grid = d.grid := rfl
@[simp] theorem Dev.modChime_gnum (d : Dev) (f : Chime → Chime) : (d.modChime f).gnum = d.gnum := rfl
@[simp] theorem Dev.modChime_nextGalley (d : Dev) (f : Chime → Chime) : (d.modChime f).nextGalley = d.nextGalley := rfl
@[simp] theorem Dev.modChime_galleys (d : Dev) (f : Chime → Chime) : (d.modChime f).galleys = d.galleys := rfl
@[simp] theorem Dev.modChime_formes (d : Dev) (f : Chime → Chime) : (d.modChime f).formes = d.formes := rfl
@[simp] theorem Dev.modChime_power (d : Dev) (f : Chime → Chime) : (d.modChime f).power = d.power := rfl
@[simp] theorem Dev.modChime_arb (d : Dev) (f : Chime → Chime) : (d.modChime f).arb = d.arb := rfl
@[simp] theorem Dev.modChime_host (d : Dev) (f : Chime → Chime) : (d.modChime f).host = d.host := rfl
@[simp] theorem Dev.modChime_msix (d : Dev) (f : Chime → Chime) : (d.modChime f).msix = d.msix := rfl
@[simp] theorem Dev.modChime_vec (d : Dev) (f : Chime → Chime) : (d.modChime f).vec = d.vec := rfl
@[simp] theorem Dev.modChime_queues (d : Dev) (f : Chime → Chime) : (d.modChime f).queues = d.queues := rfl
@[simp] theorem Dev.modChime_snaps (d : Dev) (f : Chime → Chime) : (d.modChime f).snaps = d.snaps := rfl
@[simp] theorem Dev.modChime_cap (d : Dev) (f : Chime → Chime) : (d.modChime f).cap = d.cap := rfl
@[simp] theorem Dev.modChime_fuse (d : Dev) (f : Chime → Chime) : (d.modChime f).fuse = d.fuse := rfl
@[simp] theorem Dev.modChime_pins (d : Dev) (f : Chime → Chime) : (d.modChime f).pins = d.pins := rfl
@[simp] theorem Dev.modChime_ret (d : Dev) (f : Chime → Chime) : (d.modChime f).ret = d.ret := rfl
@[simp] theorem Dev.modChime_lim (d : Dev) (f : Chime → Chime) : (d.modChime f).lim = d.lim := rfl
@[simp] theorem Dev.modChime_les (d : Dev) (f : Chime → Chime) : (d.modChime f).les = d.les := rfl
@[simp] theorem Dev.modChime_fmx (d : Dev) (f : Chime → Chime) : (d.modChime f).fmx = d.fmx := rfl
@[simp] theorem Dev.modChime_grps (d : Dev) (f : Chime → Chime) : (d.modChime f).grps = d.grps := rfl
@[simp] theorem Dev.modChime_path (d : Dev) (f : Chime → Chime) : (d.modChime f).path = d.path := rfl
@[simp] theorem Dev.modChime_tym (d : Dev) (f : Chime → Chime) : (d.modChime f).tym = d.tym := rfl
@[simp] theorem Dev.modChime_vault (d : Dev) (f : Chime → Chime) : (d.modChime f).vault = d.vault := rfl
@[simp] theorem Dev.modChime_trust (d : Dev) (f : Chime → Chime) : (d.modChime f).trust = d.trust := rfl
@[simp] theorem Dev.modChime_calRun (d : Dev) (f : Chime → Chime) : (d.modChime f).calRun = d.calRun := rfl
@[simp] theorem Dev.modChime_mon (d : Dev) (f : Chime → Chime) : (d.modChime f).mon = d.mon := rfl
@[simp] theorem Dev.modChime_ecc (d : Dev) (f : Chime → Chime) : (d.modChime f).ecc = d.ecc := rfl
@[simp] theorem Dev.modChime_chime (d : Dev) (f : Chime → Chime) : (d.modChime f).chime = f d.chime := rfl
@[simp] theorem Dev.modChime_pmClock (d : Dev) (f : Chime → Chime) : (d.modChime f).pmClock = d.pmClock := rfl
@[simp] theorem Dev.modChime_flowPm (d : Dev) (f : Chime → Chime) : (d.modChime f).flowPm = d.flowPm := rfl
@[simp] theorem Dev.modChime_flowDef (d : Dev) (f : Chime → Chime) : (d.modChime f).flowDef = d.flowDef := rfl
@[simp] theorem Dev.modChime_free (d : Dev) (f : Chime → Chime) : (d.modChime f).free = d.free := rfl
@[simp] theorem Dev.modChime_get (d : Dev) (f : Chime → Chime) (r : Fld) (i : Nat) : (d.modChime f).get r i = d.get r i := rfl
@[simp] theorem Dev.modChime_getJ (d : Dev) (f : Chime → Chime) (r : Fld) (i j : Nat) : (d.modChime f).getJ r i j = d.getJ r i j := rfl
@[simp] theorem Dev.modChime_flag (d : Dev) (f : Chime → Chime) (r : Fld) (i : Nat) : (d.modChime f).flag r i = d.flag r i := rfl
@[simp] theorem Dev.modChime_le (d : Dev) (f : Chime → Chime) (n : Nat) : (d.modChime f).le n = d.le n := rfl

/-! ### `modQueue` -/

@[simp] theorem Dev.modQueue_regs (d : Dev) (f : List StartEntry → List StartEntry) : (d.modQueue f).regs = d.regs := rfl
@[simp] theorem Dev.modQueue_tabs (d : Dev) (f : List StartEntry → List StartEntry) : (d.modQueue f).tabs = d.tabs := rfl
@[simp] theorem Dev.modQueue_frozen (d : Dev) (f : List StartEntry → List StartEntry) : (d.modQueue f).frozen = d.frozen := rfl
@[simp] theorem Dev.modQueue_latch (d : Dev) (f : List StartEntry → List StartEntry) : (d.modQueue f).latch = d.latch := rfl
@[simp] theorem Dev.modQueue_readData (d : Dev) (f : List StartEntry → List StartEntry) : (d.modQueue f).readData = d.readData := rfl
@[simp] theorem Dev.modQueue_now (d : Dev) (f : List StartEntry → List StartEntry) : (d.modQueue f).now = d.now := rfl
@[simp] theorem Dev.modQueue_locked (d : Dev) (f : List StartEntry → List StartEntry) : (d.modQueue f).locked = d.locked := rfl
@[simp] theorem Dev.modQueue_dt (d : Dev) (f : List StartEntry → List StartEntry) : (d.modQueue f).dt = d.dt := rfl
@[simp] theorem Dev.modQueue_lockAt (d : Dev) (f : List StartEntry → List StartEntry) : (d.modQueue f).lockAt = d.lockAt := rfl
@[simp] theorem Dev.modQueue_incr (d : Dev) (f : List StartEntry → List StartEntry) : (d.modQueue f).incr = d.incr := rfl
@[simp] theorem Dev.modQueue_tgrid (d : Dev) (f : List StartEntry → List StartEntry) : (d.modQueue f).tgrid = d.tgrid := rfl
@[simp] theorem Dev.modQueue_grid (d : Dev) (f : List StartEntry → List StartEntry) : (d.modQueue f).grid = d.grid := rfl
@[simp] theorem Dev.modQueue_gnum (d : Dev) (f : List StartEntry → List StartEntry) : (d.modQueue f).gnum = d.gnum := rfl
@[simp] theorem Dev.modQueue_nextGalley (d : Dev) (f : List StartEntry → List StartEntry) : (d.modQueue f).nextGalley = d.nextGalley := rfl
@[simp] theorem Dev.modQueue_galleys (d : Dev) (f : List StartEntry → List StartEntry) : (d.modQueue f).galleys = d.galleys := rfl
@[simp] theorem Dev.modQueue_formes (d : Dev) (f : List StartEntry → List StartEntry) : (d.modQueue f).formes = d.formes := rfl
@[simp] theorem Dev.modQueue_power (d : Dev) (f : List StartEntry → List StartEntry) : (d.modQueue f).power = d.power := rfl
@[simp] theorem Dev.modQueue_arb (d : Dev) (f : List StartEntry → List StartEntry) : (d.modQueue f).arb = d.arb := rfl
@[simp] theorem Dev.modQueue_host (d : Dev) (f : List StartEntry → List StartEntry) : (d.modQueue f).host = d.host := rfl
@[simp] theorem Dev.modQueue_msix (d : Dev) (f : List StartEntry → List StartEntry) : (d.modQueue f).msix = d.msix := rfl
@[simp] theorem Dev.modQueue_vec (d : Dev) (f : List StartEntry → List StartEntry) : (d.modQueue f).vec = d.vec := rfl
@[simp] theorem Dev.modQueue_queues (d : Dev) (f : List StartEntry → List StartEntry) : (d.modQueue f).queues = d.queues := rfl
@[simp] theorem Dev.modQueue_snaps (d : Dev) (f : List StartEntry → List StartEntry) : (d.modQueue f).snaps = d.snaps := rfl
@[simp] theorem Dev.modQueue_cap (d : Dev) (f : List StartEntry → List StartEntry) : (d.modQueue f).cap = d.cap := rfl
@[simp] theorem Dev.modQueue_fuse (d : Dev) (f : List StartEntry → List StartEntry) : (d.modQueue f).fuse = d.fuse := rfl
@[simp] theorem Dev.modQueue_pins (d : Dev) (f : List StartEntry → List StartEntry) : (d.modQueue f).pins = d.pins := rfl
@[simp] theorem Dev.modQueue_ret (d : Dev) (f : List StartEntry → List StartEntry) : (d.modQueue f).ret = d.ret := rfl
@[simp] theorem Dev.modQueue_les (d : Dev) (f : List StartEntry → List StartEntry) : (d.modQueue f).les = d.les := rfl
@[simp] theorem Dev.modQueue_fmx (d : Dev) (f : List StartEntry → List StartEntry) : (d.modQueue f).fmx = d.fmx := rfl
@[simp] theorem Dev.modQueue_grps (d : Dev) (f : List StartEntry → List StartEntry) : (d.modQueue f).grps = d.grps := rfl
@[simp] theorem Dev.modQueue_path (d : Dev) (f : List StartEntry → List StartEntry) : (d.modQueue f).path = d.path := rfl
@[simp] theorem Dev.modQueue_tym (d : Dev) (f : List StartEntry → List StartEntry) : (d.modQueue f).tym = d.tym := rfl
@[simp] theorem Dev.modQueue_vault (d : Dev) (f : List StartEntry → List StartEntry) : (d.modQueue f).vault = d.vault := rfl
@[simp] theorem Dev.modQueue_trust (d : Dev) (f : List StartEntry → List StartEntry) : (d.modQueue f).trust = d.trust := rfl
@[simp] theorem Dev.modQueue_calRun (d : Dev) (f : List StartEntry → List StartEntry) : (d.modQueue f).calRun = d.calRun := rfl
@[simp] theorem Dev.modQueue_mon (d : Dev) (f : List StartEntry → List StartEntry) : (d.modQueue f).mon = d.mon := rfl
@[simp] theorem Dev.modQueue_ecc (d : Dev) (f : List StartEntry → List StartEntry) : (d.modQueue f).ecc = d.ecc := rfl
@[simp] theorem Dev.modQueue_chime (d : Dev) (f : List StartEntry → List StartEntry) : (d.modQueue f).chime = d.chime := rfl
@[simp] theorem Dev.modQueue_pmClock (d : Dev) (f : List StartEntry → List StartEntry) : (d.modQueue f).pmClock = d.pmClock := rfl
@[simp] theorem Dev.modQueue_flowPm (d : Dev) (f : List StartEntry → List StartEntry) : (d.modQueue f).flowPm = d.flowPm := rfl
@[simp] theorem Dev.modQueue_flowDef (d : Dev) (f : List StartEntry → List StartEntry) : (d.modQueue f).flowDef = d.flowDef := rfl
@[simp] theorem Dev.modQueue_free (d : Dev) (f : List StartEntry → List StartEntry) : (d.modQueue f).free = d.free := rfl
@[simp] theorem Dev.modQueue_get (d : Dev) (f : List StartEntry → List StartEntry) (r : Fld) (i : Nat) : (d.modQueue f).get r i = d.get r i := rfl
@[simp] theorem Dev.modQueue_getJ (d : Dev) (f : List StartEntry → List StartEntry) (r : Fld) (i j : Nat) : (d.modQueue f).getJ r i j = d.getJ r i j := rfl
@[simp] theorem Dev.modQueue_flag (d : Dev) (f : List StartEntry → List StartEntry) (r : Fld) (i : Nat) : (d.modQueue f).flag r i = d.flag r i := rfl
@[simp] theorem Dev.modQueue_le (d : Dev) (f : List StartEntry → List StartEntry) (n : Nat) : (d.modQueue f).le n = d.le n := rfl

end Sys2Proof.Machine
end

