-- ==== Sys2Proof/Machine/ConfigSpace.lean ====
section
/-! DEFINITION. What configuration space shows (R436, R437, R438): constants of the part and the class code, which the
link's mode decides. No command of the table reads configuration space, so nothing else uses these. -/

namespace Sys2Proof.Machine

/-- The vendor, device and revision identifiers (R436). -/
def cfgVendorId : Nat := 0x1F9A
def cfgDeviceId : Nat := 0x3200
def cfgRevisionId : Nat := 0xB0

/-- The class code in the mode in which the link came up (R433, R436). (Log 149: DESIGN CHOICE) -/
def Dev.cfgClassCode (d : Dev) : Nat := if d.flag Reg.CXL_LINK_STAT.CXL 0 then 0x050200 else 0x028000

/-- The subsystem vendor ID and subsystem ID: fused, or 0x1F9A and 0 when unfused (R436). -/
def Dev.cfgSubsystem (d : Dev) : Nat × Nat := Config.fuseSubsystem d.fuse

/-- A BAR: its first register, size in bytes and whether it is prefetchable (R437). -/
structure Bar where
  first : Nat
  size : Nat
  prefetch : Bool
deriving DecidableEq, Repr

/-- The BARs: BAR4/5 is there in PCIe mode only (R437). (Log 149: DESIGN CHOICE) -/
def Dev.cfgBars (d : Dev) : List Bar :=
  [⟨0, 4 * pow2 20, false⟩, ⟨2, 128 * pow2 10, false⟩] ++
    (if d.flag Reg.CXL_LINK_STAT.CXL 0 then [] else [⟨4, 32 * pow2 20, true⟩])

/-- Where the MSI-X table and its pending-bit array lie in BAR2, and how many vectors there are (R436, R437). -/
def cfgMsixTable : Nat := 0x10000
def cfgMsixPba : Nat := 0x18000
def cfgMsixVectors : Nat := 32

/-- A CXL DVSEC (R438), by its ID, with the values that matter. -/
inductive Dvsec where
  | cxlDevice (cacheCapable ioCapable memCapable memHwInit : Bool) (hdmCount : Nat) (resetCapable viralCapable : Bool)
      (rangeSize mediaType memoryClass activeTimeout : Nat)
  | flexBusPort (cacheCapable ioCapable memCapable flit68 mld : Bool)
  | registerLocator (bar offset block : Nat)
deriving DecidableEq, Repr

/-- The vendor ID of the DVSECs, and the DVSECs (R438). -/
def cfgDvsecVendor : Nat := 0x1E98
def cfgDvsecs : List (Nat × Dvsec) :=
  [(0x0000, .cxlDevice false true true false 1 false false 0x10000000 2 2 0),
   (0x0007, .flexBusPort false true true true false),
   (0x0008, .registerLocator 2 0 1)]

end Sys2Proof.Machine
end

