-- ==== Sys2Proof/Tests/Slice0.lean ====
section
/-! SUPPORT. Smoke tests: ill-formed commands that the check refuses, witnesses for the statements' hypotheses, and values of
single steps worked out from the spec. -/

namespace Sys2Proof.Tests

set_option Elab.async false

open Sys2Proof Sys2Proof.Machine

/-! ### Small states -/

/-- A state with its device changed. -/
def on (f : Dev → Dev) (s : State) : State := { s with dev := f s.dev }

/-- A sealed part, time base locked, no galley started. -/
def ready : State := State.reset |> on fun d =>
  { d.setB Reg.CHIP_SEAL.SEALED 0 true with locked := true, lockAt := 300000, now := 300000, nextGalley := 320480 }

/-- The same held in reset. -/
def held (cause rails : Nat) : State := ready |> on fun d => { d with power := { d.power with inReset := true, cause := cause, rails := rails } }

/-- The same with the supply-dip freeze in force. -/
def dip : State := ready |> on fun d => d.setB Reg.RST_FREEZE.ACTIVE 0 true

/-- A sealed part whose HDM is served over an up link. -/
def served : State := ready |> on fun d =>
  { d.setB Reg.CXL_LINK_STAT.UP 0 true with host := { d.host with active := true, zeroed := true } }

/-- A galley has started, `n` galleys after the lock. -/
def galley (n : Nat) (s : State) : State := s |> on fun d => { d with galleys := n, gnum := n - 1 }

/-- Line engine `n` in a transmit and in a receive state. -/
def txIn (n st : Nat) (s : State) : State := s |> on fun d => d.set Reg.LE_TX_STAT.STATE n st
def rxIn (n st : Nat) (s : State) : State := s |> on fun d => d.set Reg.LE_RX_STAT.STATE n st

/-- Bank A of line engine `n` filled with 64QAM subcarriers. -/
def loaded (n : Nat) (s : State) : State := s |> on fun d =>
  d.over (List.range 16) fun i d => d.setTab (pageOf .tx n) 1 i 0 0x6005

/-! ### Ill-formed commands -/

theorem test_wf_refuses_page : (Instr.registerWrite (.page 0x400 0) 0).wf = false := by decide
theorem test_wf_refuses_offset : (Instr.rlRead 0 0x1000).wf = false := by decide
theorem test_wf_refuses_pages : (Instr.tblCmdRead 0x400 true).wf = false ∧ (Instr.tblCmdWrite 0x400 true).wf = false ∧
    (Instr.blkReset 0x400).wf = false ∧ (Instr.freeze 0x400 true).wf = false ∧ (Instr.fenceRead 0x400).wf = false ∧
    (Instr.evForce 0x400 0).wf = false := by decide
theorem test_wf_refuses_empty_access : (Instr.badAccess true 0).wf = false := by decide
theorem test_wf_refuses_link : (Instr.cxlLinkUp true 3 1).wf = false ∧ (Instr.cxlLinkUp true 4 0).wf = false ∧
    (Instr.cxlLinkUp true 4 6).wf = false := by decide
theorem test_wf_refuses_line : (Instr.cxlMemWrite 0x10000000 0 (List.replicate 64 0)).wf = false ∧
    (Instr.cxlMemWrite 0 0 []).wf = false ∧ (Instr.cxlMemRead 0x10000000).wf = false := by decide
theorem test_wf_refuses_mailbox : (Instr.doeDiscovery 1 256).wf = false ∧ (Instr.cdat 1 65536).wf = false := by decide
theorem test_wf_refuses_samples : (Instr.captureDone [0]).wf = false := by decide
theorem test_wf_refuses_fuses : (Instr.fuseLoadAttempt [] []).wf = false := by decide
theorem test_wf_refuses_dac : (Instr.dacGalleyMeasure 0 [[], [], []]).wf = false := by decide
theorem test_wf_refuses_candidates : (Instr.cdSearchDone 0 []).wf = false ∧ (Instr.cdSearchDone 0 [0, 1, 2, 3, 4]).wf = false := by
  decide
theorem test_wf_refuses_cause : (Instr.lossOfLock 0 0).wf = false ∧ (Instr.lossOfLock 0 7).wf = false := by decide
theorem test_wf_refuses_galley : (Instr.rxGalleyComplete 0 ⟨[], [], [], 0, [], 0, 0, 0, 0, 0, 0, 0, 0, 0⟩).wf = false := by decide
theorem test_wf_refuses_forme : (Instr.formeReceived 0 ⟨0, [], []⟩).wf = false := by decide
theorem test_wf_refuses_numbers : (Instr.deskewRelease 4294967296 0).wf = false ∧ (Instr.deskewTimeout 0 16).wf = false ∧
    (Instr.bsigReceive 4294967296).wf = false ∧ (Instr.rxMapSwitch 4294967296).wf = false ∧
    (Instr.ksigReceive 4294967296).wf = false := by decide
theorem test_wf_refuses_rimshot : (Instr.rimshot 0 0 []).wf = false := by decide
theorem test_wf_refuses_skew : (Instr.groupAlign 0 [0]).wf = false := by decide
theorem test_wf_refuses_block : (Instr.hlnBlockReceive 0 ⟨[], 0⟩).wf = false ∧ (Instr.hlnBlockSend 0 ⟨0, [5], 0⟩).wf = false ∧
    (Instr.hlnBlockSend 0 ⟨0, [5, 5], 0⟩).wf = false := by decide
theorem test_wf_refuses_frame : (Instr.hello 0 (List.replicate 511 0)).wf = false := by decide +kernel
theorem test_wf_refuses_xid : (Instr.transferPartialExpiry 65536).wf = false := by decide
theorem test_wf_refuses_temps : (Instr.calDrift []).wf = false := by decide
theorem test_wf_refuses_code : (Instr.monConversionDone 4096 0).wf = false := by decide

/-! ### Witnesses: a state and operands that meet a statement's hypotheses, clause by clause -/

theorem witness_empty_queue : ready.pending = [] ∧ ready.Live := by decide +kernel
theorem witness_memory_form : ready.MemOk ∧ (match step ready with | .next _ => true | _ => false) = true := by decide +kernel
theorem witness_other_commands : (match exec .timebaseLock State.reset with | .next _ => true | _ => false) = true := by decide +kernel
theorem witness_well_formed : (Instr.cxlMemRead 0x1FFFFFF).wf = true ∧ 0x1FFFFFF < ready.dev.memSize ∧
    (Instr.cxlMemWrite 0 0 (List.replicate 64 0)).wf = true ∧ 0 < ready.dev.memSize := by decide +kernel
theorem witness_outside : (0x400 ≤ 0x400 ∨ 0x1000 ≤ 0) ∧ ready.dev.memSize ≤ 0x2000000 := by decide +kernel
theorem witness_line_write : served.Live ∧ 0x1000000 < served.dev.memSize ∧ 0x1EFFFFF < served.dev.memSize ∧
    served.dev.memServed = true ∧ served.dev.host.active = true := by decide +kernel
theorem witness_writes_discarded : ready.dev.host.active = false ∧ ready.dev.flag Reg.CHIP_SEAL.SEALED 0 = true ∧
    ready.dev.host.zeroed = false ∧ State.reset.dev.flag Reg.CHIP_SEAL.SEALED 0 = false ∧ served.dev.host.zeroed = true := by decide +kernel
theorem witness_line_read : served.dev.memServed = true ∧ served.dev.host.active = true ∧ 0x1FFFFFF < served.dev.memSize ∧
    served.dev.ecc.bad = [] ∧ ready.dev.host.active = false := by decide +kernel
theorem witness_accepted : ready.Accepts .hlnL 0 0x058 0xC8 ∧ (0x058 : Nat) % 4 = 0 := by decide +kernel
theorem witness_rejected : ready.Rejects .tx 7 0x040 1 .capacity := by decide +kernel
theorem witness_reserved : decodePage (pageOf .mon 0) = some (.mon, 0) ∧ ready.dev.pageServed (pageOf .mon 0) = true ∧
    fieldsAt .mon 0xFFC = [] ∧ (∀ r ∈ fieldsAt .tx 0x040, ¬(r.lo ≤ 31 ∧ 31 < r.lo + r.width)) := by decide +kernel
theorem witness_register_read : latches .tx 0x040 = false ∧ latches .tymT 0x040 = true ∧ decodePage 0x3FF = none ∧
    ready.dev.pageServed (pageOf .tymT 0) = true := by decide +kernel
theorem witness_table_commands :
    (let s := ready |> on fun d => d.set Hdr.TBL_SEL.SEL (pageOf .tx 0) 1
     s.Live ∧ decodePage (pageOf .tx 0) = some (.tx, 0) ∧ s.dev.pageServed (pageOf .tx 0) = true ∧
       s.dev.flag Hdr.CTRL.ENABLE (pageOf .tx 0) = true ∧ s.dev.get Hdr.TBL_SEL.SEL (pageOf .tx 0) = 1 ∧
       s.dev.get Hdr.TBL_INDEX.INDEX (pageOf .tx 0) = 0 ∧ tableIndexOk .tx 1 0 = true ∧
       s.dev.entryErrs .tx 0 1 0 (List.replicate 8 0) = [] ∧
       ((List.range 8).map fun j => s.dev.getJ Hdr.TBL_DATA.DATA (pageOf .tx 0) j) = List.replicate 8 0) := by decide +kernel
theorem witness_header_commands :
    (let s := ready |> on fun d => d.set Hdr.CTRL.ENABLE (pageOf .pace 7) 0
     s.dev.get Hdr.CTRL.ENABLE (pageOf .pace 7) = 0 ∧ s.dev.get Hdr.CTRL.FREEZE (pageOf .pace 7) ≤ 1 ∧
       fixedEnable (pageOf .pace 7) = false ∧ s.dev.idle .pace 7 = true) ∧
    ready.dev.get Hdr.CTRL.ENABLE (pageOf .tx 0) ≤ 1 ∧ ready.dev.get Hdr.CTRL.FREEZE (pageOf .tx 0) ≤ 1 ∧
    (∀ b : Fin 32, bitOf 1 b.val = true → b.val < (eventsOf .tx).2) := by decide +kernel
theorem witness_fences : ready.Live ∧ decodePage (pageOf .mon 0) = some (.mon, 0) ∧ ready.dev.pageServed (pageOf .mon 0) = true := by
  decide +kernel
theorem witness_queues : ready.dev.pageServed (pageOf .evq 3) = true ∧ ready.dev.frozenPage .evq 3 = false ∧
    ready.dev.flag Hdr.CTRL.ENABLE (pageOf .evq 3) = true ∧ (ready.dev.queue 3).popAllowed 0 = true ∧ (0 : Nat) < 1024 ∧
    (let s := ready |> on fun d => d.setQueue 3 { Queue.reset with holdPend := true, holdUntil := 400000 }
     (s.dev.queue 3).holdPend = true) := by decide +kernel
theorem witness_links : ready.dev.flag Reg.CXL_LINK_STAT.UP 0 = false ∧ served.dev.flag Reg.CXL_LINK_STAT.UP 0 = true := by decide +kernel

/-- A part whose identity is ready and whose firmware runs; its chain is one byte. -/
def trusted : State := ready |> on fun d =>
  { ((d.set Reg.MCU_BOOT_STAT.STATE 0 2).setB Reg.CAR_ID_STAT.READY 0 true) with trust := { d.trust with chain := [0x30] } }

theorem witness_mailbox : trusted.Live ∧ trusted.dev.flag Reg.CHIP_SEAL.FAULT 0 = false ∧ trusted.dev.bootState = 2 ∧
    trusted.dev.idReady = true ∧ trusted.dev.spdmChain.isSome = true ∧ 0 < (trusted.dev.spdmChain.getD []).length ∧
    trusted.dev.rangeFails 6 0 (regionSize 6) = false := by decide +kernel
theorem witness_snapshots : ready.Accepts .hdm 0 0x040 (Reg.CXL_SNAP_CTRL.NOW.put 1 (ready.kept .hdm 0 0x040)) ∧
    (let s := ready |> on fun d => { d with host := { d.host with snapBusy := some 3 } }
     s.Runs ∧ s.dev.host.snapBusy = some 3) ∧
    ready.Accepts .hdm 0 0x04C (Reg.CXL_CAP_CTRL.GO.put 1 (Reg.CXL_CAP_CTRL.SRC.put 3 (Reg.CXL_CAP_CTRL.LE.put 7
      (Reg.CXL_CAP_CTRL.DSC.put 15 (ready.kept .hdm 0 0x04C))))) ∧
    (let s := ready |> on fun d => d.setB Reg.CXL_CAP_CTRL.RUN 0 true
     s.dev.flag Reg.CXL_CAP_CTRL.RUN 0 = true ∧ s.dev.cap.armed = false) := by decide +kernel

/-- Channel `c` of the DMA enabled, with one descriptor: 32 bytes from HDM to the bulk area. -/
def descriptor (c : Nat) : State := served |> on fun d =>
  (((((((d.setJ Reg.DMA_CTRL.EN 0 c 1).setJ Reg.DMA_RING.TAIL 0 c 1).setDescWord c 0 0x11).setDescWord c 1 32).setDescWord c 2
    0x1000000).setDescWord c 4 0x1000040))

theorem witness_dma :
    (descriptor 15).Accepts .dma 0 (0x044 + 0x10 * 15) (Reg.DMA_RING.TAIL.put 63 ((descriptor 15).kept .dma 0 (0x044 + 0x10 * 15))) ∧
    (descriptor 15).dev.dmaReady 15 = true ∧ (descriptor 15).dev.sideErr 1 0x1000000 32 false = none ∧
    (descriptor 15).dev.sideErr 1 0x1000040 32 true = none ∧ ((descriptor 15).dmaSource 1 0x1000000 32 none).halt.isNone = true ∧
    ((((descriptor 15).dmaSource 1 0x1000000 32 none).state.dmaDest 15 1 0x1000040
      ((descriptor 15).dmaSource 1 0x1000000 32 none).bytes).2).isNone = true ∧
    (let s := descriptor 15 |> on fun d => d.setJ Reg.DMA_STAT.RUN 0 15 1
     s.dev.getJ Reg.DMA_STAT.RUN 0 15 = 1) ∧
    ready.Accepts .dma 0 (0x040 + 0x10 * 15) (Reg.DMA_CTRL.RESET.put 1 (ready.kept .dma 0 (0x040 + 0x10 * 15))) := by decide +kernel
theorem witness_resets : ready.Live ∧ ready.Accepts .chip0 0 0x58 0xA5000000 ∧ (held 4 0).dev.power.inReset = true ∧
    (held 2 127).dev.power.cause = 2 := by decide +kernel
theorem witness_grid :
    (let s := State.reset
     s.Live ∧ s.dev.locked = false) ∧
    (ready.Runs ∧ ready.dev.locked = true) ∧
    (let s := galley 1 ready |> on fun d => { d with formes := 15 }
     0 < s.dev.galleys ∧ s.dev.formes < 16) := by decide +kernel
theorem witness_fuses : State.reset.Live ∧ State.reset.dev.flag Reg.CHIP_SEAL.SEALED 0 = false ∧
    State.reset.dev.flag Reg.CHIP_SEAL.FAULT 0 = false ∧ State.reset.dev.get Reg.CHIP_SEAL.ATTEMPTS 0 < 3 ∧
    (let s := State.reset |> on fun d => d.set Reg.CHIP_SEAL.ATTEMPTS 0 2
     s.dev.get Reg.CHIP_SEAL.ATTEMPTS 0 = 2) := by decide +kernel
theorem witness_supply : ready.dev.bit Reg.RST_SUPPLY_STAT.WARN 0 6 = false ∧
    State.reset.Live ∧ State.reset.dev.bit Reg.RST_SUPPLY_STAT.WARN 0 0 = false ∧ State.reset.dev.flag Reg.CHIP_SEAL.SEALED 0 = false ∧
    dip.Live ∧ dip.dev.bit Reg.RST_SUPPLY_STAT.WARN 0 6 = false ∧ dip.dev.frozenSupply = true ∧ (4095 : Nat) < 4096 ∧
    (let s := ready |> on fun d => d.putBit Reg.RST_SUPPLY_STAT.WARN 0 6 true
     s.dev.bit Reg.RST_SUPPLY_STAT.WARN 0 6 = true) ∧
    dip.dev.power.goodSince = some 0 := by decide +kernel
theorem witness_rail_shown : ready.Live ∧ (1023 : Nat) < 1024 ∧ (-32768 : Int) ≤ -32768 ∧ (32767 : Int) ≤ 32767 := by decide +kernel
theorem witness_rail_levels :
    (let s := ready |> on fun d => { d with power := { d.power with avsWrite := true } }
     s.Live ∧ s.dev.power.avsWrite = true) ∧
    (let s := ready |> on fun d => { d with power := { d.power with avsWindow := some 500000 } }
     s.dev.power.avsWindow = some 500000) := by decide +kernel

/-- A part whose arbiter acts, with one carrier asking for more. -/
def asking : State := ready |> on fun d =>
  { (d.set Reg.LE_PG_STATE.REQ 7 1) with arb := { d.arb with acting := true, lastUp := some 290000 } }
def high : State := ready |> on fun d => { (d.set Reg.CHIP_VCORE_NOW.TARGET_MV 0 760) with
  arb := { d.arb with acting := true, highSince := some 0, lastDown := some 0 } }

/-- A part whose VCORE is below its warning level. -/
def falling : State := ready |> on fun d => d.putBit Reg.RST_SUPPLY_STAT.WARN 0 0 true

theorem witness_vcore : ready.Accepts .vcore 0 0x040 (Reg.CHIP_VCORE_FLOOR.FLOOR_MV.put 800 (ready.kept .vcore 0 0x040)) ∧
    asking.dev.askUp.isEmpty = false ∧ asking.dev.get Reg.CHIP_VCORE_NOW.TARGET_MV 0 < 800 ∧
    high.Runs ∧ high.dev.arb.acting = true ∧ high.dev.arb.highSince = some 0 ∧ high.dev.askUp.isEmpty = true ∧ high.dev.dipping = false ∧
    high.dev.get Reg.CHIP_VCORE_FLOOR.FLOOR_MV 0 < high.dev.get Reg.CHIP_VCORE_NOW.TARGET_MV 0 ∧
    high.dev.get Reg.CHIP_VCORE_NOW.TARGET_MV 0 < 1024 ∧ falling.Runs ∧ falling.dev.dipping = true := by decide +kernel
theorem witness_margin : ready.Runs ∧ (-32768 : Int) ≤ -32768 ∧ (32766 : Int) < 32767 ∧
    (let s := ready |> on fun d => d
     s.dev.get Reg.LE_PG_THRESH.VREQ_MARGIN 0 < s.dev.get Reg.LE_PG_HIGH.HIGH_MARGIN 0) := by decide +kernel
theorem witness_line_errors :
    (let s := ready |> on fun d => d.setB Reg.HLN_GRP_CTRL.EN 15 true
     s.Runs ∧ s.dev.grpEn 15 = true) ∧ ready.dev.flag Reg.LE_DAC_STAT.SQUELCH 7 = true ∧
    (let s := ready |> on fun d => d.setB Reg.LE_DAC_STAT.SQUELCH 7 false
     s.dev.flag Reg.LE_DAC_STAT.SQUELCH 7 = false) := by decide +kernel
/-- The receive path of line engine `n` tuned, and enabled or not. -/
def tuned (n : Nat) (on_ : Bool) : State := ready |> on fun d =>
  (d.set Reg.LE_RX_FREQ.FREQ_MHZ n 193100000).setB Reg.LE_RX_CTRL.EN n on_

theorem witness_line_requests :
    (loaded 7 ready).Accepts .tx 7 0x040 (Reg.LE_TX_CTRL.REQ.put 1 0) ∧ ready.Accepts .tx 7 0x040 (Reg.LE_TX_CTRL.REQ.put 2 0) ∧
    (txIn 7 4 (ready |> on fun d => d.modTx 7 fun t => { t with goal := 4 })).Accepts .tx 7 0x040 (Reg.LE_TX_CTRL.REQ.put 3 0) ∧
    ready.Accepts .tx 7 0x040 (Reg.LE_TX_CTRL.KILL.put 1 0) ∧ ready.Accepts .tx 7 0x040 0 := by decide +kernel
theorem witness_receive_requests :
    (let w := Reg.LE_RX_CTRL.EN.put 1 ((tuned 7 false).kept .rx 7 0x040)
     (tuned 7 false).Accepts .rx 7 0x040 w ∧ Reg.LE_RX_CTRL.REACQ.on w = false) ∧
    (let w := Reg.LE_RX_CTRL.REACQ.put 1 ((tuned 7 true).kept .rx 7 0x040)
     (tuned 7 true).Accepts .rx 7 0x040 w ∧ Reg.LE_RX_CTRL.EN.on w = true) ∧
    ready.Accepts .fec 7 0x040 (Reg.LE_FEC_CFG.RATE.put 3 (Reg.LE_FEC_CFG.CODE.put 2 0)) ∧
    ready.Accepts .fec 7 0x044 (Reg.LE_FEC_ITER.COMMIT.put 1 (ready.kept .fec 7 0x044)) ∧
    ready.Accepts .fec 7 0x08C (Reg.LE_FEC_CLEAR.CLR.put 1 (ready.kept .fec 7 0x08C)) := by decide +kernel

/-- Line engine `n` queued to start, in POWER. -/
def queued (n : Nat) (s : State) : State := txIn n 1 s |> on fun d =>
  { d.modTx n fun t => { t with goal := 4 } with lim := ⟨[⟨n, 1, 250000, false, false⟩], some 280000⟩ }
/-- Line engine `n` queued for a ramp, in RAMP. -/
def rampQueued (n : Nat) : State := txIn n 2 (queued n (galley 1 ready)) |> on fun d =>
  (((d.setBank n 0 2).setBank n 1 2).setBank n 2 2).modTx n fun t => { t with leadDone := true, goal := 4 }

theorem witness_limiter : dip.Runs ∧ (queued 7 ready).dev.firstNeed .bank = some ⟨7, 1, 250000, false, false⟩ ∧
    (queued 7 ready).dev.frozenSupply = false ∧ (rampQueued 7).dev.firstNeed .ramp = some ⟨7, 1, 250000, false, false⟩ ∧
    (rampQueued 7).dev.ramping < (rampQueued 7).dev.get Reg.CHIP_START_CTRL.MAX_RAMPS 0 := by decide +kernel
theorem witness_sequence :
    (let s := ready |> on fun d => d.setBank 7 2 1
     s.Runs ∧ s.dev.bankState 7 2 = 1) ∧
    (let s := ready |> on fun d => d.setBank 7 0 3
     s.dev.bankState 7 0 = 3) ∧ (txIn 7 2 ready).dev.txState 7 = 2 ∧
    (let s := txIn 7 3 ready |> on fun d => d.modTx 7 fun t => { t with ramp := some ⟨true, true, true, 0, 0, 64, 300000⟩ }
     s.dev.txState 7 = 3 ∧ s.dev.frozenSupply = false ∧ s.dev.reversing 7 = true) ∧ (txIn 7 5 ready).dev.txState 7 = 5 ∧
    (let s := txIn 7 7 ready
     s.dev.txState 7 = 7 ∧ (s.dev.le 7).tx.lagDone = false) ∧
    (queued 7 ready).dev.entry 7 = some ⟨7, 1, 250000, false, false⟩ := by decide +kernel
theorem witness_bit_loading :
    (loaded 7 ready).Accepts .tx 7 0x04C (Reg.LE_TX_BL_CTRL.NEGOTIATE.put 1 (Reg.LE_TX_BL_CTRL.SWITCH.put 1 0)) ∧
    (let s := galley 1 ready |> on fun d => d.modTx 7 fun t => { t with switchAt := some 0 }
     s.Runs ∧ (s.dev.le 7).tx.switchAt = some 0 ∧ 0 < s.dev.galleys ∧ reached s.dev.gnum 0 = true) ∧
    (let s := galley 1 ready |> on fun d => d.modRx 7 fun t => { t with switchAt := some 0 }
     (s.dev.le 7).rx.switchAt = some 0 ∧ (s.dev.le 7).chm.armed = none ∧ reached s.dev.gnum 0 = true) ∧
    ready.Accepts .rx 7 0x05C (Reg.LE_RX_BL_CTRL.SWITCH.put 1 (ready.kept .rx 7 0x05C)) := by decide +kernel
theorem witness_masks : ready.Accepts .tx 7 0x064 (Reg.LE_TX_MASK_CTRL.COMMIT.put 1 (ready.kept .tx 7 0x064)) ∧
    (let s := ready |> on fun d => d.set Reg.LE_TX_MASK_CTRL.SLEW_LEFT 7 1
     s.Runs ∧ s.dev.frozenSupply = false ∧ s.dev.get Reg.LE_TX_MASK_CTRL.SLEW_LEFT 7 = 1 ∧
       1 < pow2 Reg.LE_TX_MASK_CTRL.SLEW_LEFT.width) ∧
    (let s := ready |> on fun d => d.modFec 7 fun f => { f with iterPend := some 15 }
     (s.dev.le 7).fec.iterPend = some 15) := by decide +kernel
theorem witness_transmit_states : (txIn 7 1 ready).dev.txState 7 = 1 ∧ (txIn 7 6 ready).dev.txState 7 = 6 ∧ ready.dev.txState 7 ≤ 8 ∧
    (txIn 7 8 ready).dev.txState 7 ≤ 8 := by decide +kernel
theorem witness_acquisition : ready.Runs ∧
    (let s := rxIn 7 2 ready |> on fun d => d.setB Reg.LE_RX_STAT.LOS 7 false
     s.dev.rxState 7 = 2 ∧ s.dev.flag Reg.LE_RX_STAT.LOS 7 = false) ∧
    (rxIn 7 3 ready).dev.rxState 7 = 3 ∧ ([8000000, -8000001, -8000000].filter ((rxIn 7 3 ready).dev.searchCovers 7)).length = 2 ∧
    (rxIn 7 4 ready).dev.rxState 7 = 4 ∧ (-5000 : Int).natAbs ≤ 5000 ∧
    (rxIn 7 5 ready).dev.rxState 7 = 5 ∧ (rxIn 7 6 ready).dev.rxState 7 = 6 ∧ (rxIn 7 7 ready).dev.rxState 7 = 7 ∧
    (rxIn 7 8 ready).dev.rxState 7 = 8 ∧ (rxIn 7 9 ready).dev.rxState 7 = 9 := by decide +kernel
theorem witness_receive_galleys :
    (let s := ready |> on fun d => (d.setB Reg.LE_CDE_CTRL.MODE 7 true).modRx 7 fun r => { r with dNext := some 800 }
     s.Runs ∧ s.dev.cdeManual 7 = true ∧ (s.dev.le 7).rx.dNext = some 800) ∧
    (let s := rxIn 7 9 ready |> on fun d => d.set Reg.LE_RX_PRBS.MODE 7 1
     0 < s.dev.get Reg.LE_RX_PRBS.MODE 7 ∧ s.dev.rxState 7 ≠ 8) := by decide +kernel

/-- Line engine 7 in a receive state, with samples lost or not. -/
def hunting (st : Nat) (lost : Bool) : State := rxIn 7 st ready |> on fun d =>
  (d.set Reg.LE_FEC_CFG.CODE 7 0).modRx 7 fun r => { r with gaps := if lost then [(0, 10)] else [] }
/-- A forme without symbols. -/
def noSymbols : Received := ⟨0, [], []⟩
/-- The decoded forme leaves the state of the receive path as it is. -/
theorem witness_decoded (s : State) (w : Decoded) : ((s.dev.fecForme 7 w).setB Reg.LE_FEC_STAT.RUN 7 true).rxState 7 =
    (s.dev.setB Reg.LE_FEC_STAT.RUN 7 true).rxState 7 := rfl
theorem witness_formes : (hunting 8 true).Runs ∧
    (let f := (hunting 8 true).dev.sampleCount 7 noSymbols.first
     (hunting 8 true).dev.gapWithin 7 f (f + 327680) = true) ∧
    (let f := (hunting 8 false).dev.sampleCount 7 noSymbols.first
     (hunting 8 false).dev.gapWithin 7 f (f + 327680) = false) ∧
    (hunting 8 false).dev.rxState 7 = 8 ∧ (hunting 9 false).dev.rxState 7 = 9 ∧ (hunting 8 false).dev.get Reg.LE_RX_PRBS.MODE 7 ≠ 2 ∧
    (hunting 8 false).dev.trellis 7 = false ∧ ((hunting 8 false).dev.setB Reg.LE_FEC_STAT.RUN 7 true).rxState 7 = 8 ∧
    ((hunting 9 false).dev.setB Reg.LE_FEC_STAT.RUN 7 true).rxState 7 = 9 ∧
    (let s := hunting 9 false |> on fun d => d.set Reg.LE_RX_PRBS.MODE 7 2
     s.dev.get Reg.LE_RX_PRBS.MODE 7 = 2 ∧ s.dev.rxState 7 = 9) ∧
    (let s := hunting 7 false |> on fun d => d.set Reg.LE_FEC_CFG.CODE 7 2
     s.dev.trellis 7 = true ∧ s.dev.rxState 7 = 7) := by decide +kernel
theorem witness_performance : ready.Runs ∧ ready.dev.flag Reg.FRM_PM_STAT.CLR_PEND 0 = false ∧
    (let s := ready |> on fun d => d.modFrm 0 fun f => { f with pm := { f.pm with wait := [⟨0, 0, 5, true, false, false, 0, false⟩] } }
     (s.dev.le 0).frm.pm.wait = [⟨0, 0, 5, true, false, false, 0, false⟩]) ∧
    (let w := Reg.FRM_PM_CTRL.CLR.put 1 ((ready |> on fun d => d.setB Reg.FRM_PM_CTRL.EN 0 true).kept .frmc 0 0x040)
     (ready |> on fun d => d.setB Reg.FRM_PM_CTRL.EN 0 true).Accepts .frmc 0 0x040 w ∧ Reg.FRM_PM_CTRL.EN.on w = true) := by decide +kernel

/-- A received forme of carrier `n`, galley 5, forme 15. -/
def forme (n : Nat) : RxForme := ⟨n, 5, 15, 310000, 309000, [], [], []⟩
/-- The receive map uses carrier 7, whose forme is held. -/
def delivered : State := ready |> on fun d =>
  { d with fmx := { d.fmx with rx := { d.fmx.rx with map := [(7 * 128, 0x80000000)] } }, path := { d.path with rxFormes := [forme 7] } }
/-- The same with carrier 7 late and aligned. -/
def lateForme : State := delivered |> on fun d =>
  ((d.setB Reg.FRM_ALIGN_STAT.GA 7 true).modPath fun x => { x with rxFormes := [forme 6] })

theorem witness_deskew : delivered.dev.rxCarriers = [7] ∧ (delivered.dev.heldForme 7 5 15).isSome = true ∧
    delivered.dev.firstArrival 5 15 = some 310000 ∧ lateForme.dev.deskewLate 5 15 = [7] ∧ lateForme.dev.path.overFlows = [] ∧
    (lateForme.dev.rxGalleyTo 5).get Reg.FMX_DSK_ERR.OVER 0 < 65535 ∧
    (let s := ready |> on fun d => { d with fmx := { d.fmx with job := some ⟨reasonPlanned, 0⟩ } }
     s.Runs ∧ s.dev.fmx.job = some ⟨reasonPlanned, 0⟩) ∧ ready.Accepts .fmxB 0 0x068 255 := by decide +kernel

/-- A map that switches two galleys after galley 3, and the transmit galley. -/
def announced (g : Nat) : State := ready |> on fun d =>
  { d with gnum := g, fmx := { d.fmx with switching := some ⟨1, PlacedMap.reset, 0, some 3⟩, arm := some ⟨6, PlacedMap.reset, false⟩ } }
/-- Carrier 7 is the one member; its copy of galley 5. -/
def copied (c : Option GalleyCopy) : State := ready |> on fun d =>
  (d.set Reg.FMX_BND_STAT.MEMBERS 0 0x80).modFrm 7 fun f => { f with copies := [(5, c)] }
def knownBsig : List Nat := 1 :: List.replicate 63 0
theorem witness_maps : (announced 5).Runs ∧ (announced 5).dev.locked = true ∧
    (copied none).dev.anyMember = true ∧ (copied none).dev.fmx.bsigAt ≠ some 5 ∧
    (∀ n : Fin 8, (copied none).dev.member n.val = true →
      (copied none).dev.bsigOn n.val 5 = none ∧ (copied none).dev.copyLost n.val 5 = true) ∧
    (copied (some ⟨5, knownBsig, [1], []⟩)).dev.fmx.bsigAt ≠ some 5 ∧
    ((allLe.filter (copied (some ⟨5, knownBsig, [1], []⟩)).dev.member).filterMap fun n =>
      ((copied (some ⟨5, knownBsig, [1], []⟩)).dev.bsigOn n 5).map fun b => (n, b)).head? = some (7, knownBsig) ∧ bsigKnown knownBsig = true ∧
    (announced 4).dev.fmx.switching = some ⟨1, PlacedMap.reset, 0, some 3⟩ ∧ (announced 4).dev.gnum ≠ (3 + 2) % pow2 32 ∧
    (announced 5).dev.gnum = (3 + 2) % pow2 32 ∧ (announced 5).dev.fmx.arm = some ⟨6, PlacedMap.reset, false⟩ := by decide +kernel

/-- A planned switch that waits, and a carrier that departs. -/
def planned : State := ready |> on fun d => (d.setB Reg.FMX_MAP_CTRL.COMMIT 0 true).modFmx fun x => { x with plannedAt := some 300000 }
def departing (t : Option Nat) (rx : Bool) : State := ready |> on fun d => d.modFmx fun x =>
  { x with departing := 0x80, departs := [(7, ⟨t, rx⟩)] }
theorem witness_planned : ready.Accepts .fmxB 0 0x064 (Reg.FMX_MAP_CTRL.COMMIT.put 1 (ready.kept .fmxB 0 0x064)) ∧
    Reg.FMX_MAP_CTRL.CANCEL.on (Reg.FMX_MAP_CTRL.COMMIT.put 1 (ready.kept .fmxB 0 0x064)) = false ∧
    planned.Accepts .fmxB 0 0x064 (Reg.FMX_MAP_CTRL.CANCEL.put 1 (planned.kept .fmxB 0 0x064)) ∧
    Reg.FMX_MAP_CTRL.COMMIT.on (Reg.FMX_MAP_CTRL.CANCEL.put 1 (planned.kept .fmxB 0 0x064)) = false ∧
    planned.dev.fmx.plannedAt = some 300000 ∧ planned.dev.plannedPending = true ∧ planned.dev.fmx.plannedSaid = false := by
  decide +kernel
theorem witness_departures :
    (let s := ready |> on fun d => d.set Reg.FMX_BND_STAT.MEMBERS 0 0xFF
     s.Accepts .fmxB 0 0x044 (Reg.FMX_BND_CTRL.RETURN.put 255 (s.kept .fmxB 0 0x044))) ∧
    (departing (some 1) true).Runs ∧ (departing (some 1) true).dev.isDeparting 7 = true ∧ (departing (some 1) true).dev.departureMet 7 = true ∧
    Store.get (fun _ => (⟨none, false⟩ : Depart)) (departing (some 1) false).dev.fmx.departs 7 = ⟨some 1, false⟩ := by decide +kernel

/-- Group 15 enabled with its eight lanes, its state and its lanes' states. -/
def grouped (g lane : Nat) : State := ready |> on fun d =>
  d.over allLe (fun l d => d.setJ Reg.HLN_LANE_STAT.STATE 15 l lane) |> fun d =>
    ((((d.setB Reg.HLN_GRP_CTRL.EN 15 true).set Reg.HLN_GRP_CTRL.LANE_EN 15 255).set Reg.HLN_GRP_STAT.GSTATE 15 g).set
      Reg.HLN_GRP_STAT.LANES 15 255)
/-- The symbols of a rimshot that carries a field word. -/
def rim (w : Nat) : List (Fin 4) := (rimshotLevels (withCheck w)).map (Fin.ofNat 4 ·)
def levelsOf (k : List (Fin 4)) : List Nat := k.map (·.val)

theorem witness_lane_commands :
    ready.Accepts .hlnG 15 0x040 (Reg.HLN_GRP_CTRL.EN.put 1 (ready.kept .hlnG 15 0x040)) ∧
    ready.Accepts .hlnG 15 0x040 (Reg.HLN_GRP_CTRL.RETRAIN.put 1 (ready.kept .hlnG 15 0x040)) ∧
    ready.Accepts .hlnG 15 0x040 (Reg.HLN_GRP_CTRL.REJOIN.put 1 (ready.kept .hlnG 15 0x040)) := by decide +kernel
theorem witness_rimshots : (grouped 1 1).Runs ∧ (grouped 1 1).dev.grpEn 15 = true ∧ (grouped 1 1).dev.boundLane 15 7 = none ∧
    readRimshot (levelsOf []) = none ∧ readRimshot (levelsOf (rim 0)) = some (0, false) ∧ bitsOf 0 12 4 ≠ 15 ∧
    readRimshot (levelsOf (rim 0xF000)) = some (0xF00F, false) ∧ bitsOf 0xF00F 12 4 = 15 ∧ bitsOf 0xF00F 9 3 = 0 ∧
    readRimshot (complement (levelsOf (rim 0xF000))) = some (0xF00F, true) ∧
    (let s := grouped 1 2 |> on fun d => (d.setJ Reg.HLN_LANE_STAT.BOUND 15 0 1).setJ Reg.HLN_LANE_STAT.RX_PHYS 15 0 5
     s.dev.getJ Reg.HLN_LANE_STAT.BOUND 15 0 = 1 ∧ s.dev.getJ Reg.HLN_LANE_STAT.RX_PHYS 15 0 ≠ 7) ∧
    (grouped 1 1).dev.getJ Reg.HLN_LANE_STAT.BOUND 15 0 = 0 ∧ ((grouped 1 1).dev.boundLane 15 7).any (· != 0) = false := by decide +kernel
theorem witness_lanes :
    (grouped 1 2).dev.laneState 15 7 = 2 ∧ 0 < (grouped 1 2).dev.get Reg.HLN_GRP_TRAIN.SNR_MIN 15 ∧
    ((grouped 1 2).dev.lane 15 7).tuned = false ∧
    (grouped 1 2).dev.laneTimeoutNs 15 7 = some 300000000 ∧ (grouped 1 2).dev.laneState 15 7 ≠ 3 ∧
    (let s := grouped 1 2 |> on fun d => d.modLane 15 7 fun x => { x with ready := true }
     s.dev.laneState 15 7 = 2 ∧ s.dev.grpRun 15 = false ∧ s.dev.get Reg.HLN_GRP_TRAIN.SNR_MIN 15 ≤ 65535 ∧ (s.dev.lane 15 7).ready = true) ∧
    (let s := grouped 1 0 |> on fun d => d.modLane 15 7 fun x => { x with backoffOver := false }
     s.dev.laneState 15 7 = 0 ∧ (s.dev.lane 15 7).backoffOver = false) := by decide +kernel
theorem witness_groups : (grouped 1 3).dev.alignReady 15 = true ∧
    (allLe.any fun l => (grouped 1 3).dev.laneState 15 l == 3 && decide (16 < [17, 0, 0, 0, 0, 0, 0, 0].getD l 0)) = true ∧
    (let s := grouped 2 4 |> on fun d => d.over allLe (fun l d => d.modLane 15 l fun x => { x with peer := 3 }) |> fun d =>
       d.modGrp 15 fun x => { x with goodRun := 3 }
     s.Runs ∧ s.dev.runReady 15 = true) ∧ 2 ≤ (grouped 2 4).dev.gstate 15 ∧ (grouped 1 3).dev.gstate 15 < 2 ∧
    (grouped 3 4).dev.laneState 15 7 = 4 ∧ (grouped 3 4).dev.lossHolds 15 7 1 = true ∧
    (let s := grouped 3 4 |> on fun d => d.modLane 15 7 fun x => { x with misses := 2, symErrs := [4097] }
     s.dev.lossHolds 15 7 2 = true ∧ s.dev.lossHolds 15 7 3 = true) ∧
    (let s := grouped 3 4 |> on fun d => d.modGrp 15 fun x => { x with noHdr := some 128 }
     s.dev.grpRun 15 = true ∧ (s.dev.grp 15).noHdr = some 128) ∧
    (let s := grouped 3 4 |> on fun d => d.modGrp 15 fun x => { x with sinceSwitch := some 128 }
     s.dev.grpRun 15 = true ∧ (s.dev.grp 15).noHdr = none ∧ (s.dev.grp 15).sinceSwitch = some 128) ∧
    (let s := ready |> on fun d => d.setJ Reg.HLN_LANE_CTRL.TEST 15 7 3
     testSeq (s.dev.getJ Reg.HLN_LANE_CTRL.TEST 15 7) = some prbs31) := by decide +kernel
theorem witness_pair_merge :
    (let s := ready |> on fun d => d.modPath fun x => { x with merge := [(1023, [⟨1023, 5, false, false, false, false, false, [], 300000⟩])] }
     Store.get (fun _ => []) s.dev.path.merge 1023 = [⟨1023, 5, false, false, false, false, false, [], 300000⟩]) := by decide +kernel
theorem witness_buffer_errors : decodePage (pageOf .pace 7) = some (.pace, 7) ∧ ready.dev.pageServed (pageOf .pace 7) = true ∧
    ready.dev.flag Hdr.CTRL.ENABLE (pageOf .pace 7) = true := by decide +kernel

/-- Tympan locked to 1PPS_IN. -/
def pps : State := ready |> on fun d =>
  ((((d.set Reg.TYM_CTRL.SRC 0 1).set Reg.TYM_STAT.STATE 0 2).setB Reg.TYM_PPS_IN_STAT.PPS_OK 0 true).modTym fun x =>
    { x with ppsExp := some 0 }).setB Reg.TYM_EXT_CTRL.TOD_EN 0 true
theorem witness_time_commands : ready.Accepts .tymC 0 0x040 2 ∧ ready.Accepts .tymC 0 0x040 0 ∧
    (let s := ready |> on fun d => d.set Reg.TYM_INCR_HI.INCR_HI 0 0x20
     s.Accepts .tymC 0 0x048 1) ∧ ready.Accepts .tymT 0 0x05C 1 ∧ ready.Accepts .tymT 0 0x05C 2 ∧
    (let s := ready |> on fun d => d.modTym fun x => { x with step := some ⟨5, 65536⟩ }
     s.Runs ∧ s.dev.tym.step.isSome = true) := by decide +kernel
theorem witness_servo :
    (let s := pps |> on fun d => d.modTym fun x => { x with ppsCap := some 200000000, ppsNew := true }
     s.Runs ∧ s.dev.tymState = 2 ∧ s.dev.tym.step = none ∧ s.dev.src = 1 ∧ s.dev.tym.ppsNew = true ∧
       (s.dev.get Reg.TYM_SERVO.STEP_NS 0 : Int) * 65536 < s.dev.servoOffset.natAbs) ∧
    (let s := pps |> on fun d => d.modTym fun x => { x with ppsCap := some 0, ppsNew := true }
     s.dev.servoOffset.natAbs ≤ (s.dev.get Reg.TYM_SERVO.STEP_NS 0 : Int) * 65536) ∧
    (let s := pps |> on fun d => (d.set Reg.TYM_CTRL.SRC 0 2).set Reg.TYM_STAT.STATE 0 1
     s.dev.src = 2 ∧ s.dev.applyPeerStep.tymState = 1 ∧ s.dev.applyPeerStep.tym.step = none ∧ s.dev.applyPeerStep.src = 2) := by decide +kernel
theorem witness_time_events :
    (let s := pps |> on fun d => d.set Reg.TYM_STAT.STATE 0 3
     s.Runs ∧ s.dev.tymState = 3 ∧ s.dev.tym.holdSaid = false) ∧
    pps.dev.flag Reg.TYM_PPS_IN_STAT.PPS_OK 0 = true ∧ inWindow (pps.dev.tym.ppsExp.getD second16) second16 = true ∧
    pps.dev.tym.ppsExp = some 0 ∧ pps.dev.flag Reg.TYM_EXT_CTRL.TOD_EN 0 = true ∧ pps.dev.tym.todSaid = false ∧
    (⟨false, true, 5⟩ : TodMessage).sumOk = false ∧ (⟨true, true, 5⟩ : TodMessage).timeEvent = true ∧
    (ready |> on fun d => d.setB Reg.TYM_EXT_CTRL.TOD_EN 0 false).dev.flag Reg.TYM_EXT_CTRL.TOD_EN 0 = false ∧ ready.dev.tym.tcalAt = none ∧
    ready.dev.locked = true := by decide +kernel

/-- Flow 1023 is a TYPE 2 flow of the home bank, and the span-transparent clock is on. -/
def clocked : State := ready |> on fun d => (d.setB Reg.TYM_TC_CTRL.EN 0 true).setTab 0x211 (2 + d.homeTx) 1023 0 0x82000001
/-- A Sync message in an Ethernet frame, the same with a correction out of range, and a frame of another type. -/
def syncFrame : List Byte := List.replicate 12 0 ++ [0x88, 0xF7, 0x00, 0x02, 0x00, 0x2C] ++ List.replicate 44 0
def farFrame : List Byte := List.replicate 12 0 ++ [0x88, 0xF7, 0x00, 0x02, 0x00, 0x2C, 0, 0, 0, 0, 0x7F] ++ List.replicate 39 0
def otherFrame : List Byte := List.replicate 12 0 ++ [0x86, 0x00] ++ List.replicate 46 0
/-- The frame waits for the line, and for a block to the host; its edges are reported. -/
def framed (f : List Byte) : State := clocked |> on fun d =>
  let cells := (frameCells (natsOf f)).map fun p => (⟨1023, 5, true, false, false, false, false, p, 300000⟩ : Cell)
  (d.modPath fun x => { x with toLine := [(1023, cells)], toHost := allGroups.map fun g => (g, cells) }).over allGroups fun g d =>
    d.modGrp g fun x => { x with reports := [⟨false, 1023, 5, 0, 0, 0, 300000⟩, ⟨true, 1023, 5, 0, 0, 0, 400000⟩] }
/-- The same with a valid offset of the span. -/
def spanned (f : List Byte) (peer : Option PeerStep) : State := framed f |> on fun d =>
  (d.setB Reg.TYM_SPAN_STAT.VALID 0 true).modTym fun x => { x with peer := peer }

theorem witness_ptp_ingress : (framed syncFrame).Runs ∧ (framed syncFrame).dev.tcOn 1023 = true ∧
    (runFirst 1023 (frameCells (natsOf syncFrame)) (Store.get (fun _ => []) (framed syncFrame).dev.path.toLine 1023)).any (·.ptp) = true ∧
    ptpParse (natsOf syncFrame) = .event 14 none ∧ ptpParse (natsOf farFrame) = .event 14 none ∧
    ((framed syncFrame).dev.ptpEdge false 1023 5).isSome = true ∧
    (corrField (natsOf syncFrame) 14).natAbs < 4096 * 1000000000 * 65536 ∧
    4096 * 1000000000 * 65536 ≤ (corrField (natsOf farFrame) 14).natAbs := by decide +kernel
theorem witness_ptp_egress :
    ((framed otherFrame).dev.egressFirst 1023 (frameCells (natsOf otherFrame))).any (·.ptp) = true ∧ ptpParse (natsOf otherFrame) = .unparsed ∧
    ((framed syncFrame).dev.egressFirst 1023 (frameCells (natsOf syncFrame))).any (·.ptp) = true ∧
    ((framed syncFrame).dev.applyPeerStep.ptpEdge true 1023 5).isSome = true ∧
    (framed syncFrame).dev.applyPeerStep.flag Reg.TYM_SPAN_STAT.VALID 0 = false ∧
    (let d := (spanned syncFrame (some ⟨399000, 5, 0, true⟩)).dev.applyPeerStep
     d.flag Reg.TYM_SPAN_STAT.VALID 0 = true ∧ (d.ptpEdge true 1023 5).any (fun e => d.stepGuard (d.departureTime e)) = true) ∧
    (let d := (spanned syncFrame none).dev.applyPeerStep
     d.flag Reg.TYM_SPAN_STAT.VALID 0 = true ∧ (d.ptpEdge true 1023 5).any (fun e =>
       let t := d.departureTime e
       let x := corrField (natsOf syncFrame) 14 + corrM (t - d.thetaAt t)
       !d.stepGuard t && decide (-(corrModulus / 2) ≤ x) && decide (x < corrModulus / 2)) = true) := by decide +kernel

/-- Line engine 7 hears; it permits a chime, with a report pending. -/
def hearing : State := rxIn 7 9 ready |> on fun d => d.setB Reg.LE_RX_STAT.CHIME 7 true
def chiming : State := txIn 7 6 ready |> on fun d => (d.modChm 7 fun c =>
  { c with helloSent := true, pend := [(tyReport, List.replicate 46 0)], absFrom := some 0 })
def proposing (asked : Bool) : State := chiming |> on fun d => (d.setB Reg.LE_TX_BL_CTRL.SWITCH 7 asked).modChm 7 fun c =>
  { c with proposal := some ⟨[], 600, 0, 0, false, false⟩ }
theorem witness_chime_sent : hearing.Runs ∧ hearing.dev.hears 7 = true ∧ (hearing.dev.le 7).chm.heard = none ∧
    hearing.dev.flag Reg.LE_RX_STAT.CHIME 7 = true ∧ chiming.dev.permits 7 = true ∧
    (chiming.dev.le 7).chm.nextPacket = some (tyReport, List.replicate 46 0) ∧ tyReport ≠ tyTransfer ∧
    (let s := ready |> on fun d => d.modTym fun x => { x with step := some ⟨5, 65536⟩ }
     s.dev.tym.step = some ⟨5, 65536⟩) ∧
    ((proposing false).dev.le 7).chm.proposal = some ⟨[], 600, 0, 0, false, false⟩ ∧
    ((proposing false).dev.until 100000000).now < 1000000000 ∧ (proposing true).dev.flag Reg.LE_TX_BL_CTRL.SWITCH 7 = true ∧
    hearing.dev.rxLocked 7 = true ∧ (chiming.dev.le 7).chm.absFrom = some 0 ∧ chiming.dev.flag Reg.LE_CHM_STAT.ABSENT 7 = false := by
  decide +kernel

/-- Two eligible carriers, and a transfer that has been sent `n` times on carrier 7. -/
def sending (n : Nat) : State := ready |> on fun d =>
  let elig (n : Nat) (d : Dev) : Dev := ((d.set Reg.LE_TX_STAT.STATE n 4).setB Reg.LE_RX_STAT.CHIME n true).setLe n { d.le n with partner := true }
  let d := elig 7 (elig 0 d)
  { d with chime := { d.chime with xfers := [⟨0x10, [1], 9, 0, n, 7, 300000, 300000⟩], partials := [⟨9, 0x10, 2, [], 300000, 7, false⟩] } }
theorem witness_transfers : (sending 5).Runs ∧ (sending 5).dev.chime.xfers = [⟨0x10, [1], 9, 0, 5, 7, 300000, 300000⟩] ∧
    (sending 5).dev.eligibles = [0, 7] ∧ (sending 4).dev.chime.xfers = [⟨0x10, [1], 9, 0, 4, 7, 300000, 300000⟩] ∧
    ((sending 4).dev.until 100300000).eligibleAfter 7 = some 0 ∧
    ((sending 4).dev.chime.partials.find? fun p => p.xid == 9) = some ⟨9, 0x10, 2, [], 300000, 7, false⟩ := by decide +kernel

/-- Line engine 7 hears its partner. -/
def partnered : State := hearing |> on fun d => d.setLe 7 { d.le 7 with partner := true }
/-- A packet of a type with a payload of zeros, numbered 0. -/
def packet (type len : Nat) : List Byte := (packetBytes type 7 0 0 (List.replicate len 0)).map (BitVec.ofNat 8)
theorem witness_packet_report : partnered.dev.PacketTaken 7 tyReport (natsOf (packet tyReport 46)) := by decide +kernel
theorem witness_packet_notice : partnered.dev.PacketTaken 7 tyNotice (natsOf (packet tyNotice 17)) := by decide +kernel
theorem witness_packet_propose : partnered.dev.PacketTaken 7 tyPropose (natsOf (packet tyPropose 72)) := by decide +kernel
theorem witness_packet_answer : partnered.dev.PacketTaken 7 tyAnswer (natsOf (packet tyAnswer 8)) := by decide +kernel
theorem witness_packet_snr : partnered.dev.PacketTaken 7 tySnr (natsOf (packet tySnr 64)) := by decide +kernel
theorem witness_packet_transfer : partnered.dev.PacketTaken 7 tyTransfer (natsOf (packet tyTransfer 8)) := by decide +kernel
theorem witness_packet_receipt : partnered.dev.PacketTaken 7 tyReceipt (natsOf (packet tyReceipt 4)) := by decide +kernel
/-- A packet of line engine 7 on line engine 0, with an event just raised and not. -/
theorem witness_miswired :
    (let s := rxIn 0 9 ready
     s.Runs ∧ s.dev.hears 0 = true ∧ headerOk (natsOf (packet tyReceipt 4)) = true ∧ payloadOk (natsOf (packet tyReceipt 4)) = true ∧
       (natsOf (packet tyReceipt 4)).getD 0 0 = tyReceipt ∧ (natsOf (packet tyReceipt 4)).getD 2 0 % 8 ≠ 0 ∧
       since (s.dev.le 0).chm.miswireAt s.dev.now 1000000000 = true) ∧
    (let s := rxIn 0 9 ready |> on fun d => d.modChm 0 fun c => { c with miswireAt := some 299999 }
     since (s.dev.le 0).chm.miswireAt s.dev.now 1000000000 = false) := by decide +kernel
theorem witness_hello : hearing.dev.hears 7 = true ∧ headerOk (natsOf (packet tyHello 52)) = true ∧
    payloadOk (natsOf (packet tyHello 52)) = true ∧ (natsOf (packet tyHello 52)).getD 2 0 % 8 = 7 ∧
    lenOk tyHello (payloadOf (natsOf (packet tyHello 52))).length = true ∧ hearing.dev.partnerIdent = none ∧
    (hearing.dev.le 7).chm.resetSeen = none ∧ headerOk (natsOf (List.replicate 14 1)) = false := by decide +kernel

/-- A part with its cipher; slot `k` in state `st`. -/
def keyed (k st : Nat) : State := ready |> on fun d =>
  ((d.setB Reg.CHIP_FEATURE.CIPHER 0 true).setSlot k { KeySlot.reset with state := st }).setB Reg.CAR_ID_STAT.READY 0 true
/-- The same with command `op` running on slot `k`. -/
def working (op k st : Nat) : State := keyed k st |> on fun d => (d.setB Reg.CAR_CMD_STAT.BUSY 0 true).modVault fun v => { v with op := op, arg := k }
theorem witness_key_commands : (keyed 0 0).Accepts .car 0 0x040 (Reg.CAR_CMD.OP.put 1 0) ∧
    (keyed 0 0).Accepts .car 0 0x040 (Reg.CAR_CMD.OP.put 2 4093) ∧
    (let s := keyed 4093 2 |> on fun d => d.setTab 0x51 0x01 1023 0 0x80000000
     s.Accepts .car 0 0x040 (Reg.CAR_CMD.OP.put 3 4093)) ∧
    (keyed 0 2).Accepts .car 0 0x040 (Reg.CAR_CMD.OP.put 4 0) ∧ (keyed 0 2).Accepts .car 0 0x040 (Reg.CAR_CMD.OP.put 5 4095) ∧
    (keyed 0 3).Accepts .car 0 0x040 (Reg.CAR_CMD.OP.put 6 0) ∧ (keyed 0 0).Accepts .car 0 0x040 (Reg.CAR_CMD.OP.put 7 0) ∧
    (keyed 0 0).Accepts .car 0 0x040 (Reg.CAR_CMD.OP.put 8 0) := by decide +kernel
theorem witness_trust_commands :
    ready.Accepts .trust 0 0x044 (Reg.CAR_TRUST_CMD.OP.put 1 0) ∧ ready.Accepts .trust 0 0x044 (Reg.CAR_TRUST_CMD.OP.put 2 0) ∧
    ready.Accepts .trust 0 0x044 (Reg.CAR_TRUST_CMD.OP.put 3 0) ∧
    (let s := ready |> on fun d => (d.setB Reg.CAR_TRUST_STAT.BUSY 0 true).modTrust fun t => { t with cmd := 3 }
     s.Runs ∧ s.dev.flag Reg.CAR_TRUST_STAT.BUSY 0 = true ∧ s.dev.trust.cmd = 3 ∧ s.dev.rangeFails 6 0 (regionSize 6) = false) := by decide +kernel
/-- A received galley whose KSIG has its version. -/
def signalled : State := ready |> on fun d => (d.set Reg.FMX_BND_STAT.MEMBERS 0 0x80).modFrm 7 fun f =>
  { f with copies := [(5, some ⟨5, [], [1], []⟩)] }
theorem witness_key_events : (working 1 0 0).Runs ∧ (working 1 0 0).dev.carOp = 1 ∧ (working 1 0 0).dev.frozenSupply = false ∧
    (working 1 0 0).dev.idReady = true ∧ (working 1 0 0).dev.rangeFails 6 0 (regionSize 6) = false ∧
    (let s := working 1 0 0 |> on fun d => d.setB Reg.RST_FREEZE.ACTIVE 0 true
     s.dev.carOp = 1 ∧ s.dev.frozenSupply = true ∧ s.dev.rangeFails 6 0 (regionSize 6) = false) ∧
    (let s := working 4 0 2 |> on fun d => d.modVault fun v => { v with erasing := [0] }
     s.dev.vault.erasing ≠ []) ∧
    (let s := keyed 0 0 |> on fun d => d.modVault fun v => { v with transport := some ⟨9, [], true⟩ }
     s.dev.vault.transport = some ⟨9, [], true⟩ ∧ s.dev.frozenSupply = false ∧ s.dev.idReady = true ∧
       s.dev.rangeFails 6 0 (regionSize 6) = false) ∧
    signalled.dev.ksigOf 5 = some [1] ∧ (keyed 4092 3).dev.switchDue 1023 0 = true ∧
    (working 2 4093 1).dev.carOp = 2 ∧ ((working 2 4093 1).dev.slot 4093).state = 1 ∧
    (working 2 4093 1).dev.vault.arg = 4093 ∧ (working 2 4093 1).dev.frozenSupply = false ∧ (working 2 4093 1).dev.idReady = true ∧
    (working 2 4093 1).dev.rangeFails 6 0 (regionSize 6) = false := by decide +kernel

/-- A part whose firmware may boot: DEV lifecycle, sealed. -/
def bootable (st : Nat) : State := ready |> on fun d => (d.set Reg.MCU_BOOT_STAT.STATE 0 st).set Reg.MCU_LIFECYCLE.STATE 0 1
theorem witness_boot : (bootable 0).Runs ∧ (bootable 0).dev.flag Reg.CHIP_SEAL.SEALED 0 = true ∧ (bootable 0).dev.bootState = 0 ∧
    (let s := bootable 0 |> on fun d => d.set Reg.MCU_LIFECYCLE.STATE 0 3
     s.dev.boots = false) ∧ (bootable 2).dev.deriving_ = true ∧ (bootable 2).dev.boots = true ∧
    (bootable 3).Accepts .mcu 0 0x050 (Reg.MCU_BOOT_CMD.OP.put 1 1) ∧ (bootable 3).Accepts .mcu 0 0x050 (Reg.MCU_BOOT_CMD.OP.put 1 4096) ∧
    (let s := ready |> on fun d => d.setBad 3 0x100 ⟨7, 0⟩
     (s.dev.badByte 3 0x100).fails 3 = true) ∧
    (let s := ready |> on fun d => d.modEcc fun x => { x with cores := [(3, 1)] }
     Store.get (fun _ => 0) s.dev.ecc.cores 3 = 1) := by decide +kernel

/-- A calibration of kind `k` of line engine 7 in a phase. -/
def calibrating (k phase : Nat) : State := ready |> on fun d =>
  (((d.setB Reg.CAL_CMD_STAT.BUSY 0 true).set Reg.CAL_CMD_STAT.KIND 0 k).set Reg.CAL_CMD_STAT.LE 0 7).set Reg.CAL_CMD_STAT.PHASE 0 phase
/-- The words of an ADC set whose fields all lie within their ranges: gains of 1, no offset, no skew. -/
def adcWords : List Nat :=
  [0, 0] ++ (List.replicate 4 [0, 0x40000000]).flatten ++ List.replicate 4 0x40000000
theorem witness_cal_commands : ready.Accepts .cal 0 0x040 (Reg.CAL_CMD.OP.put 1 (Reg.CAL_CMD.KIND.put 1 7)) ∧
    ready.Accepts .cal 0 0x040 (Reg.CAL_CMD.OP.put 1 (Reg.CAL_CMD.KIND.put 4 7)) ∧
    ready.Accepts .cal 0 0x040 (Reg.CAL_CMD.OP.put 1 (Reg.CAL_CMD.KIND.put 5 0)) ∧ ready.Accepts .cal 0 0x040 (Reg.CAL_CMD.OP.put 2 0) ∧
    (calibrating 1 5).Accepts .cal 0 0x040 (Reg.CAL_CMD.OP.put 3 0) := by decide +kernel
theorem witness_calibration : (calibrating 1 3).Runs ∧ (calibrating 1 3).dev.calIn 3 = true ∧ (calibrating 2 4).dev.calIn 4 = true ∧
    (calibrating 2 5).dev.calIn 5 = true ∧ (calibrating 2 5).dev.calKind < 3 ∧
    setRangesOk 1 ((calibrating 1 5).dev.setHead 1 7 ++ (List.range (setLen 1 - 3)).map fun i => trunc 32 (adcWords.getD i 0)) = true ∧
    (calibrating 2 6).dev.calIn 6 = true ∧ (calibrating 2 6).dev.calKind ≤ 2 ∧ (calibrating 4 6).dev.calIn 6 = true ∧
    2 < (calibrating 4 6).dev.calKind ∧ (calibrating 3 5).dev.calIn 5 = true ∧ (calibrating 3 5).dev.calKind = 3 := by decide +kernel

theorem witness_monitor : ready.Accepts .mon 0 0x040 (Reg.MON_SEQ_CTRL.GO.put 1 (ready.kept .mon 0 0x040)) ∧
    (let s := ready |> on fun d => d.set Reg.MON_SEQ_CTRL.TRIG 0 1
     s.Runs ∧ s.dev.get Reg.MON_SEQ_CTRL.TRIG 0 = 1) ∧
    (let s := ready |> on fun d => { d with mon := { d.mon with busy := 1 } }
     s.dev.mon.busy = 1) ∧
    (let s := ready |> on fun d => { d with mon := { d.mon with busy := 2 } }
     s.dev.mon.busy = 2) ∧
    ready.Accepts .mon 0 0x054 (Reg.MON_INJ.GO.put 1 (Reg.MON_INJ.GAIN.put 2 47)) ∧ ready.dev.pageServed (pageOf .mon 0) = true ∧
    ready.Accepts .mon 0 0x058 (Reg.MON_TDAC.EN.put 1 (Reg.MON_TDAC.INPUT.put 47 4095)) := by decide +kernel

/-- An open tracker entry of region 3, with priority or not. -/
def tracking (p : Bool) : State := ready |> on fun d => (d.putBit Reg.SCB_CTRL.EN 0 3 true).setTracked 3 15 (some ⟨32, 2, 200000, false, p, false⟩)
theorem witness_scrubbing : (tracking true).Runs ∧ (tracking true).dev.priorityWord = some (3, 32) ∧
    (tracking false).dev.tracked 3 15 = some ⟨32, 2, 200000, false, false, false⟩ ∧
    (let s := ready |> on fun d => { d with ecc := { d.ecc with lapAt := [(3, some 0)] } }
     Store.get (fun _ => none) s.dev.ecc.lapAt 3 = some 0 ∧ s.dev.ecc.lateSaid.contains 3 = false) ∧
    ready.Accepts .ecc 0 0x054 (Reg.ECC_INJ.GO.put 1 (Reg.ECC_INJ.REGION.put 9 (Reg.ECC_INJ.BITS.put 3 0))) := by decide +kernel

/-! ### An identity that checks: IDENT is the digest of the key that the fused secret gives -/

theorem word_bytes (v : Nat) :
    ((List.range 4).map fun j => bitsOf (ofBytesLE (bytesBE 4 v)) (8 * j) 8) = bytesBE 4 v := by
  have split : ∀ a b c d : Nat, a < 256 → b < 256 → c < 256 → d < 256 →
      ((List.range 4).map fun j => bitsOf (ofBytesLE [a, b, c, d]) (8 * j) 8) = [a, b, c, d] := by
    intro a b c d ha hb hc hd
    simp [ofBytesLE, bitsOf, trunc, pow2, List.range_succ]
    omega
  exact split _ _ _ _ (Nat.mod_lt _ (by decide)) (Nat.mod_lt _ (by decide)) (Nat.mod_lt _ (by decide)) (Nat.mod_lt _ (by decide))

theorem foldl_length {α : Type} (f : List Nat → α → List Nat) (hf : ∀ v x, v.length = 8 → (f v x).length = 8) :
    ∀ (l : List α) (v : List Nat), v.length = 8 → (l.foldl f v).length = 8
  | [], _, h => h
  | x :: l, v, h => foldl_length f hf l (f v x) (hf v x h)

theorem shaBlock_length (h b : List Nat) (hh : h.length = 8) : (shaBlock h b).length = 8 := by
  unfold shaBlock
  simp only [List.length_zipWith, hh]
  rw [foldl_length _ (fun v x _ => rfl) _ _ hh]; rfl

/-- The eight words of a digest. -/
theorem sha256_words (l : List Nat) : ∃ h : List Nat, h.length = 8 ∧ sha256 l = h.flatMap (bytesBE 4) :=
  ⟨_, foldl_length _ (fun v x hv => shaBlock_length v x hv) _ _ rfl, rfl⟩

/-- The part with IDENT fused from the words of a digest. -/
def fused (h : List Nat) : State := bootable 2 |> on fun d =>
  { d with fuse := List.replicate 40 0 ++ h.map fun v => ofBytesLE (bytesBE 4 v) }

theorem fused_ident (h : List Nat) (hh : h.length = 8) : (fused h).dev.ownIdent = h.flatMap (bytesBE 4) := by
  match h, hh with
  | [a, b, c, d, e, f, g, i], _ =>
    simp only [Dev.ownIdent, Dev.fuseBytes, Dev.fuseWord, fused, on]
    have r : List.range 8 = [0, 1, 2, 3, 4, 5, 6, 7] := rfl
    simp [r, word_bytes]

theorem fused_key (h : List Nat) (hh : h.length = 8) : (fused h).dev.identityKey = Config.identityKey (List.replicate 8 0) := by
  match h, hh with
  | [a, b, c, d, e, f, g, i], _ => rfl

theorem fuse_runs (d : Dev) (l : List Nat) : ({ d with fuse := l } : Dev).runs = d.runs := rfl
theorem fuse_deriving (d : Dev) (l : List Nat) : ({ d with fuse := l } : Dev).deriving_ = d.deriving_ := rfl
theorem fuse_boots (d : Dev) (l : List Nat) : ({ d with fuse := l } : Dev).boots = d.boots := rfl

theorem witness_identity : ∃ s : State, s.Runs ∧ s.dev.deriving_ = true ∧ s.dev.boots = true ∧ sha256 s.dev.modulus = s.dev.ownIdent := by
  obtain ⟨h, hh, e⟩ := sha256_words (bytesBE 384 (Config.identityKey (List.replicate 8 0)).1)
  refine ⟨fused h, ?_, ?_, ?_, ?_⟩
  · exact (fuse_runs _ _).trans (by decide +kernel)
  · exact (fuse_deriving _ _).trans (by decide +kernel)
  · exact (fuse_boots _ _).trans (by decide +kernel)
  · rw [fused_ident h hh, ← e, Dev.modulus, fused_key h hh]

theorem witness_identity_fails : ∃ s : State, s.Runs ∧ s.dev.deriving_ = true ∧ s.dev.boots = true ∧ sha256 s.dev.modulus ≠ s.dev.ownIdent := by
  have runs (h : List Nat) : (fused h).Runs ∧ (fused h).dev.deriving_ = true ∧ (fused h).dev.boots = true :=
    ⟨(fuse_runs _ _).trans (by decide +kernel), (fuse_deriving _ _).trans (by decide +kernel), (fuse_boots _ _).trans (by decide +kernel)⟩
  have key (h : List Nat) (hh : h.length = 8) :
      (fused h).dev.modulus = bytesBE 384 (Config.identityKey (List.replicate 8 0)).1 := by rw [Dev.modulus, fused_key h hh]
  by_cases e : sha256 (fused (List.replicate 8 0)).dev.modulus = (fused (List.replicate 8 0)).dev.ownIdent
  · refine ⟨fused (List.replicate 8 1), (runs _).1, (runs _).2.1, (runs _).2.2, ?_⟩
    rw [key _ rfl, fused_ident _ rfl] at *
    rw [e]
    decide +kernel
  · exact ⟨_, (runs _).1, (runs _).2.1, (runs _).2.2, e⟩

/-! ### Values of single steps, worked out from the spec -/

/-- The device after a command. -/
def after (c : Instr) (s : State) : Dev := match exec c s with | .next t => t.dev | _ => s.dev

/-- R38: a floor raised above the target moves the target to it. -/
theorem test_floor_lifts_target : (after (.vcoreFloorWrite 780) ready).get Reg.CHIP_VCORE_NOW.TARGET_MV 0 = 780 := by decide +kernel
/-- The table of `LE_EB_ERR`: the counts of a buffer's errors saturate at 0xFFFF. -/
theorem test_overflow_saturates :
    (after (.rxOverflow 7 256) (ready |> on fun d => d.set Reg.LE_EB_ERR.RX_OVERFLOW 7 65535)).get Reg.LE_EB_ERR.RX_OVERFLOW 7 = 65535 := by
  decide +kernel
/-- R452: a reserved bit comes before every other fault of the write; E_RESERVED is 2. -/
theorem test_reserved_first : (after (.registerWrite (.page (pageOf .tx 7) 0x40) 0x80000001) ready).get Hdr.ERR_CODE.CODE (pageOf .tx 7) = 2 ∧
    (after (.start 7) ready).get Hdr.ERR_CODE.CODE (pageOf .tx 7) = 9 := by decide +kernel
/-- R265: a galley starts every 20.48 µs, the first a galley after the lock, with number 0. -/
theorem test_first_galley : (after .txGalleyStart ready).now = 320480 ∧ (after .txGalleyStart ready).gnum = 0 ∧
    (after .txGalleyStart ready).nextGalley = 340960 := by decide +kernel
/-- R420: a masked write leaves the other bytes of its line. -/
theorem test_masked_line :
    (match exec (.cxlMemWrite 0x1000040 0b10 (List.replicate 64 0xAB)) served with
     | .next t => (t.hdmByte 0x1000040, t.hdmByte 0x1000041, t.hdmByte 0x1000042)
     | _ => (1, 1, 1)) = (0, 0xAB, 0) := by decide +kernel
/-- R494: both levels' references while the target goes from 750 mV to 760 mV. -/
theorem test_rail_levels :
    (let d := after .avsWriteAck (ready |> on fun d => { d.set Reg.CHIP_VCORE_NOW.TARGET_MV 0 760 with power := { d.power with avsWrite := true } })
     (d.power.uvRef, d.power.ovRef)) = (750, 760) := by decide +kernel
/-- R309: packet numbers count from 0, and 65,535 is followed by 0 of the next epoch. -/
theorem test_packet_numbers :
    (let d := after (.chimeSend 7) (chiming |> on fun d => d.set Reg.LE_CHM_SEQ_TX.SEQ 7 65535)
     (d.get Reg.LE_CHM_SEQ_TX.SEQ 7, d.get Reg.LE_CHM_SEQ_TX.EPOCH 7)) = (0, 1) := by decide +kernel
/-- R60: sixteen 64QAM subcarriers at 60 GBd carry 16 × 2 × 4,650 × 6 bits per forme. -/
theorem test_bank_capacity : bankCapacity 0 (List.replicate 16 0x6005) = 892800 := by decide +kernel
/-- FIPS 180-4: SHA-256 of "abc". -/
theorem test_sha256_abc : (sha256 [0x61, 0x62, 0x63]).take 4 = [0xBA, 0x78, 0x16, 0xBF] := by decide +kernel
/-- The check value of CRC-32. -/
theorem test_crc32_check : crc32 [0x31, 0x32, 0x33, 0x34, 0x35, 0x36, 0x37, 0x38, 0x39] = 0xCBF43926 := by decide +kernel
/-- R89's example: at 200 GBd and 4.0 % the carrier takes ±104.125 GHz, with DSC0 at −97.625 GHz. -/
theorem test_grid_vell : dscCentre 7 8 0 = -97625000000 ∧ occupiedWidth 7 8 = 208250000000 := by decide +kernel

end Sys2Proof.Tests
end

section
/-! Register accesses through a page (R9, R10, R447, R452): the record that a rejected write leaves, the first error of a list,
and what a write and a read of a page answer. -/

namespace Sys2Proof.Machine

/-! ### A saturating count -/

theorem capN_le (hi v : Nat) : capN hi v ≤ hi := by
  unfold capN; split <;> omega

/-- A count advanced by one reads one more, up to the field's highest value. -/
theorem Dev.get_bump_same (d : Dev) (f : Fld) (i : Nat) :
    (d.bump f i).get f i = capN (pow2 f.width - 1) (d.get f i + 1) := by
  have hcap := capN_le (pow2 f.width - 1) (d.get f i + 1)
  have hpos := pow2_pos f.width
  rw [Dev.bump, Dev.addSat, Dev.get_set_same]
  exact Nat.mod_eq_of_lt (by omega)

theorem Dev.get_bump_ne (d : Dev) {f g : Fld} {i j : Nat} (h : g.key j 0 ≠ f.key i 0) : (d.bump f i).get g j = d.get g j :=
  Dev.get_set_ne d _ h

/-- A write of a field leaves the stored value of every other key alone. -/
theorem Dev.regs_set_ne (d : Dev) {f : Fld} {i key : Nat} (v : Nat) (h : key ≠ f.key i 0) :
    Store.get regReset (d.set f i v).regs key = Store.get regReset d.regs key := Store.get_set_ne _ _ h

/-! ### The record of a rejected write (R452) -/

/-- An error code is a value of ERR_CODE. -/
theorem Err.code_lt (e : Err) : e.code < 256 := by cases e <;> decide

theorem errCode_key_ne_errOffset (p : Nat) : Hdr.ERR_CODE.CODE.key p 0 ≠ Hdr.ERR_OFFSET.OFFSET.key p 0 := by
  simp only [Fld.key, Hdr.ERR_CODE.CODE, Hdr.ERR_OFFSET.OFFSET]; omega

theorem errCode_key_ne_errCount (p : Nat) : Hdr.ERR_CODE.CODE.key p 0 ≠ Hdr.ERR_COUNT.COUNT.key p 0 := by
  simp only [Fld.key, Hdr.ERR_CODE.CODE, Hdr.ERR_COUNT.COUNT]; omega

theorem errOffset_key_ne_errCount (p : Nat) : Hdr.ERR_OFFSET.OFFSET.key p 0 ≠ Hdr.ERR_COUNT.COUNT.key p 0 := by
  simp only [Fld.key, Hdr.ERR_OFFSET.OFFSET, Hdr.ERR_COUNT.COUNT]; omega

theorem Dev.reject_errCode (d : Dev) (p off : Nat) (e : Err) : (d.reject p off e).get Hdr.ERR_CODE.CODE p = e.code := by
  rw [Dev.reject, Dev.get_bump_ne _ (errCode_key_ne_errCount p), Dev.get_set_ne _ _ (errCode_key_ne_errOffset p),
    Dev.get_set_same]
  exact Nat.mod_eq_of_lt e.code_lt

theorem Dev.reject_errOffset (d : Dev) (p : Nat) {off : Nat} (e : Err) (h : off < 0x1000) :
    (d.reject p off e).get Hdr.ERR_OFFSET.OFFSET p = off := by
  rw [Dev.reject, Dev.get_bump_ne _ (errOffset_key_ne_errCount p), Dev.get_set_same]
  exact Nat.mod_eq_of_lt h

theorem Dev.reject_errCount (d : Dev) (p off : Nat) (e : Err) :
    (d.reject p off e).get Hdr.ERR_COUNT.COUNT p = capN 0xFFFF (d.get Hdr.ERR_COUNT.COUNT p + 1) := by
  rw [Dev.reject, Dev.get_bump_same, Dev.get_set_ne _ _ (errOffset_key_ne_errCount p).symm,
    Dev.get_set_ne _ _ (errCode_key_ne_errCount p).symm]
  rfl

theorem Dev.reject_regs_ne (d : Dev) {p key : Nat} (off : Nat) (e : Err) (hc : key ≠ Hdr.ERR_CODE.CODE.key p 0)
    (ho : key ≠ Hdr.ERR_OFFSET.OFFSET.key p 0) (hn : key ≠ Hdr.ERR_COUNT.COUNT.key p 0) :
    Store.get regReset (d.reject p off e).regs key = Store.get regReset d.regs key := by
  rw [Dev.reject, Dev.bump, Dev.addSat, Dev.regs_set_ne _ _ hn, Dev.regs_set_ne _ _ ho, Dev.regs_set_ne _ _ hc]

/-- Outside the register fields a rejected write changes nothing. -/
theorem Dev.reject_eq_regs (d : Dev) (p off : Nat) (e : Err) :
    d.reject p off e = { d with regs := (d.reject p off e).regs } := rfl

/-! ### E_RESERVED comes first (R9, R452) -/

/-- No error comes before E_RESERVED in the order of R452. -/
theorem firstErr_reserved_cons (l : List Err) : firstErr (.reserved :: l) = some .reserved := by
  unfold firstErr
  cases firstErr l with
  | none => rfl
  | some e => exact if_pos (Nat.zero_le _)

/-- A set bit that lies in no field of the register is a reserved bit. -/
theorem reservedSet_of_bit {rows : List FieldRow} {w b : Nat} (hb : b < 32) (hw : bitOf w b = true)
    (hr : ∀ r ∈ rows, ¬(r.lo ≤ b ∧ b < r.lo + r.width)) : reservedSet rows w = true := by
  refine List.any_eq_true.2 ⟨b, List.mem_range.2 hb, ?_⟩
  rw [hw, Bool.true_and, List.all_eq_true]
  intro r hmem
  simpa [imp_iff_not_or] using hr r hmem

theorem Dev.writeErrs_undefined (d : Dev) {k : PageKind} {off : Nat} (i w : Nat) (h : fieldsAt k off = []) :
    d.writeErrs k i off w = [.reserved] := by
  simp [Dev.writeErrs, h]

theorem Dev.firstErr_writeErrs_reservedSet (d : Dev) {k : PageKind} {off w : Nat} (i : Nat)
    (h : reservedSet (fieldsAt k off) w = true) : firstErr (d.writeErrs k i off w) = some .reserved := by
  unfold Dev.writeErrs
  simp only [h]
  split
  · rfl
  · exact firstErr_reserved_cons _

/-! ### A write of a page -/

theorem Space.exists_page {p off : Nat} (hp : p < 0x400) (ho : off < 0x1000) : Space.exists_ (.page p off) = true := by
  simp [Space.exists_, hp, ho]

/-- A host write out of reset that causes no chip reset changes the device alone. -/
theorem exec_registerWrite_of_not_softReset {s : State} {sp : Space} {v : Word} (hl : s.Live) (hx : Space.exists_ sp = true)
    (hs : s.dev.softReset sp v.toNat = false) :
    exec (.registerWrite sp v) s = .next (s.withDev (s.dev.spaceWrite sp v.toNat)) := by
  have hr : s.dev.power.inReset = false := hl
  simp [exec, execRegisterWrite, State.hostWrite, State.withDev, hx, hr, hs]

theorem Dev.spaceWrite_page (d : Dev) (p : Nat) {off : Nat} (w : Nat) (h : off % 4 = 0) :
    d.spaceWrite (.page p off) w = d.pageWrite p off w := if_pos h

/-- Page 0 is the page of `chip0` and of no other kind. -/
theorem decodePage_zero {k : PageKind} {i : Nat} (h : decodePage 0 = some (k, i)) : k = .chip0 ∧ i = 0 := by
  cases h; exact ⟨rfl, rfl⟩

/-- A rejected write causes no chip reset: the write that would cause one has passed every check (R477). -/
theorem State.Rejects.not_softReset {s : State} {k : PageKind} {i off w : Nat} {e : Err} (h : s.Rejects k i off w e) :
    s.dev.softReset (.page (pageOf k i) off) w = false := by
  obtain ⟨-, hd, -, he⟩ := h
  by_cases hc : pageOf k i = 0 ∧ off = 0x58
  · obtain ⟨hp, rfl⟩ := hc
    obtain ⟨rfl, rfl⟩ := decodePage_zero (hp ▸ hd)
    simp [Dev.softReset, he]
  · rw [not_and_or] at hc
    obtain hp | ho := hc
    · simp [Dev.softReset, hp]
    · simp [Dev.softReset, ho]

/-- A write that is turned away records its error in the page header and does nothing else. -/
theorem exec_registerWrite_rejected {s : State} {k : PageKind} {i off : Nat} {v : Word} {e : Err}
    (h : s.Rejects k i off v.toNat e) (hp : pageOf k i < 0x400) (ho : off < 0x1000) (ha : off % 4 = 0)
    (hf : ¬(pageOf k i = 0 ∧ off = 0x80)) :
    exec (.registerWrite (.page (pageOf k i) off) v) s = .next (s.withDev (s.dev.reject (pageOf k i) off e)) := by
  rw [exec_registerWrite_of_not_softReset h.1 (Space.exists_page hp ho) h.not_softReset, Dev.spaceWrite_page _ _ _ ha,
    Dev.pageWrite_rejected h hf]

/-! ### A read of a page -/

/-- An aligned read of a page of BAR0 out of reset is the page's read. -/
theorem exec_rlRead_page {s : State} {p off : Nat} (hl : s.Live) (hp : p < 0x400) (ho : off < 0x1000) (ha : off % 4 = 0) :
    exec (.rlRead p off) s = .next (s.withDev (s.dev.pageRead p off)) := by
  simp [exec, execRlRead, Space.exists_page hp ho, ha, State.lift_live hl]

/-- A reserved page reads 0. -/
theorem Dev.pageRead_reserved (d : Dev) {p : Nat} (off : Nat) (h : decodePage p = none) :
    d.pageRead p off = { d with readData := [0] } := by
  simp [Dev.pageRead, h]

/-- A page that answers reads as the register's word. -/
theorem Dev.pageRead_served {d : Dev} {k : PageKind} {i p : Nat} (off : Nat) (hd : decodePage p = some (k, i))
    (hs : d.pageServed p = true) :
    d.pageRead p off = { (d.readWord k i off).2 with readData := [(d.readWord k i off).1] } := by
  simp [Dev.pageRead, hd, hs]

/-- A register that is no window, onto a queue or onto the monitor's data, is latched by a read or shown as it stands. -/
theorem Dev.readWord_of_not_window (d : Dev) {k : PageKind} {off : Nat} (i : Nat) (hq : ¬(k = .evq ∧ off = 0x60))
    (hm : ¬(k = .mon ∧ off = 0x48)) :
    d.readWord k i off = if latches k off then d.rlRead k i off else (d.shownWord k i off, d) := by
  have hq' : (k == .evq && off == 0x60) = false := by simpa using hq
  have hm' : (k == .mon && off == 0x48) = false := by simpa using hm
  simp [Dev.readWord, hq', hm']

end Sys2Proof.Machine
end

section
/-! The statements about rejected writes, reserved bits and reads of registers (R9, R10, R447, R450, R452). -/

open Sys2Proof Sys2Proof.Machine

/-- Settles O13: a rejected write is `Dev.reject`, whose record and frame are known field by field. -/
theorem rejectedWriteChangesHeaderOnly : Obligations.RejectedWriteChangesHeaderOnly := by
  unfold Obligations.RejectedWriteChangesHeaderOnly
  rintro s k i _ off v e h rfl ha hp ho hf
  exact ⟨_, exec_registerWrite_rejected h hp ho ha hf, Dev.reject_errCode _ _ _ _, Dev.reject_errOffset _ _ _ ho,
    Dev.reject_errCount _ _ _ _, fun _ hc hx hn => Dev.reject_regs_ne _ _ _ hc hx hn,
    congrArg s.withDev (Dev.reject_eq_regs _ _ _ _)⟩

/-- Settles O14: E_RESERVED is the first error of such a write whatever other checks fail, so the write is rejected as O13 says. -/
theorem reservedBitsRejected : Obligations.ReservedBitsRejected := by
  unfold Obligations.ReservedBitsRejected
  intro s k i p off b v hl hpg hd hs hp ho ha hf hres
  have hfirst : firstErr (s.dev.writeErrs k i off v.toNat) = some .reserved := by
    obtain hundef | ⟨hb, hbit, hrows⟩ := hres
    · rw [Dev.writeErrs_undefined _ _ _ hundef]; rfl
    · exact Dev.firstErr_writeErrs_reservedSet _ _ (reservedSet_of_bit hb hbit hrows)
  have hrej : s.Rejects k i off v.toNat .reserved := ⟨hl, hpg ▸ hd, hpg ▸ hs, hfirst⟩
  obtain ⟨t, hexec, hcode, hoff, -, hkeep, hframe⟩ :=
    rejectedWriteChangesHeaderOnly s k i p off v .reserved hrej hpg ha hp ho hf
  exact ⟨t, hexec, hcode, hoff, hkeep, hframe⟩

/-- Settles O15: a page that answers reads by `Dev.readWord`, which latches an RL group or leaves the device alone. -/
theorem registerReadAnswers : Obligations.RegisterReadAnswers := by
  unfold Obligations.RegisterReadAnswers
  intro s k i p off hp ho ha hl
  rw [exec_rlRead_page hl hp ho ha]
  refine ⟨fun _ hd hs hlat hq hm => ?_, fun _ hd hs hlat hq hm => ?_, fun hd => ?_⟩
  · rw [Dev.pageRead_served off hd hs, Dev.readWord_of_not_window _ _ hq hm, hlat]; rfl
  · rw [Dev.pageRead_served off hd hs, Dev.readWord_of_not_window _ _ hq hm, hlat]; rfl
  · rw [Dev.pageRead_reserved _ _ hd]

end

section
/-! Writes of several fields: when two fields have different keys, which fields an event leaves alone, and the frame of a change
that names its fields. -/

namespace Sys2Proof.Machine

/-! ### Keys of fields -/

/-- Two fields of one page stand under two keys where their places in the page differ. -/
theorem Fld.key_ne_of_place {f g : Fld} (i : Nat) (hb : g.base = f.base) (hs : g.stride = f.stride)
    (h : g.off * 8 + g.lo ≠ f.off * 8 + f.lo) : g.key i 0 ≠ f.key i 0 := by
  unfold Fld.key
  rw [hb, hs]
  omega

/-- The place of a field in its page, counted in bytes. -/
def Fld.byte (f : Fld) : Nat := f.off + f.lo / 8

/-- Does the field lie in a page outside EV_LATCH, EV_COUNT and the place of a queue's drop count, which raising an event writes? -/
abbrev Fld.KeptByEvents (f : Fld) : Prop := f.byte < 0x1000 ∧ f.byte ≠ 0x24 ∧ f.byte ≠ 0x34 ∧ f.byte ≠ 0x58

theorem Fld.KeptByEvents.evKey_eq_false {f : Fld} (h : f.KeptByEvents) (i : Nat) : evKey (f.key i 0) = false := by
  obtain ⟨hlt, h24, h34, h58⟩ := h
  have hbyte : f.key i 0 / 8 % 4096 = f.byte := by unfold Fld.key; unfold Fld.byte at *; omega
  simp [evKey, hbyte, h24, h34, h58]

theorem Dev.raise_get (d : Dev) (e : Ev) (i ins code : Nat) {f : Fld} (j : Nat) (h : f.KeptByEvents) :
    (d.raise e i ins code).get f j = d.get f j :=
  (d.eventsOnly_raise e i ins code).get (h.evKey_eq_false j)

/-- The bits a word gives to a field fit the field. -/
@[simp] theorem Fld.trunc_of (f : Fld) (w : Nat) : trunc f.width (f.of w) = f.of w := Nat.mod_mod _ _

/-! ### Changes of named fields, with their frame -/

theorem Dev.FieldsOnly.refl (p : Nat → Bool) (d : Dev) : d.FieldsOnly p d := ⟨rfl, fun _ _ _ => rfl⟩

theorem Dev.FieldsOnly.trans {p : Nat → Bool} {a b c : Dev} (h : a.FieldsOnly p b) (g : b.FieldsOnly p c) : a.FieldsOnly p c := by
  obtain ⟨hrest, hregs⟩ := h
  obtain ⟨grest, gregs⟩ := g
  rw [hrest] at grest
  exact ⟨grest, fun k he hp => (gregs k he hp).trans (hregs k he hp)⟩

/-- A write of a named field. -/
theorem Dev.fieldsOnly_set {p : Nat → Bool} (d : Dev) {f : Fld} {i : Nat} (v : Nat) (h : p (f.key i 0) = true) :
    d.FieldsOnly p (d.set f i v) := by
  refine ⟨rfl, fun k _ hk => Dev.regs_set_ne d v ?_⟩
  rintro rfl
  simp [h] at hk

/-- Raising an event is within every such frame. -/
theorem Dev.EventsOnly.fieldsOnly {d e : Dev} (h : d.EventsOnly e) (p : Nat → Bool) : d.FieldsOnly p e :=
  ⟨h.1, fun k he _ => h.2 k he⟩

/-- A change that starts from other line engine states leaves the rest as the original has it. -/
theorem Dev.FieldsOnly.restore_les {p : Nat → Bool} {d e : Dev} {l : Store Le} (h : Dev.FieldsOnly p { d with les := l } e) :
    d.FieldsOnly p { e with les := d.les } := by
  obtain ⟨hrest, hregs⟩ := h
  exact ⟨congrArg (fun x : Dev => { x with les := d.les }) hrest, hregs⟩

/-- A change that starts from another cell path leaves the rest as the original has it. -/
theorem Dev.FieldsOnly.restore_path {p : Nat → Bool} {d e : Dev} {x : CellPath} (h : Dev.FieldsOnly p { d with path := x } e) :
    d.FieldsOnly p { e with path := d.path } := by
  obtain ⟨hrest, hregs⟩ := h
  exact ⟨congrArg (fun y : Dev => { y with path := d.path }) hrest, hregs⟩

/-- A key of a listed field. -/
theorem keysOf_key {l : List Fld} {f : Fld} (i : Nat) (h : f ∈ l) : keysOf l i (f.key i 0) = true :=
  List.any_eq_true.2 ⟨f, h, beq_self_eq_true _⟩

/-- Fields of page number `i` of their kind written one after another. -/
def Dev.setAll (d : Dev) (i : Nat) (l : List (Fld × Nat)) : Dev := l.foldl (fun d e => d.set e.1 i e.2) d

theorem Dev.setAll_cons (d : Dev) (i : Nat) (e : Fld × Nat) (l : List (Fld × Nat)) :
    d.setAll i (e :: l) = (d.set e.1 i e.2).setAll i l := rfl

theorem Dev.get_setAll_ne {f : Fld} {i j : Nat} {l : List (Fld × Nat)} (h : f.key j 0 ∉ l.map fun e => e.1.key i 0) :
    ∀ d : Dev, (d.setAll i l).get f j = d.get f j := by
  induction l with
  | nil => intro d; rfl
  | cons e l ih =>
    intro d
    rw [List.map_cons, List.mem_cons, not_or] at h
    obtain ⟨hne, hl⟩ := h
    rw [Dev.setAll_cons, ih hl, Dev.get_set_ne d _ hne]

/-- Each field written reads as its value, where no two of them share a key. -/
theorem Dev.get_setAll {f : Fld} {i v : Nat} {l : List (Fld × Nat)} (hn : (l.map fun e => e.1.key i 0).Nodup) (hm : (f, v) ∈ l) :
    ∀ d : Dev, (d.setAll i l).get f i = trunc f.width v := by
  induction l with
  | nil => exact absurd hm (List.not_mem_nil)
  | cons e l ih =>
    intro d
    rw [List.map_cons, List.nodup_cons] at hn
    obtain ⟨hnew, hrest⟩ := hn
    rw [Dev.setAll_cons]
    obtain rfl | hm := List.mem_cons.1 hm
    · rw [Dev.get_setAll_ne hnew, Dev.get_set_same]
    · exact ih hrest hm _

theorem Dev.fieldsOnly_setAll {p : Nat → Bool} {i : Nat} {l : List (Fld × Nat)} (h : ∀ e ∈ l, p (e.1.key i 0) = true) :
    ∀ d : Dev, d.FieldsOnly p (d.setAll i l) := by
  induction l with
  | nil => exact fun d => .refl p d
  | cons e l ih =>
    intro d
    rw [List.forall_mem_cons] at h
    obtain ⟨he, hl⟩ := h
    exact (d.fieldsOnly_set e.2 he).trans (ih hl _)

end Sys2Proof.Machine
end

section
/-! The counted errors of the elastic buffers and a galley of the DACs (R26, R27, R36, R92): the values shown and the frame. -/

namespace Sys2Proof.Machine

/-! ### Overflows and underruns -/

/-- A count advanced and its event raised: the count reads one more, up to its highest value. -/
theorem Dev.get_raise_bump (d : Dev) {f : Fld} (i : Nat) (e : Ev) (ins code : Nat) (h : f.KeptByEvents) :
    ((d.bump f i).raise e i ins code).get f i = capN (pow2 f.width - 1) (d.get f i + 1) := by
  rw [Dev.raise_get _ _ _ _ _ _ h, Dev.get_bump_same]

theorem Dev.fieldsOnly_raise_bump (d : Dev) (f : Fld) (i : Nat) (e : Ev) (ins code : Nat) :
    d.FieldsOnly (keysOf [f] i) ((d.bump f i).raise e i ins code) :=
  (d.fieldsOnly_set _ (keysOf_key i List.mem_cons_self)).trans ((Dev.eventsOnly_raise _ _ _ _ _).fieldsOnly _)

theorem exec_rxOverflow {s : State} (n : Fin 8) (count : Nat) (h : s.Runs) :
    exec (.rxOverflow n count) s = .next (s.withDev (s.dev.rxOverflow n.val count)) :=
  congrArg Host.Outcome.next (State.liftRun_runs h _)

theorem exec_txUnderrun {s : State} (n : Fin 8) (h : s.Runs) :
    exec (.txUnderrun n) s = .next (s.withDev (s.dev.txUnderrun n.val)) :=
  congrArg Host.Outcome.next (State.liftRun_runs h _)

/-- A full host-receive buffer of an enabled group shows its highest fill, marks the flows that lost cells, and raises the event. -/
theorem exec_hlnRxOverflow {s : State} (g : Fin 16) (fl : List (Fin 1024)) (h : s.Runs) (hg : s.dev.grpEn g.val = true) :
    exec (.hlnRxOverflow g fl) s = .next (s.withDev (((s.dev.modPath fun x =>
      { x with gapNext := insertAll (fl.map (·.val)) x.gapNext }).set Reg.HLN_GRP_EB.RX_FILL g.val 20480).raise
        Ev.hlnRxOverflow g.val g.val 0)) := by
  refine congrArg Host.Outcome.next ((State.liftRun_runs h _).trans (congrArg s.withDev ?_))
  simp only [Dev.hlnOverflow, hg, if_true]
  rfl

theorem exec_hlnTxUnderrun {s : State} (g : Fin 16) (h : s.Runs) (hg : s.dev.grpEn g.val = true) :
    exec (.hlnTxUnderrun g) s = .next (s.withDev (s.dev.raise Ev.hlnTxUnderrun g.val g.val 0)) := by
  refine congrArg Host.Outcome.next ((State.liftRun_runs h _).trans (congrArg s.withDev ?_))
  simp only [Dev.hlnUnderrun, hg, if_true]

/-- The samples lost to an overflow are a gap from the index now. -/
theorem Dev.rxOverflow_gaps (d : Dev) (n count : Nat) :
    ((d.rxOverflow n count).le n).rx.gaps = (d.le n).rx.gaps ++ [(d.samplesBy n d.now, d.samplesBy n d.now + count)] := by
  have hles : (d.rxOverflow n count).les = (d.modRx n fun r =>
      { r with gaps := r.gaps ++ [(d.samplesBy n d.now, d.samplesBy n d.now + count)] }).les := Dev.raise_les _ _ _ _ _
  rw [Dev.le, hles]
  exact congrArg (fun x : Le => x.rx.gaps) (Dev.le_modRx d n _)

/-! ### A galley of the DACs -/

/-- The figures that a galley of the DACs shows: clipped samples and RMS levels of XI, XQ, YI and YQ. -/
def dacShown (m : List (Nat × Nat × Nat)) : List (Fld × Nat) :=
  let of_ (k : Nat) : Nat × Nat × Nat := m.getD k (0, 0, 0)
  [(Reg.LE_DAC_CLIP_X.XI, capN 0xFFFF (of_ 0).2.1), (Reg.LE_DAC_CLIP_X.XQ, capN 0xFFFF (of_ 1).2.1),
    (Reg.LE_DAC_CLIP_Y.YI, capN 0xFFFF (of_ 2).2.1), (Reg.LE_DAC_CLIP_Y.YQ, capN 0xFFFF (of_ 3).2.1),
    (Reg.LE_DAC_RMS.XI, (of_ 0).2.2), (Reg.LE_DAC_RMS.XQ, (of_ 1).2.2), (Reg.LE_DAC_RMS.YI, (of_ 2).2.2),
    (Reg.LE_DAC_RMS.YQ, (of_ 3).2.2)]

/-- The fields that take them. -/
def dacFields : List Fld :=
  [Reg.LE_DAC_CLIP_X.XI, Reg.LE_DAC_CLIP_X.XQ, Reg.LE_DAC_CLIP_Y.YI, Reg.LE_DAC_CLIP_Y.YQ,
    Reg.LE_DAC_RMS.XI, Reg.LE_DAC_RMS.XQ, Reg.LE_DAC_RMS.YI, Reg.LE_DAC_RMS.YQ]

theorem mem_dacFields {f : Fld} {v : Nat} {m : List (Nat × Nat × Nat)} (h : (f, v) ∈ dacShown m) : f ∈ dacFields :=
  List.mem_map_of_mem (f := Prod.fst) h

theorem dacFields_keys_nodup (n : Fin 8) : (dacFields.map fun f => f.key n.val 0).Nodup := by
  revert n; decide

theorem dacFields_keptByEvents : ∀ f ∈ dacFields, f.KeptByEvents := by decide

theorem Dev.dacMeasure_squelched {d : Dev} {n : Nat} (channels : List (List Int)) (h : d.flag Reg.LE_DAC_STAT.SQUELCH n = true) :
    d.dacMeasure n channels = (((d.set Reg.LE_DAC_CLIP_X.XI n 0).set Reg.LE_DAC_CLIP_X.XQ n 0).set Reg.LE_DAC_CLIP_Y.YI n 0).set
      Reg.LE_DAC_CLIP_Y.YQ n 0 := by
  simp only [Dev.dacMeasure, h, if_true]

/-- A galley of a DAC that is not squelched keeps the gains, shows the figures, and may raise the clip event. -/
theorem Dev.dacMeasure_open {d : Dev} {n : Nat} (channels : List (List Int)) (h : d.flag Reg.LE_DAC_STAT.SQUELCH n = false) :
    let m := channels.map (dacGalley (d.get Reg.LE_DAC_CTRL.BACKOFF n) (d.galleyAmps n))
    Dev.EventsOnly ((d.modTx n fun t => { t with dacGain := m.map (·.1) }).setAll n (dacShown m)) (d.dacMeasure n channels) := by
  simp only [Dev.dacMeasure, h, Bool.false_eq_true, if_false]
  split
  · exact Dev.eventsOnly_raise _ _ _ _ _
  · exact .refl _

theorem Dev.get_dacMeasure {d : Dev} {n : Fin 8} {f : Fld} {v : Nat} (channels : List (List Int))
    (h : d.flag Reg.LE_DAC_STAT.SQUELCH n.val = false)
    (hm : (f, v) ∈ dacShown (channels.map (dacGalley (d.get Reg.LE_DAC_CTRL.BACKOFF n.val) (d.galleyAmps n.val)))) :
    (d.dacMeasure n.val channels).get f n.val = trunc f.width v := by
  have hkept := dacFields_keptByEvents f (mem_dacFields hm)
  rw [(Dev.dacMeasure_open channels h).get (hkept.evKey_eq_false _)]
  refine Dev.get_setAll ?_ hm _
  exact dacFields_keys_nodup n

theorem Dev.fieldsOnly_dacMeasure {d : Dev} {n : Nat} (channels : List (List Int)) (h : d.flag Reg.LE_DAC_STAT.SQUELCH n = false) :
    d.FieldsOnly (keysOf dacFields n) { d.dacMeasure n channels with les := d.les } := by
  let m := channels.map (dacGalley (d.get Reg.LE_DAC_CTRL.BACKOFF n) (d.galleyAmps n))
  have hshown (e : Dev) : e.FieldsOnly (keysOf dacFields n) (e.setAll n (dacShown m)) :=
    Dev.fieldsOnly_setAll (fun _ he => keysOf_key n (mem_dacFields he)) e
  exact ((hshown _).trans ((Dev.dacMeasure_open channels h).fieldsOnly _)).restore_les

/-- A capped count of 16 bits fits its field. -/
theorem trunc_capN_clip (v : Nat) : trunc 16 (capN 0xFFFF v) = min 65535 v := by
  have hcap : capN 0xFFFF v = min 65535 v := by unfold capN; split <;> omega
  rw [hcap]
  exact Nat.mod_eq_of_lt (show min 65535 v < 65536 by omega)

theorem exec_dacGalleyMeasure {s : State} (n : Fin 8) (channels : List (List Int)) (h : s.Runs) :
    exec (.dacGalleyMeasure n channels) s = .next (s.withDev (s.dev.dacMeasure n.val channels)) :=
  congrArg Host.Outcome.next (State.liftRun_runs h _)

end Sys2Proof.Machine
end

section
/-! The statement about buffer errors and the DACs' figures. -/

open Sys2Proof Sys2Proof.Machine

/-- Settles O34: each operation is writes of named fields and at most one event, so values and frame follow from the rules of
`Dev.setAll`, `Dev.bump` and `Dev.raise`. -/
theorem lineErrorsCounted : Obligations.LineErrorsCounted := by
  unfold Obligations.LineErrorsCounted
  refine ⟨fun s hs => ⟨fun n count => ?_, fun n => ?_, fun g fl hg => ?_, fun g hg => ?_⟩,
    fun s n channels hs => ⟨fun hq => ?_, fun hq => ?_⟩⟩
  · exact ⟨_, exec_rxOverflow n count hs, Dev.get_raise_bump _ _ _ _ _ (by decide), Dev.rxOverflow_gaps _ _ _,
      (Dev.fieldsOnly_raise_bump _ _ _ _ _ _).restore_les, rfl⟩
  · exact ⟨_, exec_txUnderrun n hs, Dev.get_raise_bump _ _ _ _ _ (by decide), Dev.fieldsOnly_raise_bump _ _ _ _ _ _, rfl⟩
  · refine ⟨_, exec_hlnRxOverflow g fl hs hg, ?_, ?_, ?_, rfl⟩
    · exact (Dev.raise_get _ _ _ _ _ _ (by decide)).trans (Dev.get_set_same _ _ _ _)
    · exact congrArg CellPath.gapNext (Dev.raise_path _ _ _ _ _)
    · exact ((Dev.fieldsOnly_set _ _ (keysOf_key g.val List.mem_cons_self)).trans
        ((Dev.eventsOnly_raise _ _ _ _ _).fieldsOnly _)).restore_path
  · exact ⟨exec_hlnTxUnderrun g hs hg, Dev.eventsOnly_raise _ _ _ _ _⟩
  · rw [exec_dacGalleyMeasure n channels hs, Dev.dacMeasure_squelched channels hq]
  · have hclip {f : Fld} {v : Nat} (hw : f.width = 16) (hm : (f, capN 0xFFFF v) ∈ dacShown (channels.map
        (dacGalley (s.dev.get Reg.LE_DAC_CTRL.BACKOFF n.val) (s.dev.galleyAmps n.val)))) :
        (s.dev.dacMeasure n.val channels).get f n.val = min 65535 v := by
      rw [Dev.get_dacMeasure channels hq hm, hw, trunc_capN_clip]
    refine ⟨_, exec_dacGalleyMeasure n channels hs, hclip rfl ?_, hclip rfl ?_, hclip rfl ?_, hclip rfl ?_,
      Dev.get_dacMeasure channels hq ?_, Dev.get_dacMeasure channels hq ?_, Dev.get_dacMeasure channels hq ?_,
      Dev.get_dacMeasure channels hq ?_, Dev.fieldsOnly_dacMeasure channels hq, rfl⟩
    all_goals simp [dacShown]

end

section
/-! The VCORE target (R29 to R33, R38): a new target, the floor, and the steps up and down. -/

namespace Sys2Proof.Machine

/-! ### A new target -/

/-- APPLIED alone follows a judgement of it. -/
theorem Dev.judgeApplied_get_ne (d : Dev) {g : Fld} {i : Nat} (h : g.key i 0 ≠ Reg.CHIP_AVS_STAT.APPLIED.key 0 0) :
    d.judgeApplied.get g i = d.get g i := Dev.get_set_ne d _ h

theorem Dev.setTarget_target (d : Dev) {mv : Nat} (h : mv < 1024) : (d.setTarget mv).get Reg.CHIP_VCORE_NOW.TARGET_MV 0 = mv := by
  have hget : (d.setTarget mv).get Reg.CHIP_VCORE_NOW.TARGET_MV 0 = trunc 10 mv :=
    (Dev.judgeApplied_get_ne _ (by decide)).trans (Dev.get_set_same _ _ _ _)
  exact hget.trans (Nat.mod_eq_of_lt h)

theorem Dev.setTarget_get_ne (d : Dev) (mv : Nat) {g : Fld} {i : Nat} (ht : g.key i 0 ≠ Reg.CHIP_VCORE_NOW.TARGET_MV.key 0 0)
    (ha : g.key i 0 ≠ Reg.CHIP_AVS_STAT.APPLIED.key 0 0) : (d.setTarget mv).get g i = d.get g i :=
  (Dev.judgeApplied_get_ne _ ha).trans (Dev.get_set_ne d _ ht)

/-! ### The floor (R38) -/

/-- The floor's write stores the word's FLOOR_MV and follows it. -/
theorem Dev.writeEffect_floor (d : Dev) (w : Nat) :
    d.writeEffect .vcore 0 0x040 w = (d.set Reg.CHIP_VCORE_FLOOR.FLOOR_MV 0 (Reg.CHIP_VCORE_FLOOR.FLOOR_MV.of w)).floorWritten
      (Reg.CHIP_VCORE_FLOOR.FLOOR_MV.of w) := by
  rw [Dev.set, Fld.trunc_of]
  rfl

theorem Dev.floorWritten_floor (d : Dev) {mv : Nat} (h : mv < 1024) :
    (d.floorWritten mv).get Reg.CHIP_VCORE_FLOOR.FLOOR_MV 0 = mv := by
  have hset : (d.set Reg.CHIP_VCORE_FLOOR.FLOOR_MV 0 mv).get Reg.CHIP_VCORE_FLOOR.FLOOR_MV 0 = mv :=
    (Dev.get_set_same _ _ _ _).trans (Nat.mod_eq_of_lt h)
  simp only [Dev.floorWritten]
  split
  · exact (Dev.setTarget_get_ne _ _ (by decide) (by decide)).trans hset
  · exact hset

/-- A floor above the target lifts it. -/
theorem Dev.floorWritten_target (d : Dev) {mv : Nat} (h : mv < 1024) :
    (d.floorWritten mv).get Reg.CHIP_VCORE_NOW.TARGET_MV 0 = max mv (d.get Reg.CHIP_VCORE_NOW.TARGET_MV 0) := by
  have hkept : (d.set Reg.CHIP_VCORE_FLOOR.FLOOR_MV 0 mv).get Reg.CHIP_VCORE_NOW.TARGET_MV 0 =
      d.get Reg.CHIP_VCORE_NOW.TARGET_MV 0 := Dev.get_set_ne d mv (by decide)
  simp only [Dev.floorWritten, hkept]
  split
  · rw [Dev.setTarget_target _ h]; omega
  · rw [hkept]; omega

theorem exec_vcoreFloorWrite {s : State} {mv : Fin 1024}
    (h : s.Accepts .vcore 0 0x040 (Reg.CHIP_VCORE_FLOOR.FLOOR_MV.put mv.val (s.kept .vcore 0 0x040))) :
    exec (.vcoreFloorWrite mv) s =
      .next (s.withDev ((s.dev.set Reg.CHIP_VCORE_FLOOR.FLOOR_MV 0 mv.val).floorWritten mv.val)) := by
  have hof : Reg.CHIP_VCORE_FLOOR.FLOOR_MV.of (Reg.CHIP_VCORE_FLOOR.FLOOR_MV.put mv.val (s.kept .vcore 0 0x040)) = mv.val :=
    (Fld.of_put _ _ _).trans (Nat.mod_eq_of_lt mv.isLt)
  refine congrArg Host.Outcome.next ((State.lift_command h (by decide)).trans ?_)
  rw [Dev.writeEffect_floor, hof]

/-! ### The steps (R30, R31) -/

/-- Time that runs on to a moment has reached it, and has not gone back. -/
theorem Dev.le_until_now (d : Dev) (t : Nat) : t ≤ (d.until t).now := by
  rw [Dev.until_now]; exact Nat.le_max_right _ _

theorem Dev.now_le_until_now (d : Dev) (t : Nat) : d.now ≤ (d.until t).now := by
  rw [Dev.until_now]; exact Nat.le_max_left _ _

/-- The moment a gap after the last time something happened; 0 where it never has. -/
def gapAfter (last : Option Nat) (gap : Nat) : Nat := match last with | some u => u + gap | none => 0

theorem gapAfter_some {last : Option Nat} {u : Nat} (gap : Nat) (h : last = some u) : gapAfter last gap = u + gap := by rw [h]; rfl

/-- The device after an upward step to `mv`, and after a downward step to it. -/
def Dev.steppedUp (d : Dev) (mv : Nat) : Dev :=
  ((d.setTarget mv).set Reg.CHIP_VCORE_NOW.LAST_UP 0 d.lowestMargin).modArb fun a => { a with lastUp := some d.now }
def Dev.steppedDown (d : Dev) (mv : Nat) : Dev := (d.setTarget mv).modArb fun a => { a with lastDown := some d.now }

theorem Dev.steppedUp_target (d : Dev) {mv : Nat} (h : mv < 1024) : (d.steppedUp mv).get Reg.CHIP_VCORE_NOW.TARGET_MV 0 = mv :=
  (Dev.get_set_ne (d.setTarget mv) _ (by decide)).trans (d.setTarget_target h)

theorem Dev.steppedDown_target (d : Dev) {mv : Nat} (h : mv < 1024) : (d.steppedDown mv).get Reg.CHIP_VCORE_NOW.TARGET_MV 0 = mv :=
  d.setTarget_target h

@[simp] theorem Dev.steppedUp_avsWrite (d : Dev) (mv : Nat) : (d.steppedUp mv).power.avsWrite = true := rfl
@[simp] theorem Dev.steppedUp_now (d : Dev) (mv : Nat) : (d.steppedUp mv).now = d.now := rfl
@[simp] theorem Dev.steppedUp_lastUp (d : Dev) (mv : Nat) : (d.steppedUp mv).arb.lastUp = some d.now := rfl
@[simp] theorem Dev.steppedDown_now (d : Dev) (mv : Nat) : (d.steppedDown mv).now = d.now := rfl
@[simp] theorem Dev.steppedDown_lastDown (d : Dev) (mv : Nat) : (d.steppedDown mv).arb.lastDown = some d.now := rfl

/-- The upward step below the ceiling: 50 µs after the last one, by UP_MV, at most to 800 mV. -/
theorem Dev.stepUp_below {d : Dev} (ha : d.arb.acting = true) (hu : d.askUp.isEmpty = false)
    (ht : d.get Reg.CHIP_VCORE_NOW.TARGET_MV 0 < 800) :
    d.stepUp = (d.until (gapAfter d.arb.lastUp (us 50))).steppedUp
      (min 800 (d.get Reg.CHIP_VCORE_NOW.TARGET_MV 0 + d.get Reg.CHIP_VCORE_STEP.UP_MV 0)) := by
  cases hlast : d.arb.lastUp with
  | none =>
    simp only [Dev.stepUp, ha, hu, hlast, Bool.not_true, Bool.or_self, Bool.false_eq_true, if_false, if_neg (Nat.not_le.2 ht)]
    rfl
  | some u =>
    simp only [Dev.stepUp, ha, hu, hlast, Bool.not_true, Bool.or_self, Bool.false_eq_true, if_false, Dev.until_get,
      if_neg (Nat.not_le.2 ht)]
    rfl

/-- The moment of the next downward step, once the margins have been high since `h`: each of its three waits is over. -/
def Dev.downAt (d : Dev) (h : Nat) : Nat :=
  max (h + ms 100) (max (gapAfter d.arb.lastDown (ms 10)) (gapAfter d.power.vcoreSince (ms 1)))

theorem Dev.le_downAt_high (d : Dev) (h : Nat) : h + 100000000 ≤ d.downAt h := Nat.le_max_left _ _

theorem Dev.le_downAt_last {d : Dev} {u : Nat} (h : Nat) (hu : d.arb.lastDown = some u) : u + 10000000 ≤ d.downAt h := by
  rw [Dev.downAt, gapAfter_some _ hu]
  exact (Nat.le_max_left _ _).trans (Nat.le_max_right _ _)

theorem Dev.le_downAt_good {d : Dev} {v : Nat} (h : Nat) (hv : d.power.vcoreSince = some v) : v + 1000000 ≤ d.downAt h := by
  rw [Dev.downAt, gapAfter_some _ hv]
  exact (Nat.le_max_right _ _).trans (Nat.le_max_right _ _)

/-- The downward step outside a dip: by DOWN_MV, not below the floor. -/
theorem Dev.stepDown_high {d : Dev} {h : Nat} (ha : d.arb.acting = true) (hh : d.arb.highSince = some h) (hd : d.dipping = false)
    (hu : d.askUp.isEmpty = true) (hf : d.get Reg.CHIP_VCORE_FLOOR.FLOOR_MV 0 < d.get Reg.CHIP_VCORE_NOW.TARGET_MV 0) :
    d.stepDown = (d.until (d.downAt h)).steppedDown (max (d.get Reg.CHIP_VCORE_FLOOR.FLOOR_MV 0)
      (d.get Reg.CHIP_VCORE_NOW.TARGET_MV 0 - d.get Reg.CHIP_VCORE_STEP.DOWN_MV 0)) := by
  have hgo : (!d.arb.acting || d.dipping || !d.askUp.isEmpty ||
      decide (d.get Reg.CHIP_VCORE_NOW.TARGET_MV 0 ≤ d.get Reg.CHIP_VCORE_FLOOR.FLOOR_MV 0)) = false := by
    simp [ha, hd, hu, hf]
  simp only [Dev.stepDown, hh, hgo, Bool.false_eq_true, if_false, Dev.until_get]
  rfl

theorem Dev.stepDown_dipping {d : Dev} (h : d.dipping = true) : d.stepDown = d := by
  unfold Dev.stepDown
  cases d.arb.highSince with
  | none => rfl
  | some t => simp [h]

theorem exec_vcoreStepUp {s : State} (h : s.Runs) : exec .vcoreStepUp s = .next (s.withDev s.dev.stepUp) :=
  congrArg Host.Outcome.next (State.liftRun_runs h _)

theorem exec_vcoreStepDown {s : State} (h : s.Runs) : exec .vcoreStepDown s = .next (s.withDev s.dev.stepDown) :=
  congrArg Host.Outcome.next (State.liftRun_runs h _)

end Sys2Proof.Machine
end

section
/-! The statement about the VCORE target. -/

open Sys2Proof Sys2Proof.Machine

/-- Settles O32: the floor by `Dev.floorWritten`, the steps by their shapes where they are made; the gaps hold because time runs
on to the latest of the moments waited for. -/
theorem vcoreTargetMoves : Obligations.VcoreTargetMoves := by
  unfold Obligations.VcoreTargetMoves
  refine fun s => ⟨fun mv hacc => ?floor, fun hs ha hu ht => ?up, fun h hs ha hh hd hu hf ht => ?down, fun hs hd => ?dip⟩
  case floor =>
    refine ⟨_, exec_vcoreFloorWrite hacc, Dev.floorWritten_floor _ mv.isLt, ?_⟩
    exact (Dev.floorWritten_target _ mv.isLt).trans (congrArg (max mv.val) (Dev.get_set_ne s.dev _ (by decide)))
  case up =>
    rw [exec_vcoreStepUp hs, Dev.stepUp_below ha hu ht]
    refine ⟨_, rfl, Dev.steppedUp_target _ (by omega), Dev.steppedUp_avsWrite _ _, ?_⟩
    rw [State.withDev_dev, Dev.steppedUp_lastUp, Dev.steppedUp_now]
    refine ⟨rfl, Dev.now_le_until_now _ _, fun u hlast => ?_⟩
    rw [gapAfter_some _ hlast]
    exact Dev.le_until_now _ _
  case down =>
    rw [exec_vcoreStepDown hs, Dev.stepDown_high ha hh hd hu hf]
    refine ⟨_, rfl, Dev.steppedDown_target _ (by omega), ?_⟩
    rw [State.withDev_dev, Dev.steppedDown_lastDown, Dev.steppedDown_now]
    have hnow := s.dev.le_until_now (s.dev.downAt h)
    exact ⟨(s.dev.le_downAt_high h).trans hnow, fun u hlast => (Dev.le_downAt_last h hlast).trans hnow,
      fun v hgood => (Dev.le_downAt_good h hgood).trans hnow, rfl⟩
  case dip => rw [exec_vcoreStepDown hs, Dev.stepDown_dipping hd]; rfl

end

section
/-! The transmit grid (R22, R265, R480): the lock of the time base, and the starts of galleys and formes. -/

namespace Sys2Proof.Machine

/-! ### The lock -/

/-- The time base locks 300 µs after the release, and the first galley follows a galley later. -/
theorem Dev.timebaseLock_unlocked {d : Dev} (h : d.locked = false) :
    d.timebaseLock = { d.until 300000 with
      locked := true, lockAt := (d.until 300000).now, dt := 0, nextGalley := (d.until 300000).now + 20480 } := by
  simp only [Dev.timebaseLock, h, Bool.false_eq_true, if_false]
  rfl

theorem exec_timebaseLock {s : State} (h : s.Live) : exec .timebaseLock s = .next (s.withDev s.dev.timebaseLock) :=
  congrArg Host.Outcome.next (State.lift_live h _)

/-! ### A galley's start -/

@[simp] theorem Dev.applyIncr_now (d : Dev) : d.applyIncr.now = d.now := by unfold Dev.applyIncr; split <;> rfl
@[simp] theorem Dev.applyIncr_gnum (d : Dev) : d.applyIncr.gnum = d.gnum := by unfold Dev.applyIncr; split <;> rfl
@[simp] theorem Dev.applyIncr_galleys (d : Dev) : d.applyIncr.galleys = d.galleys := by unfold Dev.applyIncr; split <;> rfl

theorem Dev.galleyRecord_gnum (d : Dev) :
    d.galleyRecord.gnum = if d.galleys = 0 then d.gnum else (d.gnum + 1) % 4294967296 := by
  have hnext : d.galleyRecord.gnum = (d.until d.nextGalley).applyIncr.nextGnum := rfl
  rw [hnext, Dev.nextGnum]
  simp [pow2]

theorem Dev.galleyRecord_galleys (d : Dev) : d.galleyRecord.galleys = d.galleys + 1 := by
  have hcount : d.galleyRecord.galleys = (d.until d.nextGalley).applyIncr.galleys + 1 := rfl
  rw [hcount]
  simp

theorem Dev.galleyRecord_now (d : Dev) : d.galleyRecord.now = max d.now d.nextGalley := by
  have hnow : d.galleyRecord.now = (d.until d.nextGalley).applyIncr.now := rfl
  rw [hnow]
  simp

theorem Dev.galleyRecord_formes (d : Dev) : d.galleyRecord.formes = 0 := rfl
theorem Dev.galleyRecord_nextGalley (d : Dev) : d.galleyRecord.nextGalley = d.nextGalley + 20480 := rfl

/-- Under a locked time base a galley start records the galley, takes MAX_NS, and gives each block its part in turn. -/
theorem Dev.galleyStart_locked {d : Dev} (h : d.locked = true) :
    let r := d.galleyRecord
    let e := r.modFmx fun x => { x with maxNs := r.get Reg.FMX_DSK_CTRL.MAX_NS 0 }
    d.galleyStart = ((((((e.over allLe fun n d => (d.latchIndex n).leGalley r.gnum n).cypGalley d.gnum r.gnum).judgeFirsts.calGalley
      r.gnum).snapTake r.gnum).captureBegin r.gnum).monTrigIf 2) := by
  simp only [Dev.galleyStart, h, Bool.not_true, Bool.false_eq_true, if_false]

theorem exec_txGalleyStart {s : State} (h : s.Runs) : exec .txGalleyStart s = .next (s.withDev s.dev.galleyStart) :=
  congrArg Host.Outcome.next (State.liftRun_runs h _)

/-! ### A forme's start -/

/-- In an open galley a forme starts 1.28 µs after the one before it. -/
theorem Dev.formeStart_open {d : Dev} (hg : 0 < d.galleys) (hf : d.formes < 16) :
    d.formeStart = { (d.until (d.galleyAt d.galleyNow + d.formes * 1280)).buildForme d.formes
      (d.galleyAt d.galleyNow + d.formes * 1280) with formes := d.formes + 1 } := by
  have hopen : ¬(d.galleys = 0 ∨ 16 ≤ d.formes) := by omega
  simp only [Dev.formeStart, if_neg hopen]
  rfl

theorem exec_formeStart {s : State} (h : s.Runs) : exec .formeStart s = .next (s.withDev s.dev.formeStart) :=
  congrArg Host.Outcome.next (State.liftRun_runs h _)

end Sys2Proof.Machine
end

section
/-! The statement about the grid. -/

open Sys2Proof Sys2Proof.Machine

/-- Settles O27: the lock sets device time and the first galley, and each boundary's operation does its part
where its guard is met. -/
theorem gridStartsAndAdvances : Obligations.GridStartsAndAdvances := by
  unfold Obligations.GridStartsAndAdvances
  refine ⟨fun s hlive hlock => ?lock, fun s hruns hlock => ⟨?galley, fun hg hf => ?forme⟩⟩
  case lock =>
    rw [exec_timebaseLock hlive, Dev.timebaseLock_unlocked hlock]
    exact ⟨_, rfl, rfl, rfl, Dev.until_now _ _, rfl, rfl, Dev.until_regs _ _, Dev.until_tabs _ _, rfl⟩
  case galley =>
    refine ⟨?_, Dev.galleyRecord_gnum _, Dev.galleyRecord_galleys _, Dev.galleyRecord_formes _, Dev.galleyRecord_now _,
      Dev.galleyRecord_nextGalley _⟩
    rw [exec_txGalleyStart hruns, Dev.galleyStart_locked hlock]
  case forme =>
    rw [exec_formeStart hruns, Dev.formeStart_open hg hf]

end

section
/-! A write of the buffers' error counters (R36, R452): its only check is that the word is 0, and it clears both counters. -/

namespace Sys2Proof.Machine

/-- Every bit of LE_EB_ERR belongs to a counter. -/
theorem reservedSet_bufferErrors (w : Nat) : reservedSet (fieldsAt .pace 0x5C) w = false := by
  have hcovered : ∀ b ∈ List.range 32,
      ((fieldsAt .pace 0x5C).all fun r => !(decide (r.lo ≤ b) && decide (b < r.lo + r.width))) = false := by decide
  refine List.any_eq_false.2 fun b hb => ?_
  simp only [hcovered b hb, Bool.and_false, Bool.false_eq_true, not_false_eq_true]

/-- On an enabled page a write of LE_EB_ERR fails its range check where the word is not 0, and no other check. -/
theorem Dev.writeErrs_bufferErrors {d : Dev} {n : Nat} (w : Nat) (h : d.flag Hdr.CTRL.ENABLE (pageOf .pace n) = true) :
    d.writeErrs .pace n 0x5C w = failIf (w != 0) .range := by
  have hrange : rangeErrs (fieldsAt .pace 0x5C) w = failIf (w != 0) .range := rfl
  have hchapters : d.txErrs .pace n 0x5C w ++ d.rxErrs .pace n 0x5C w ++ d.flowErrs .pace n 0x5C w ++ d.timeErrs .pace 0x5C w ++
      d.unitErrs .pace n 0x5C w = [] := rfl
  have hrows : (fieldsAt .pace 0x5C).isEmpty = false := rfl
  have hpage : ¬((0x5C : Nat) < 0x40 ∨ 0x800 ≤ 0x5C) := by decide
  simp only [Dev.writeErrs, hrows, reservedSet_bufferErrors, h, hrange, hchapters, if_neg hpage, failIf, Bool.not_true,
    Bool.and_false, Bool.false_eq_true, if_false, List.nil_append, List.append_nil]

/-- An accepted write of LE_EB_ERR clears both counters. -/
theorem Dev.writeEffect_bufferErrors (d : Dev) (n w : Nat) :
    d.writeEffect .pace n 0x5C w = (d.set Reg.LE_EB_ERR.TX_UNDERRUN n 0).set Reg.LE_EB_ERR.RX_OVERFLOW n 0 := rfl

theorem pageOf_pace_lt (n : Fin 8) : pageOf .pace n.val < 0x400 := by revert n; decide

theorem pageOf_pace_ne_zero (n : Nat) : pageOf .pace n ≠ 0 := by simp [pageOf]

/-- The error counters stand under other keys than the fields of their page's header below them. -/
theorem bufferErrors_key_ne_header {f h : Fld} (n : Nat) (hf : f.base = 0x11E ∧ f.stride = 0x20 ∧ f.off = 0x5C)
    (hh : h.base = 0 ∧ h.stride = 1 ∧ h.off < 0x5C ∧ h.lo = 0) : f.key n 0 ≠ h.key (pageOf .pace n) 0 := by
  obtain ⟨hfb, hfs, hfo⟩ := hf
  obtain ⟨hhb, hhs, hho, hhl⟩ := hh
  simp only [Fld.key, pageOf, hfb, hfs, hfo, hhb, hhs, hhl]
  omega

/-- A write to a page other than page 0 causes no chip reset. -/
theorem Dev.softReset_page_ne_zero (d : Dev) {p : Nat} (off w : Nat) (h : p ≠ 0) : d.softReset (.page p off) w = false := by
  simp [Dev.softReset, h]

/-- An accepted write to a page other than page 0 has the register's effect and changes the device alone. -/
theorem exec_registerWrite_accepted {s : State} {k : PageKind} {i off : Nat} {v : Word} (h : s.Accepts k i off v.toNat)
    (hp : pageOf k i < 0x400) (h0 : pageOf k i ≠ 0) (ho : off < 0x1000) (ha : off % 4 = 0) :
    exec (.registerWrite (.page (pageOf k i) off) v) s = .next (s.withDev (s.dev.writeEffect k i off v.toNat)) := by
  rw [exec_registerWrite_of_not_softReset h.1 (Space.exists_page hp ho) (Dev.softReset_page_ne_zero _ _ _ h0),
    Dev.spaceWrite_page _ _ _ ha, Dev.pageWrite_accepted h (fun hf => h0 hf.1)]

end Sys2Proof.Machine
end

section
/-! The statements about the buffers' error counters, and about reset. -/

open Sys2Proof Sys2Proof.Machine

/-- Settles O49: 0 passes the one check of the register, and its effect clears both counters; any other word is rejected, and a
rejected write leaves the counters' keys alone. -/
theorem bufferErrorsClear : Obligations.BufferErrorsClear := by
  unfold Obligations.BufferErrorsClear
  intro s n hlive hpage hserved hen
  refine ⟨?zero, fun v hv => ?other⟩
  case zero =>
    have hacc : s.Accepts .pace n.val 0x5C (0 : Word).toNat := ⟨hlive, hpage, hserved, Dev.writeErrs_bufferErrors _ hen⟩
    rw [exec_registerWrite_accepted hacc (pageOf_pace_lt n) (pageOf_pace_ne_zero _) (by decide) (by decide),
      Dev.writeEffect_bufferErrors]
    have hne : Reg.LE_EB_ERR.TX_UNDERRUN.key n.val 0 ≠ Reg.LE_EB_ERR.RX_OVERFLOW.key n.val 0 :=
      Fld.key_ne_of_place _ rfl rfl (by decide)
    refine ⟨_, rfl, ?_, ?_⟩
    · rw [State.withDev_dev, Dev.get_set_same]; rfl
    · rw [State.withDev_dev, Dev.get_set_ne _ _ hne, Dev.get_set_same]; rfl
  case other =>
    have hne : v.toNat ≠ 0 := fun h0 => hv (BitVec.eq_of_toNat_eq h0)
    have hrej : s.Rejects .pace n.val 0x5C v.toNat .range := by
      refine ⟨hlive, hpage, hserved, ?_⟩
      rw [Dev.writeErrs_bufferErrors _ hen]
      simp [failIf, hne, firstErr]
    have hkept {f : Fld} (hf : f.base = 0x11E ∧ f.stride = 0x20 ∧ f.off = 0x5C) :
        (s.dev.reject (pageOf .pace n.val) 0x5C .range).get f n.val = s.dev.get f n.val :=
      Dev.reject_regs_ne _ _ _ (bufferErrors_key_ne_header _ hf (by decide)) (bufferErrors_key_ne_header _ hf (by decide))
        (bufferErrors_key_ne_header _ hf (by decide))
    rw [exec_registerWrite_rejected hrej (pageOf_pace_lt n) (by decide) (by decide) (fun hf => pageOf_pace_ne_zero _ hf.1)]
    exact ⟨_, rfl, Dev.reject_errCode _ _ _ _, hkept (by decide), hkept (by decide)⟩

/-- Settles O3: nothing has been written since reset, so every register field reads its reset value. -/
theorem resetLeaves : Obligations.ResetLeaves := by
  unfold Obligations.ResetLeaves
  refine ⟨rfl, rfl, rfl, ?sealed, rfl, ?carriers, fun _ => rfl⟩
  case sealed => decide
  case carriers => decide

end

section
/-! Commands that write one register of a line engine (R64, R71, R76, R83, R98, R119, R122, R131, R147, R152): the word each
makes, and what the register's accepted write means for such a word. -/

namespace Sys2Proof.Machine

/-! ### Pages and words -/

/-- Only the chip's own page has number 0. -/
theorem pageOf_ne_zero {k : PageKind} (h : k ≠ .chip0) (i : Nat) : pageOf k i ≠ 0 := by
  cases k <;> simp [pageOf] at h ⊢

/-- An accepted command of a page other than page 0 has its register's effect and changes the device alone. -/
theorem next_lift_command {s : State} {k : PageKind} {i off : Nat} {f : Nat → Nat} (hk : k ≠ .chip0)
    (h : s.Accepts k i off (f (s.kept k i off))) :
    (.next (s.lift fun d => d.command k i off f) : Host.Outcome State Fault Refusal) =
      .next (s.withDev (s.dev.writeEffect k i off (f (s.kept k i off)))) :=
  congrArg Host.Outcome.next (State.lift_command h fun hp => pageOf_ne_zero hk i hp.1)

/-- A one-bit field put into a word is read from it. -/
theorem Fld.on_put {f : Fld} (h : f.width = 1) (b : Bool) (w : Nat) : f.on (f.put (b1 b) w) = b := by
  rw [Fld.on, Fld.of_put, b1_trunc (by omega)]
  cases b <;> rfl

theorem Fld.on_put_one {f : Fld} (h : f.width = 1) (w : Nat) : f.on (f.put 1 w) = true := Fld.on_put h true w

/-- A command that puts 1 into a one-bit field, whose 1 gives the register's write the effect `g`. -/
theorem next_lift_put_one {s : State} {k : PageKind} {i off : Nat} {f : Fld} {g : Dev → Dev} (hk : k ≠ .chip0) (hf : f.width = 1)
    (he : ∀ w, s.dev.writeEffect k i off w = if f.on w then g (s.stored k i off w) else s.stored k i off w)
    (h : s.Accepts k i off (f.put 1 (s.kept k i off))) :
    (.next (s.lift fun d => d.command k i off (f.put 1)) : Host.Outcome State Fault Refusal) =
      .next (s.withDev (g (s.stored k i off (f.put 1 (s.kept k i off))))) := by
  rw [next_lift_command hk h, he, if_pos (Fld.on_put_one hf _)]

/-! ### Transmit control (R76, R83) -/

theorem Dev.writeEffect_txCtrl (d : Dev) (n w : Nat) :
    d.writeEffect .tx n 0x040 w = (d.storeWord .tx n 0x040 w).txCtrl n w := rfl

/-- A word that asks for a state and does not kill. -/
theorem Dev.txCtrl_request (d : Dev) (n : Nat) {w r : Nat} (hr : Reg.LE_TX_CTRL.REQ.of w = r) (h0 : r ≠ 0)
    (hk : Reg.LE_TX_CTRL.KILL.on w = false) :
    d.txCtrl n w = ((d.killWritten n false).setB Reg.LE_CHM_STAT.BEACON_ABS n false).request n r := by
  simp only [Dev.txCtrl, hr, hk, onlyIf, if_neg h0, Bool.false_eq_true, if_false]

/-- A word that asks for no state writes KILL alone; a kill ends a calibration that needs the carrier. -/
theorem Dev.txCtrl_kill (d : Dev) (n : Nat) {w : Nat} (hr : Reg.LE_TX_CTRL.REQ.of w = 0) :
    d.txCtrl n w = onlyIf (Reg.LE_TX_CTRL.KILL.on w) (fun d => d.calTxLost n) (d.killWritten n (Reg.LE_TX_CTRL.KILL.on w)) :=
  if_pos hr

/-- `START`, `BEACON` and `STOP` write their code to REQ. -/
theorem exec_txRequest {s : State} {n : Fin 8} {c : Instr} {r : Nat}
    (hc : (c = .start n ∧ r = 1) ∨ (c = .beacon n ∧ r = 2) ∨ (c = .stop n ∧ r = 3))
    (h : s.Accepts .tx n.val 0x040 (Reg.LE_TX_CTRL.REQ.put r 0)) :
    exec c s = .next (s.withDev (s.dev.writeEffect .tx n.val 0x040 (Reg.LE_TX_CTRL.REQ.put r 0))) := by
  obtain ⟨rfl, rfl⟩ | ⟨rfl, rfl⟩ | ⟨rfl, rfl⟩ := hc
  · exact next_lift_command (f := fun _ => Reg.LE_TX_CTRL.REQ.put 1 0) (by decide) h
  · exact next_lift_command (f := fun _ => Reg.LE_TX_CTRL.REQ.put 2 0) (by decide) h
  · exact next_lift_command (f := fun _ => Reg.LE_TX_CTRL.REQ.put 3 0) (by decide) h

/-- The word of a request asks for it and does not kill. -/
theorem txRequest_word {r : Nat} (h : r = 1 ∨ r = 2 ∨ r = 3) :
    Reg.LE_TX_CTRL.REQ.of (Reg.LE_TX_CTRL.REQ.put r 0) = r ∧ r ≠ 0 ∧
      Reg.LE_TX_CTRL.KILL.on (Reg.LE_TX_CTRL.REQ.put r 0) = false := by
  obtain rfl | rfl | rfl := h <;> decide

/-- `KILL` writes KILL and asks for no state. -/
theorem exec_kill {s : State} (n : Fin 8) (on : Bool) (h : s.Accepts .tx n.val 0x040 (Reg.LE_TX_CTRL.KILL.put (b1 on) 0)) :
    exec (.kill n on) s = .next (s.withDev (onlyIf on (fun d => d.calTxLost n.val)
      ((s.stored .tx n.val 0x040 (Reg.LE_TX_CTRL.KILL.put (b1 on) 0)).killWritten n.val on))) := by
  have hreq : Reg.LE_TX_CTRL.REQ.of (Reg.LE_TX_CTRL.KILL.put (b1 on) 0) = 0 := by cases on <;> decide
  refine (next_lift_command (f := fun _ => Reg.LE_TX_CTRL.KILL.put (b1 on) 0) (by decide) h).trans ?_
  rw [Dev.writeEffect_txCtrl, Dev.txCtrl_kill _ _ hreq, Fld.on_put rfl]
  rfl

/-! ### Receive control (R98, R119) -/

theorem Dev.writeEffect_rxCtrl (d : Dev) (n w : Nat) :
    d.writeEffect .rx n 0x040 w =
      let e := onlyIf (!Reg.LE_RX_CTRL.EN.on w) (fun d => d.calRxLost n) ((d.storeWord .rx n 0x040 w).rxReconsider n)
      if Reg.LE_RX_CTRL.REACQ.on w then e.reacquire n else e := rfl

theorem exec_rxEnable {s : State} (n : Fin 8) (on : Bool)
    (h : s.Accepts .rx n.val 0x040 (Reg.LE_RX_CTRL.EN.put (b1 on) (s.kept .rx n.val 0x040)))
    (hq : Reg.LE_RX_CTRL.REACQ.on (Reg.LE_RX_CTRL.EN.put (b1 on) (s.kept .rx n.val 0x040)) = false) :
    exec (.rxEnable n on) s = .next (s.withDev (onlyIf (!on) (fun d => d.calRxLost n.val)
      ((s.stored .rx n.val 0x040 (Reg.LE_RX_CTRL.EN.put (b1 on) (s.kept .rx n.val 0x040))).rxReconsider n.val))) := by
  refine (next_lift_command (f := Reg.LE_RX_CTRL.EN.put (b1 on)) (by decide) h).trans ?_
  rw [Dev.writeEffect_rxCtrl, hq, Fld.on_put rfl]
  rfl

theorem exec_reacq {s : State} (n : Fin 8)
    (h : s.Accepts .rx n.val 0x040 (Reg.LE_RX_CTRL.REACQ.put 1 (s.kept .rx n.val 0x040)))
    (he : Reg.LE_RX_CTRL.EN.on (Reg.LE_RX_CTRL.REACQ.put 1 (s.kept .rx n.val 0x040)) = true) :
    exec (.reacq n) s = .next (s.withDev
      (((s.stored .rx n.val 0x040 (Reg.LE_RX_CTRL.REACQ.put 1 (s.kept .rx n.val 0x040))).rxReconsider n.val).reacquire n.val)) := by
  refine (next_lift_command (f := Reg.LE_RX_CTRL.REACQ.put 1) (by decide) h).trans ?_
  rw [Dev.writeEffect_rxCtrl, he, Fld.on_put_one rfl]
  rfl

/-! ### The decoder (R131, R147, R152) -/

theorem Dev.writeEffect_fecCfg (d : Dev) (n w : Nat) :
    d.writeEffect .fec n 0x040 w =
      (d.storeWord .fec n 0x040 w).fecCfg n (Reg.LE_FEC_CFG.RATE.of w) (Reg.LE_FEC_CFG.CODE.of w) := rfl

theorem Dev.writeEffect_fecIter (d : Dev) (n w : Nat) :
    d.writeEffect .fec n 0x044 w =
      if Reg.LE_FEC_ITER.COMMIT.on w then (d.storeWord .fec n 0x044 w).iterCommit n else d.storeWord .fec n 0x044 w := rfl

theorem Dev.writeEffect_fecClear (d : Dev) (n w : Nat) :
    d.writeEffect .fec n 0x08C w =
      if w = 1 then (d.storeWord .fec n 0x08C w).modFec n fun x => { x with clearPend := true }
      else d.storeWord .fec n 0x08C w := rfl

/-- RATE and CODE are read from the word that puts both. -/
theorem fecCfg_word (r c : Fin 4) :
    Reg.LE_FEC_CFG.RATE.of (Reg.LE_FEC_CFG.RATE.put r.val (Reg.LE_FEC_CFG.CODE.put c.val 0)) = r.val ∧
      Reg.LE_FEC_CFG.CODE.of (Reg.LE_FEC_CFG.RATE.put r.val (Reg.LE_FEC_CFG.CODE.put c.val 0)) = c.val := by
  revert r c; decide

theorem exec_fecCfg {s : State} (n : Fin 8) (r c : Fin 4)
    (h : s.Accepts .fec n.val 0x040 (Reg.LE_FEC_CFG.RATE.put r.val (Reg.LE_FEC_CFG.CODE.put c.val 0))) :
    exec (.fecCfg n r c) s = .next (s.withDev ((s.stored .fec n.val 0x040
      (Reg.LE_FEC_CFG.RATE.put r.val (Reg.LE_FEC_CFG.CODE.put c.val 0))).fecCfg n.val r.val c.val)) := by
  obtain ⟨hrate, hcode⟩ := fecCfg_word r c
  refine (next_lift_command (f := fun _ => Reg.LE_FEC_CFG.RATE.put r.val (Reg.LE_FEC_CFG.CODE.put c.val 0)) (by decide) h).trans ?_
  rw [Dev.writeEffect_fecCfg, hrate, hcode]
  rfl

theorem exec_fecIterCommit {s : State} (n : Fin 8)
    (h : s.Accepts .fec n.val 0x044 (Reg.LE_FEC_ITER.COMMIT.put 1 (s.kept .fec n.val 0x044))) :
    exec (.fecIterCommit n) s = .next (s.withDev
      ((s.stored .fec n.val 0x044 (Reg.LE_FEC_ITER.COMMIT.put 1 (s.kept .fec n.val 0x044))).iterCommit n.val)) :=
  next_lift_put_one (g := fun d => d.iterCommit n.val) (by decide) rfl (Dev.writeEffect_fecIter _ _) h

/-- LE_FEC_CLEAR holds no setting, so the command's word is CLR alone. -/
theorem fecClear_word (s : State) (n : Nat) : Reg.LE_FEC_CLEAR.CLR.put 1 (s.kept .fec n 0x08C) = 1 := by
  have hkept : s.kept .fec n 0x08C = 0 := rfl
  rw [hkept]; decide

theorem exec_fecClear {s : State} (n : Fin 8)
    (h : s.Accepts .fec n.val 0x08C (Reg.LE_FEC_CLEAR.CLR.put 1 (s.kept .fec n.val 0x08C))) :
    exec (.fecClear n) s =
      .next (s.withDev ((s.stored .fec n.val 0x08C 1).modFec n.val fun x => { x with clearPend := true })) := by
  refine (next_lift_command (f := Reg.LE_FEC_CLEAR.CLR.put 1) (by decide) h).trans ?_
  rw [fecClear_word, Dev.writeEffect_fecClear, if_pos rfl]
  rfl

/-! ### Bit-loading switches and the mask (R64, R71, R122) -/

theorem Dev.writeEffect_txBank (d : Dev) (n w : Nat) :
    d.writeEffect .tx n 0x04C w =
      if Reg.LE_TX_BL_CTRL.SWITCH.on w then (d.storeWord .tx n 0x04C w).blSwitch n else d.storeWord .tx n 0x04C w := rfl

theorem Dev.writeEffect_mask (d : Dev) (n w : Nat) :
    d.writeEffect .tx n 0x064 w =
      if Reg.LE_TX_MASK_CTRL.COMMIT.on w then (d.storeWord .tx n 0x064 w).maskCommit n else d.storeWord .tx n 0x064 w := rfl

theorem Dev.writeEffect_rxBank (d : Dev) (n w : Nat) :
    d.writeEffect .rx n 0x05C w =
      if Reg.LE_RX_BL_CTRL.SWITCH.on w then (d.storeWord .rx n 0x05C w).rxBlSwitch n else d.storeWord .rx n 0x05C w := rfl

theorem exec_blSwitch {s : State} (n : Fin 8) (neg : Bool)
    (h : s.Accepts .tx n.val 0x04C (Reg.LE_TX_BL_CTRL.NEGOTIATE.put (b1 neg) (Reg.LE_TX_BL_CTRL.SWITCH.put 1 0))) :
    exec (.blSwitch n neg) s = .next (s.withDev ((s.stored .tx n.val 0x04C
      (Reg.LE_TX_BL_CTRL.NEGOTIATE.put (b1 neg) (Reg.LE_TX_BL_CTRL.SWITCH.put 1 0))).blSwitch n.val)) := by
  have hswitch : Reg.LE_TX_BL_CTRL.SWITCH.on
      (Reg.LE_TX_BL_CTRL.NEGOTIATE.put (b1 neg) (Reg.LE_TX_BL_CTRL.SWITCH.put 1 0)) = true := by
    cases neg <;> decide
  refine (next_lift_command
    (f := fun _ => Reg.LE_TX_BL_CTRL.NEGOTIATE.put (b1 neg) (Reg.LE_TX_BL_CTRL.SWITCH.put 1 0)) (by decide) h).trans ?_
  rw [Dev.writeEffect_txBank, if_pos hswitch]
  rfl

theorem exec_rxBlSwitch {s : State} (n : Fin 8)
    (h : s.Accepts .rx n.val 0x05C (Reg.LE_RX_BL_CTRL.SWITCH.put 1 (s.kept .rx n.val 0x05C))) :
    exec (.rxBlSwitch n) s = .next (s.withDev
      ((s.stored .rx n.val 0x05C (Reg.LE_RX_BL_CTRL.SWITCH.put 1 (s.kept .rx n.val 0x05C))).rxBlSwitch n.val)) :=
  next_lift_put_one (g := fun d => d.rxBlSwitch n.val) (by decide) rfl (Dev.writeEffect_rxBank _ _) h

theorem exec_maskCommit {s : State} (n : Fin 8)
    (h : s.Accepts .tx n.val 0x064 (Reg.LE_TX_MASK_CTRL.COMMIT.put 1 (s.kept .tx n.val 0x064))) :
    exec (.maskCommit n) s = .next (s.withDev
      ((s.stored .tx n.val 0x064 (Reg.LE_TX_MASK_CTRL.COMMIT.put 1 (s.kept .tx n.val 0x064))).maskCommit n.val)) :=
  next_lift_put_one (g := fun d => d.maskCommit n.val) (by decide) rfl (Dev.writeEffect_mask _ _) h

end Sys2Proof.Machine
end

section
/-! The statement about transmit and receive requests. -/

open Sys2Proof Sys2Proof.Machine

/-- Settles O35: each command is one accepted write, and its word's fields choose the branch of the register's effect. -/
theorem lineRequestsTakeEffect : Obligations.LineRequestsTakeEffect := by
  unfold Obligations.LineRequestsTakeEffect
  refine ⟨fun s n => ⟨fun c r hc h => ?request, exec_kill n true, exec_kill n false⟩,
    fun s n => ⟨fun on h hq => ?enable, exec_reacq n, exec_fecCfg n, exec_fecIterCommit n, fun h => ?clear⟩⟩
  case request =>
    have hr : r = 1 ∨ r = 2 ∨ r = 3 := hc.imp And.right (Or.imp And.right And.right)
    obtain ⟨hof, h0, hkill⟩ := txRequest_word hr
    rw [exec_txRequest hc h, Dev.writeEffect_txCtrl, Dev.txCtrl_request _ _ hof h0 hkill]
    rfl
  case enable =>
    rw [exec_rxEnable n on h hq]
    cases on <;> rfl
  case clear => exact ⟨_, exec_fecClear n h, congrArg (fun x : Le => x.fec.clearPend) (Dev.le_modFec _ _ _)⟩

end

section
/-! Entries to transmit states, and what halts a carrier (R74, R75, R83, R84): the fields shown, and what the rest of an entry
and a carrier's failure leave alone. -/

namespace Sys2Proof.Machine

/-! ### The fields that show a transmit state -/

/-- The state, the squelch as the transmit and the DAC page show it, the output enable and the power. -/
def txShown : List Fld :=
  [Reg.LE_TX_STAT.STATE, Reg.LE_TX_STAT.SQUELCH, Reg.LE_DAC_STAT.SQUELCH, Reg.LE_TX_STAT.TXEN_PIN, Reg.LE_TX_STAT.POWER]

/-- What an entry to state `st` writes of them. -/
def stateFields (st : Nat) : List (Fld × Nat) :=
  [(Reg.LE_TX_STAT.STATE, st), (Reg.LE_TX_STAT.SQUELCH, b1 (squelchedIn st)), (Reg.LE_DAC_STAT.SQUELCH, b1 (squelchedIn st))]

/-- What a carrier cut off shows: TXEN low, no power, and no departure that it waits for. -/
def cutFields : List (Fld × Nat) := [(Reg.LE_TX_STAT.TXEN_PIN, 0), (Reg.LE_TX_STAT.POWER, 0), (Reg.LE_TX_STAT.DEPART_WAIT, 0)]

theorem txShown_keptByEvents : ∀ f ∈ txShown, f.KeptByEvents := by decide

/-- They stand apart from ABSENT, the pace guard's request and the members, which an entry or a carrier's failure may write. -/
theorem txShown_key_ne (n : Fin 8) : ∀ f ∈ txShown, f.key n.val 0 ≠ Reg.LE_CHM_STAT.ABSENT.key n.val 0 ∧
    f.key n.val 0 ≠ Reg.LE_PG_STATE.REQ.key n.val 0 ∧ f.key n.val 0 ≠ Reg.FMX_BND_STAT.MEMBERS.key 0 0 := by
  revert n; decide

theorem stateFields_keys_nodup (n : Fin 8) (st : Nat) : ((stateFields st).map fun e => e.1.key n.val 0).Nodup := by
  have hkeys : ∀ m : Fin 8, ((stateFields 0).map fun e => e.1.key m.val 0).Nodup := by decide
  exact hkeys n

theorem cutFields_keys_nodup (n : Fin 8) : (cutFields.map fun e => e.1.key n.val 0).Nodup := by revert n; decide

/-! ### An entry to a state -/

/-- What is done under a condition leaves alone what it leaves alone when it is done. -/
theorem apply_onlyIf {α β : Type} (p : α → β) (c : Bool) {f : α → α} {x : α} (h : p (f x) = p x) : p (onlyIf c f x) = p x := by
  cases c
  · rfl
  · exact h

theorem Dev.watchElig_regs (d : Dev) (n : Nat) (f : Dev → Dev) : (d.watchElig n f).regs = (f d).regs := by
  simp only [Dev.watchElig]
  split <;> rfl

theorem Dev.chimeEnters_get_ne (d : Dev) {n i : Nat} (st : Nat) {f : Fld} (h : f.key i 0 ≠ Reg.LE_CHM_STAT.ABSENT.key n 0) :
    (d.chimeEnters n st).get f i = d.get f i := by
  have hpend : (onlyIf (st == 0 || st == 8) (fun d => d.modChm n fun c => { c with pend := [] }) d).get f i = d.get f i :=
    apply_onlyIf (fun x : Dev => x.get f i) _ rfl
  simp only [Dev.chimeEnters]
  split
  · exact hpend
  · split
    · exact (Dev.get_set_ne _ _ h).trans hpend
    · exact hpend

theorem Dev.paceFollow_get_ne (d : Dev) {n i : Nat} {f : Fld} (h : f.key i 0 ≠ Reg.LE_PG_STATE.REQ.key n 0) :
    (d.paceFollow n).get f i = d.get f i := Dev.get_set_ne d _ h

/-- Of the fields shown an entry writes the state and the squelch alone. -/
theorem Dev.enterTx_get (d : Dev) (n : Fin 8) (st : Nat) {f : Fld} (hf : f ∈ txShown) :
    (d.enterTx n.val st).get f n.val = (d.setAll n.val (stateFields st)).get f n.val := by
  obtain ⟨habsent, hreq, -⟩ := txShown_key_ne n f hf
  simp only [Dev.enterTx]
  refine (apply_onlyIf (fun x : Dev => x.get f n.val) _ (Dev.raise_get _ _ _ _ _ _ (txShown_keptByEvents f hf))).trans ?_
  refine (Dev.paceFollow_get_ne _ hreq).trans ((Dev.chimeEnters_get_ne _ st habsent).trans ?_)
  refine (apply_onlyIf (fun x : Dev => x.get f n.val) _ rfl).trans ?_
  simp only [Dev.get, Dev.setB, Dev.set, Dev.watchElig_regs, Dev.setAll, stateFields, List.foldl]

theorem Dev.enterTx_get_written (d : Dev) {n : Fin 8} {st v : Nat} {f : Fld} (hf : f ∈ txShown) (hm : (f, v) ∈ stateFields st) :
    (d.enterTx n.val st).get f n.val = trunc f.width v :=
  (d.enterTx_get n st hf).trans (Dev.get_setAll (stateFields_keys_nodup n st) hm d)

theorem Dev.enterTx_txState (d : Dev) (n : Fin 8) {st : Nat} (h : st < 16) : (d.enterTx n.val st).txState n.val = st :=
  (d.enterTx_get_written (by decide) List.mem_cons_self).trans (Nat.mod_eq_of_lt h)

/-- A one-bit field that reads as a Boolean's bit is that flag. -/
theorem Dev.flag_of_get {d : Dev} {f : Fld} {i : Nat} {b : Bool} (hw : 0 < f.width) (h : d.get f i = trunc f.width (b1 b)) :
    d.flag f i = b := by
  rw [Dev.flag, h, b1_trunc hw]
  cases b <;> rfl

theorem Dev.enterTx_squelch (d : Dev) (n : Fin 8) (st : Nat) :
    (d.enterTx n.val st).flag Reg.LE_TX_STAT.SQUELCH n.val = squelchedIn st :=
  Dev.flag_of_get (by decide) (d.enterTx_get_written (by decide) (by simp [stateFields]))

theorem Dev.enterTx_dacSquelch (d : Dev) (n : Fin 8) (st : Nat) :
    (d.enterTx n.val st).flag Reg.LE_DAC_STAT.SQUELCH n.val = squelchedIn st :=
  Dev.flag_of_get (by decide) (d.enterTx_get_written (by decide) (by simp [stateFields]))

/-- OFF and HALTED discard every pending packet (R311). -/
theorem Dev.chimeEnters_pend (d : Dev) (n : Nat) {st : Nat} (h : st = 0 ∨ st = 8) : ((d.chimeEnters n st).le n).chm.pend = [] := by
  have hsquelched : squelchedIn st = true := by obtain rfl | rfl := h <;> rfl
  have hdiscards : (st == 0 || st == 8) = true := by simpa using h
  have hsilent : (decide (st = 4) || decide (st = 6)) = false := by obtain rfl | rfl := h <;> rfl
  simp only [Dev.chimeEnters, hsilent, hsquelched, hdiscards, onlyIf, Bool.false_eq_true, if_false, if_true,
    Dev.le_modChm, Dev.setB, Dev.set_le]

theorem Dev.enterTx_pend (d : Dev) (n : Nat) {st : Nat} (h : st = 0 ∨ st = 8) : ((d.enterTx n st).le n).chm.pend = [] := by
  simp only [Dev.enterTx]
  refine (apply_onlyIf (fun x : Dev => (x.le n).chm.pend) _ ?_).trans (Dev.chimeEnters_pend _ n h)
  simp only [Dev.le, Dev.raise_les]

/-! ### A carrier's failure -/

theorem Dev.leaveBundle_get_ne (d : Dev) {n i : Nat} {f : Fld} (hk : f.KeptByEvents)
    (hm : f.key i 0 ≠ Reg.FMX_BND_STAT.MEMBERS.key 0 0) : (d.leaveBundle n).get f i = d.get f i := by
  unfold Dev.leaveBundle
  split
  · exact (Dev.raise_get _ _ _ _ _ _ hk).trans (Dev.get_set_ne _ _ hm)
  · rfl

theorem Dev.carrierFail_get_ne (d : Dev) {n i : Nat} {f : Fld} (hk : f.KeptByEvents)
    (hm : f.key i 0 ≠ Reg.FMX_BND_STAT.MEMBERS.key 0 0) : (d.carrierFail n).get f i = d.get f i := by
  have hleave : (((d.setExcl n true).leaveBundle n).startJob reasonFail).get f i = d.get f i :=
    Dev.leaveBundle_get_ne (d.setExcl n true) hk hm
  simp only [Dev.carrierFail]
  split
  · split
    · exact hleave
    · exact (Dev.raise_get _ _ _ _ _ _ hk).trans hleave
  · rfl

/-! ### Halts (R83, R84) -/

/-- The carrier cut off: TXEN low, no power, no held request, and no ramp. -/
def Dev.cutOff (d : Dev) (n : Nat) : Dev :=
  (((d.setTxen n false).setPower n 0).setHeld n 0).modTx n fun t =>
    { t with ramp := none, chimeRamp := none, after := 0, dataFrac := 0, chimeFrac := 0 }

/-- The table of R84: what a carrier cut off in state `st` does next. -/
def Dev.haltedFrom (d : Dev) (n st : Nat) : Dev :=
  match st with
  | 0 => d
  | 1 => (d.modTx n fun t => { t with killBanks := true }).enterTx n 8
  | 7 => if (d.le n).tx.goal = 8 then (d.dequeue n).enterTx n 8 else d.modTx n fun t => { t with lagDone := true }
  | 8 => d
  | _ => (d.dequeue n).enterTx n 8

/-- A halt cuts the carrier off, follows the table of R84, and is a carrier failure. -/
theorem Dev.halt_eq (d : Dev) (n : Nat) :
    d.halt n = (((d.cutOff n).haltedFrom n (d.txState n)).modFmx fun x =>
      { x with departing := setBit x.departing n false }).carrierFail n := rfl

theorem Dev.halt_get (d : Dev) (n : Fin 8) {f : Fld} (hf : f ∈ txShown) :
    (d.halt n.val).get f n.val = ((d.cutOff n.val).haltedFrom n.val (d.txState n.val)).get f n.val := by
  obtain ⟨-, -, hmembers⟩ := txShown_key_ne n f hf
  rw [Dev.halt_eq, Dev.carrierFail_get_ne _ (txShown_keptByEvents f hf) hmembers, Dev.modFmx_get]

theorem Dev.cutOff_get (d : Dev) (n : Nat) (f : Fld) : (d.cutOff n).get f n = (d.setAll n cutFields).get f n := by
  simp only [Dev.cutOff, Dev.setHeld, Dev.setPower, Dev.setTxen, Dev.get, Dev.setB, Dev.set, Dev.setAll, cutFields,
    List.foldl, Dev.modTx, Dev.setLe, b1]
  rfl

theorem Dev.cutOff_get_written (d : Dev) {n : Fin 8} {f : Fld} (hm : (f, 0) ∈ cutFields) : (d.cutOff n.val).get f n.val = 0 :=
  (d.cutOff_get n.val f).trans ((Dev.get_setAll (cutFields_keys_nodup n) hm d).trans (Nat.zero_mod _))

theorem Dev.cutOff_txState (d : Dev) (n : Fin 8) : (d.cutOff n.val).txState n.val = d.txState n.val := by
  have hne : ∀ m : Fin 8, Reg.LE_TX_STAT.STATE.key m.val 0 ∉ cutFields.map fun e => e.1.key m.val 0 := by decide
  exact (d.cutOff_get n.val _).trans (Dev.get_setAll_ne (hne n) d)

/-- Whatever the state, the table leaves the output enable and the power as they are. -/
theorem Dev.haltedFrom_get (d : Dev) (n : Fin 8) (st : Nat) {f : Fld}
    (hf : f = Reg.LE_TX_STAT.TXEN_PIN ∨ f = Reg.LE_TX_STAT.POWER) :
    (d.haltedFrom n.val st).get f n.val = d.get f n.val := by
  have hshown : f ∈ txShown := by obtain rfl | rfl := hf <;> decide
  have hne : f.key n.val 0 ∉ (stateFields 8).map fun e => e.1.key n.val 0 := by
    obtain rfl | rfl := hf <;> revert n <;> decide
  have henter (e : Dev) : (e.enterTx n.val 8).get f n.val = e.get f n.val :=
    (e.enterTx_get n 8 hshown).trans (Dev.get_setAll_ne hne e)
  unfold Dev.haltedFrom
  split
  · rfl
  · exact henter _
  · split
    · exact henter _
    · rfl
  · rfl
  · exact henter _

/-- From the states between OFF and SHUTDOWN the table leads to HALTED. -/
theorem Dev.haltedFrom_txState (d : Dev) (n : Fin 8) {st : Nat} (h1 : 1 ≤ st) (h6 : st ≤ 6) :
    (d.haltedFrom n.val st).txState n.val = 8 := by
  unfold Dev.haltedFrom
  split
  · omega
  · exact Dev.enterTx_txState _ n (by decide)
  · omega
  · omega
  · exact Dev.enterTx_txState _ n (by decide)

theorem Dev.halt_txen (d : Dev) (n : Fin 8) : (d.halt n.val).flag Reg.LE_TX_STAT.TXEN_PIN n.val = false := by
  have hget : (d.halt n.val).get Reg.LE_TX_STAT.TXEN_PIN n.val = 0 :=
    (d.halt_get n (by decide)).trans ((Dev.haltedFrom_get _ n _ (.inl rfl)).trans (d.cutOff_get_written (by decide)))
  rw [Dev.flag, hget]
  rfl

theorem Dev.halt_power (d : Dev) (n : Fin 8) : (d.halt n.val).get Reg.LE_TX_STAT.POWER n.val = 0 :=
  (d.halt_get n (by decide)).trans ((Dev.haltedFrom_get _ n _ (.inr rfl)).trans (d.cutOff_get_written (by decide)))

theorem Dev.halt_txState (d : Dev) (n : Fin 8) (h1 : 1 ≤ d.txState n.val) (h6 : d.txState n.val ≤ 6) :
    (d.halt n.val).txState n.val = 8 :=
  (d.halt_get n (by decide)).trans (Dev.haltedFrom_txState _ n h1 h6)

theorem Dev.halt_txState_halted {d : Dev} {n : Fin 8} (h : d.txState n.val = 8) : (d.halt n.val).txState n.val = 8 := by
  have hkept : (d.halt n.val).txState n.val = ((d.cutOff n.val).haltedFrom n.val (d.txState n.val)).txState n.val :=
    d.halt_get n (by decide)
  rw [hkept, h]
  exact (d.cutOff_txState n).trans h

/-- A TXEN fault halts the carrier from OFF and SHUTDOWN as well (R83, log 156). -/
theorem Dev.txenHalt_txState (d : Dev) (n : Fin 8) (h : d.txState n.val ≤ 8) : (d.txenHalt n.val).txState n.val = 8 := by
  simp only [Dev.txenHalt]
  split
  · exact Dev.enterTx_txState _ n (by decide)
  · next hst =>
    by_cases h8 : d.txState n.val = 8
    · exact Dev.halt_txState_halted h8
    · exact d.halt_txState n (by omega) (by omega)

theorem exec_txenFault {s : State} (n : Fin 8) (h : s.Runs) :
    exec (.txenFault n) s = .next (s.withDev (((s.dev.wait 10000).txenHalt n.val).raise Ev.txenFault n.val n.val 0)) :=
  congrArg Host.Outcome.next (State.liftRun_runs h _)

end Sys2Proof.Machine
end

section
/-! The statement about transmit states. -/

open Sys2Proof Sys2Proof.Machine

/-- Settles O36: a halt cuts the carrier off and then follows the table of R84, of which only entries to HALTED write the state;
an entry writes the state and the squelch, and nothing after that writes them again. -/
theorem transmitStatesEntered : Obligations.TransmitStatesEntered := by
  unfold Obligations.TransmitStatesEntered
  refine ⟨fun s n hs => ⟨exec_txenFault n hs, fun d => ⟨d.halt_txen n, d.halt_power n, d.halt_txState n, d.txenHalt_txState n⟩⟩,
    fun d n st hst => ⟨d.enterTx_txState n (by omega), d.enterTx_squelch n st, d.enterTx_dacSquelch n st, d.enterTx_pend n.val⟩⟩

end

section
/-! The start-rate limiter and the times of the transmit sequence (R75, R79, R80, R86 to R89). -/

namespace Sys2Proof.Machine

/-- Microseconds in ns, with the factor first. -/
theorem us_eq (n : Nat) : us n = 1000 * n := Nat.mul_comm _ _

/-! ### Grants -/

/-- A bank grant outside a dip: once the gap after the last one has passed, to the first entry that needs one. -/
theorem Dev.bankGrant_first {d : Dev} {e : StartEntry} (hd : d.frozenSupply = false) (he : d.firstNeed .bank = some e) :
    let g := d.until (gapAfter d.lim.lastBank (1000 * d.get Reg.CHIP_START_CTRL.BANK_GAP_US 0))
    d.bankGrant = if d.txState e.le = 7 then g.bankDown e.le else g.bankUp e.le := by
  cases hlast : d.lim.lastBank with
  | none =>
    simp only [Dev.bankGrant, hd, he, hlast, Bool.false_eq_true, if_false]
    rfl
  | some t =>
    simp only [Dev.bankGrant, hd, he, hlast, Bool.false_eq_true, if_false, us_eq, Dev.until_txState]
    rfl

theorem Dev.bankGrant_frozen {d : Dev} (h : d.frozenSupply = true) : d.bankGrant = d := if_pos h

/-- A ramp slot outside a dip, while one is free: at the next forme, to the first entry that needs one. -/
theorem Dev.rampGrant_first {d : Dev} {e : StartEntry} (hd : d.frozenSupply = false)
    (hfree : d.ramping < d.get Reg.CHIP_START_CTRL.MAX_RAMPS 0) (he : d.firstNeed .ramp = some e) :
    d.rampGrant = (d.until (d.formeFrom d.now)).startRamp e.le e.kind := by
  simp only [Dev.rampGrant, hd, he, decide_eq_false (Nat.not_le.2 hfree), Bool.or_self, Bool.false_eq_true, if_false]

theorem Dev.rampGrant_frozen {d : Dev} (h : d.frozenSupply = true) : d.rampGrant = d := by
  simp only [Dev.rampGrant, h, Bool.true_or, if_true]

theorem exec_bankGrant {s : State} (h : s.Runs) : exec .bankGrant s = .next (s.withDev s.dev.bankGrant) :=
  congrArg Host.Outcome.next (State.liftRun_runs h _)

theorem exec_rampSlotGrant {s : State} (h : s.Runs) : exec .rampSlotGrant s = .next (s.withDev s.dev.rampGrant) :=
  congrArg Host.Outcome.next (State.liftRun_runs h _)

/-! ### Banks -/

/-- A bank's state is no part of the transmit state. -/
theorem Dev.setBank_txState (d : Dev) (n : Fin 8) (b v : Nat) : (d.setBank n.val b v).txState n.val = d.txState n.val := by
  have hadc : ∀ m : Fin 8, Reg.LE_TX_STAT.STATE.key m.val 0 ≠ Reg.LE_ADC_STAT.BANK.key m.val 0 := by decide
  have hdac : ∀ m : Fin 8, Reg.LE_TX_STAT.STATE.key m.val 0 ≠ Reg.LE_DAC_STAT.BANK.key m.val 0 := by decide
  unfold Dev.setBank
  split
  · exact Dev.get_set_ne d v (hadc n)
  · split
    · exact Dev.get_set_ne d v (hdac n)
    · rfl

theorem Dev.softStartDone_starting {d : Dev} {n b : Nat} (h : d.bankState n b = 1) :
    let e := (d.until (Store.get (fun _ => 0) (d.le n).tx.bankEnd b)).setBank n b 2
    d.softStartDone n b = if b = 0 then e.adcBankOn n else e := if_neg (not_not_intro h)

/-- A soft-stop that ends in SHUTDOWN with every bank off ends at OFF. -/
theorem Dev.softStopDone_stopping {d : Dev} {n : Fin 8} {b : Nat} (h : d.bankState n.val b = 3) :
    let e := (d.until (Store.get (fun _ => 0) (d.le n.val).tx.bankEnd b)).setBank n.val b 0
    d.softStopDone n.val b =
      if d.txState n.val = 7 ∧ e.banksOff n.val = true then (e.dequeue n.val).enterTx n.val 0 else e := by
  refine (if_neg (not_not_intro h)).trans ?_
  simp only [Dev.setBank_txState, Dev.until_txState, Bool.and_eq_true, decide_eq_true_eq]

theorem exec_bankSoftstartDone {s : State} (n : Fin 8) (b : Fin 3) (h : s.Runs) :
    exec (.bankSoftstartDone n b) s = .next (s.withDev (s.dev.softStartDone n.val b.val)) :=
  congrArg Host.Outcome.next (State.liftRun_runs h _)

theorem exec_bankSoftstopDone {s : State} (n : Fin 8) (b : Fin 3) (h : s.Runs) :
    exec (.bankSoftstopDone n b) s = .next (s.withDev (s.dev.softStopDone n.val b.val)) :=
  congrArg Host.Outcome.next (State.liftRun_runs h _)

/-! ### Lead and lag of TXEN -/

theorem Dev.leadExpired_enable {d : Dev} {n : Nat} (h : d.txState n = 2) :
    d.leadExpired n = (d.until (d.le n).tx.txenEnd).modTx n fun t => { t with leadDone := true } := if_pos h

/-- The output enable is no part of what a line engine holds beside its registers. -/
theorem Dev.setTxen_le (d : Dev) (n m : Nat) (b : Bool) : (d.setTxen n b).le m = d.le m := rfl

/-- The lag's end in SHUTDOWN: TXEN goes low, and a calibration's hold is HALTED. -/
theorem Dev.lagExpired_shutdown {d : Dev} {n : Nat} (h7 : d.txState n = 7) (hlag : (d.le n).tx.lagDone = false) :
    let e := ((d.until (d.le n).tx.txenEnd).setTxen n false).modTx n fun t => { t with lagDone := true }
    d.lagExpired n = if (d.le n).tx.goal = 8 then (e.dequeue n).enterTx n 8 else e := by
  simp only [Dev.lagExpired, h7, hlag, ne_eq, not_true_eq_false, decide_false, Bool.or_self, Bool.false_eq_true, if_false,
    Dev.le_modTx, Dev.setTxen_le, Dev.until_le]

theorem exec_txenLeadExpiry {s : State} (n : Fin 8) (h : s.Runs) :
    exec (.txenLeadExpiry n) s = .next (s.withDev (s.dev.leadExpired n.val)) :=
  congrArg Host.Outcome.next (State.liftRun_runs h _)

theorem exec_txenLagExpiry {s : State} (n : Fin 8) (h : s.Runs) :
    exec (.txenLagExpiry n) s = .next (s.withDev (s.dev.lagExpired n.val)) :=
  congrArg Host.Outcome.next (State.liftRun_runs h _)

/-! ### The end of a ramp, and a start that is held -/

/-- Outside a dip a ramp runs to its end, after the forme at which it reverses where it does. -/
theorem Dev.rampComplete_ramping {d : Dev} {n : Nat} (hst : d.txState n = 3 ∨ d.txState n = 5) (hd : d.frozenSupply = false) :
    let e := if d.reversing n then d.rampRun n (d.rampAt n + 1280) else d
    d.rampComplete n = (e.rampRun n (e.rampEnd n)).endRamp n := by
  have hramps : ((decide (d.txState n ≠ 3) && decide (d.txState n ≠ 5)) || d.frozenSupply) = false := by
    obtain h | h := hst <;> simp [h, hd]
  simp only [Dev.rampComplete, hramps, Bool.false_eq_true, if_false]
  rfl

theorem exec_rampComplete {s : State} (n : Fin 8) (h : s.Runs) :
    exec (.rampComplete n) s = .next (s.withDev (s.dev.rampComplete n.val)) :=
  congrArg Host.Outcome.next (State.liftRun_runs h _)

/-- An entry of which it has not been said that it waits: 100 ms after it came, it is said. -/
theorem Dev.startHeld_waiting {d : Dev} {n : Nat} {e : StartEntry} (he : d.entry n = some e) (hr : e.heldRaised = false) :
    d.startHeld n = ((d.until (e.since + 100000000)).modQueue fun q =>
      q.map fun x => if x.le = n then { x with heldRaised := true } else x).raise Ev.startHeld 0 n e.kind := by
  simp only [Dev.startHeld, he, hr, Bool.false_eq_true, if_false]
  rfl

theorem exec_startHeld {s : State} (n : Fin 8) (h : s.Runs) :
    exec (.startHeld n) s = .next (s.withDev (s.dev.startHeld n.val)) :=
  congrArg Host.Outcome.next (State.liftRun_runs h _)

end Sys2Proof.Machine
end

section
/-! The statements about the limiter's grants and the sequence's times. -/

open Sys2Proof Sys2Proof.Machine

/-- Settles O37: time runs on to the gap's end or the next forme, and the queue's first entry in need takes the grant; a dip turns
both grants away. -/
theorem limiterGrants : Obligations.LimiterGrants := by
  unfold Obligations.LimiterGrants
  refine fun s hs => ⟨fun hd => ⟨?bankDip, ?rampDip⟩, fun e hd he => ?bank, fun e hd hfree he => ?ramp⟩
  case bankDip => rw [exec_bankGrant hs, Dev.bankGrant_frozen hd]; rfl
  case rampDip => rw [exec_rampSlotGrant hs, Dev.rampGrant_frozen hd]; rfl
  case bank =>
    refine ⟨s.dev.until (gapAfter s.dev.lim.lastBank (1000 * s.dev.get Reg.CHIP_START_CTRL.BANK_GAP_US 0)),
      Dev.until_now _ _, Dev.until_eq _ _, ?_⟩
    rw [exec_bankGrant hs, Dev.bankGrant_first hd he]
  case ramp => rw [exec_rampSlotGrant hs, Dev.rampGrant_first hd hfree he]

/-- Settles O38: each event runs time on to the end that was kept for it, and takes the branch that its guards choose. -/
theorem sequenceTimesEnd : Obligations.SequenceTimesEnd := by
  unfold Obligations.SequenceTimesEnd
  refine fun s n hs => ⟨fun b hb => ?up, fun b hb => ?off, fun h2 => ?lead, fun hst hd => ?ramp, fun h7 hlag => ?lag,
    fun e he hr => ?held⟩
  case up => rw [exec_bankSoftstartDone n b hs, Dev.softStartDone_starting hb]
  case off => rw [exec_bankSoftstopDone n b hs, Dev.softStopDone_stopping hb]
  case lead =>
    rw [exec_txenLeadExpiry n hs, Dev.leadExpired_enable h2]
    exact ⟨_, rfl, congrArg (fun x : Le => x.tx.leadDone) (Dev.le_modTx _ _ _), Dev.until_now _ _, Dev.until_regs _ _, rfl⟩
  case ramp => rw [exec_rampComplete n hs, Dev.rampComplete_ramping hst hd]
  case lag => rw [exec_txenLagExpiry n hs, Dev.lagExpired_shutdown h7 hlag]
  case held => rw [exec_startHeld n hs, Dev.startHeld_waiting he hr]

end

section
/-! Bit-loading switches at their galley, the mask's slew, and the commits at their boundary (R65, R71, R122, R152, R456). -/

namespace Sys2Proof.Machine

/-! ### Bit-loading switches (R65, R122) -/

theorem Dev.raise_le (d : Dev) (e : Ev) (i ins code n : Nat) : (d.raise e i ins code).le n = d.le n := by
  simp only [Dev.le, Dev.raise_les]

/-- What a transmit bank switch writes: the other bank is active, and the request is done with result 1. -/
def switchFields (active : Nat) : List (Fld × Nat) :=
  [(Reg.LE_TX_BL_CTRL.ACTIVE, 1 - active), (Reg.LE_TX_BL_CTRL.SWITCH, b1 false), (Reg.LE_TX_BL_CTRL.RESULT, 1)]

theorem switchFields_keys_nodup (n active : Nat) : ((switchFields active).map fun e => e.1.key n 0).Nodup := by
  simp only [switchFields, List.map_cons, List.map_nil, List.nodup_cons, List.mem_cons, List.not_mem_nil, or_false, not_or,
    not_false_eq_true, List.nodup_nil, and_true]
  exact ⟨⟨Fld.key_ne_of_place n rfl rfl (by decide), Fld.key_ne_of_place n rfl rfl (by decide)⟩,
    Fld.key_ne_of_place n rfl rfl (by decide)⟩

/-- The transmit bank switched: nothing waits any more, neither a switch nor a proposal of one. -/
def Dev.txSwitched (d : Dev) (n : Nat) : Dev :=
  ((d.setAll n (switchFields (d.txActive n))).modTx n fun t => { t with switchAt := none }).modChm n
    fun c => { c with proposal := none }

theorem Dev.txSwitched_le (d : Dev) (n : Nat) :
    ((d.txSwitched n).le n).tx.switchAt = none ∧ ((d.txSwitched n).le n).chm.proposal = none := by
  simp only [Dev.txSwitched, Dev.le_modChm, Dev.le_modTx, and_self]

/-- A transmit switch that is due takes effect and is reported. -/
theorem Dev.blApply_tx_due {d : Dev} {n g : Nat} (hg : (d.le n).tx.switchAt = some g) (hgal : 0 < d.galleys)
    (hr : reached d.gnum g = true) : d.blApply n false = (d.txSwitched n).raise Ev.blSwitched n n 0 := by
  simp only [Dev.blApply, hg, hr, decide_eq_false (Nat.pos_iff_ne_zero.1 hgal), Bool.not_true, Bool.or_self, Bool.false_eq_true,
    if_false]
  rfl

/-- A field that the switch writes reads as written. -/
theorem Dev.get_txSwitched_raise (d : Dev) {n v : Nat} {f : Fld} (e : Ev) (ins code : Nat) (hk : f.KeptByEvents)
    (hm : (f, v) ∈ switchFields (d.txActive n)) : ((d.txSwitched n).raise e n ins code).get f n = trunc f.width v := by
  rw [Dev.raise_get _ _ _ _ _ _ hk, Dev.txSwitched, Dev.modChm_get, Dev.modTx_get]
  exact Dev.get_setAll (switchFields_keys_nodup n _) hm d

/-- A receive switch asked for by software is due by the transmit galleys. -/
theorem Dev.blApply_rx_due {d : Dev} {n g : Nat} (hg : (d.le n).rx.switchAt = some g) (ha : (d.le n).chm.armed = none)
    (hgal : 0 < d.galleys) (hr : reached d.gnum g = true) :
    d.blApply n true = ((d.rxBankSwitch n).set Reg.LE_RX_BL_CTRL.RESULT n 1).modChm n fun c => { c with armed := none } := by
  simp only [Dev.blApply, hg, ha, hr, decide_eq_true hgal, Option.isSome_none, Bool.false_eq_true, if_false, Bool.and_self, if_true]

theorem exec_blSwitchApply {s : State} (n : Fin 8) (rx : Bool) (h : s.Runs) :
    exec (.blSwitchApply n rx) s = .next (s.withDev (s.dev.blApply n.val rx)) :=
  congrArg Host.Outcome.next (State.liftRun_runs h _)

/-! ### The mask's slew (R71) -/

/-- A step of the slew at the galley boundary after the last one. -/
def Dev.slewMoved (d : Dev) (n : Nat) : Dev :=
  ((d.until (d.galleyFrom ((d.le n).tx.slewAt + 1))).set Reg.LE_TX_MASK_CTRL.SLEW_LEFT n
    (d.get Reg.LE_TX_MASK_CTRL.SLEW_LEFT n - 1)).modTx n fun t => { t with slewAt := d.galleyFrom ((d.le n).tx.slewAt + 1) }

/-- While steps are left and no dip freezes the slew, a step is made, and the last one ends it and is reported. -/
theorem Dev.slewStep_left {d : Dev} {n : Nat} (hd : d.frozenSupply = false) (hl : 0 < d.get Reg.LE_TX_MASK_CTRL.SLEW_LEFT n) :
    d.slewStep n = if d.get Reg.LE_TX_MASK_CTRL.SLEW_LEFT n = 1 then
      ((d.slewMoved n).setB Reg.LE_TX_MASK_CTRL.SLEWING n false).raise Ev.maskSlewed n n 0 else d.slewMoved n := by
  simp only [Dev.slewStep, hd, decide_eq_false (Nat.pos_iff_ne_zero.1 hl), Bool.or_self, Bool.false_eq_true, if_false]
  rfl

theorem Dev.slewStep_frozen {d : Dev} (n : Nat) (h : d.frozenSupply = true) : d.slewStep n = d := by
  simp only [Dev.slewStep, h, Bool.or_true, if_true]

theorem Dev.slewMoved_left (d : Dev) (n : Nat) :
    (d.slewMoved n).get Reg.LE_TX_MASK_CTRL.SLEW_LEFT n = trunc 8 (d.get Reg.LE_TX_MASK_CTRL.SLEW_LEFT n - 1) :=
  Dev.get_set_same _ _ _ _

theorem Dev.slewMoved_now (d : Dev) (n : Nat) :
    (d.slewMoved n).now = max d.now (d.galleyFrom ((d.le n).tx.slewAt + 1)) := Dev.until_now _ _

theorem Dev.slewMoved_slewAt (d : Dev) (n : Nat) :
    ((d.slewMoved n).le n).tx.slewAt = d.galleyFrom ((d.le n).tx.slewAt + 1) :=
  congrArg (fun x : Le => x.tx.slewAt) (Dev.le_modTx _ _ _)

/-- A step writes SLEW_LEFT; beside it, the line engine's state and the time move on. -/
theorem Dev.slewMoved_eq_set (d : Dev) (n : Nat) : d.slewMoved n =
    Dev.set { d with les := (d.slewMoved n).les, now := (d.slewMoved n).now, dt := (d.slewMoved n).dt }
      Reg.LE_TX_MASK_CTRL.SLEW_LEFT n (d.get Reg.LE_TX_MASK_CTRL.SLEW_LEFT n - 1) := by
  unfold Dev.slewMoved Dev.until
  split <;> rfl

/-- A change that starts from other line engine states and another time leaves the rest as the original has it. -/
theorem Dev.FieldsOnly.restore_les_time {p : Nat → Bool} {d e : Dev} {l : Store Le} {a b : Nat}
    (h : Dev.FieldsOnly p { d with les := l, now := a, dt := b } e) :
    d.FieldsOnly p { e with les := d.les, now := d.now, dt := d.dt } := by
  obtain ⟨hrest, hregs⟩ := h
  exact ⟨congrArg (fun x : Dev => { x with les := d.les, now := d.now, dt := d.dt }) hrest, hregs⟩

/-- The fields that the slew writes. -/
def slewFields : List Fld := [Reg.LE_TX_MASK_CTRL.SLEW_LEFT, Reg.LE_TX_MASK_CTRL.SLEWING]

theorem Dev.fieldsOnly_slewMoved (d : Dev) (n : Nat) :
    Dev.FieldsOnly (keysOf slewFields n)
      { d with les := (d.slewMoved n).les, now := (d.slewMoved n).now, dt := (d.slewMoved n).dt } (d.slewMoved n) := by
  have hset := Dev.fieldsOnly_set
    { d with les := (d.slewMoved n).les, now := (d.slewMoved n).now, dt := (d.slewMoved n).dt }
    (d.get Reg.LE_TX_MASK_CTRL.SLEW_LEFT n - 1) (keysOf_key (l := slewFields) n List.mem_cons_self)
  rwa [← Dev.slewMoved_eq_set] at hset

/-- The end of the slew: SLEWING is cleared and the event raised. -/
theorem Dev.fieldsOnly_slewEnd (d : Dev) (n : Nat) :
    d.FieldsOnly (keysOf slewFields n) ((d.setB Reg.LE_TX_MASK_CTRL.SLEWING n false).raise Ev.maskSlewed n n 0) :=
  (d.fieldsOnly_set _ (keysOf_key n (List.mem_cons_of_mem _ List.mem_cons_self))).trans
    ((Dev.eventsOnly_raise _ _ _ _ _).fieldsOnly _)

theorem Dev.slewEnd_left (d : Dev) (n : Nat) :
    ((d.setB Reg.LE_TX_MASK_CTRL.SLEWING n false).raise Ev.maskSlewed n n 0).get Reg.LE_TX_MASK_CTRL.SLEW_LEFT n =
      d.get Reg.LE_TX_MASK_CTRL.SLEW_LEFT n :=
  (Dev.raise_get _ _ _ _ _ _ (by decide)).trans (Dev.get_set_ne d _ (Fld.key_ne_of_place n rfl rfl (by decide)))

theorem Dev.slewEnd_slewing (d : Dev) (n : Nat) :
    ((d.setB Reg.LE_TX_MASK_CTRL.SLEWING n false).raise Ev.maskSlewed n n 0).flag Reg.LE_TX_MASK_CTRL.SLEWING n = false := by
  have hkept : Reg.LE_TX_MASK_CTRL.SLEWING.KeptByEvents := by decide
  exact ((Dev.eventsOnly_raise _ _ _ _ _).flag (hkept.evKey_eq_false n)).trans (Dev.flag_setB_same d (by decide) n false)

theorem exec_maskSlewStep {s : State} (n : Fin 8) (h : s.Runs) :
    exec (.maskSlewStep n) s = .next (s.withDev (s.dev.slewStep n.val)) :=
  congrArg Host.Outcome.next (State.liftRun_runs h _)

/-! ### Commits at their boundary (R152, R456) -/

theorem exec_wcCommitApply {s : State} (c : Commit) (h : s.Runs) :
    exec (.wcCommitApply c) s = .next (s.withDev (s.dev.commitApply c)) :=
  congrArg Host.Outcome.next (State.liftRun_runs h _)

/-- A committed ITER_MAX becomes the limit at its boundary, and the admission totals follow. -/
theorem Dev.iterApply_pending {d : Dev} {n t : Nat} (h : (d.le n).fec.iterPend = some t) :
    d.iterApply n = ((((d.untilCommit t).setB Reg.LE_FEC_ITER.COMMIT n false).modFec n fun x => { x with iterPend := none }).set
      Reg.LE_FEC_STAT.ITER_NOW n (d.get Reg.LE_FEC_ITER.ITER_MAX n)).recheckBounds := by
  have hne : Reg.LE_FEC_ITER.ITER_MAX.key n 0 ≠ Reg.LE_FEC_ITER.COMMIT.key n 0 := Fld.key_ne_of_place n rfl rfl (by decide)
  have hmax : (((d.untilCommit t).setB Reg.LE_FEC_ITER.COMMIT n false).modFec n fun x => { x with iterPend := none }).get
      Reg.LE_FEC_ITER.ITER_MAX n = d.get Reg.LE_FEC_ITER.ITER_MAX n := by
    rw [Dev.modFec_get, Dev.setB, Dev.get_set_ne _ _ hne, Dev.untilCommit, Dev.until_get]
  simp only [Dev.iterApply, h, Dev.fecIter, hmax]

end Sys2Proof.Machine
end

section
/-! The statements about bit-loading switches, masks and commits. -/

open Sys2Proof Sys2Proof.Machine

/-- Settles O39: the requests are accepted writes of SWITCH; at its galley a switch writes three fields, and nothing waits after
it. -/
theorem bitLoadingSwitches : Obligations.BitLoadingSwitches := by
  unfold Obligations.BitLoadingSwitches
  refine fun s n => ⟨exec_blSwitch n, fun g hs hg hgal hr => ?tx, fun g hs hg ha hgal hr => ?rx, exec_rxBlSwitch n⟩
  case tx =>
    rw [exec_blSwitchApply n false hs, Dev.blApply_tx_due hg hgal hr]
    refine ⟨_, rfl, ?active, Dev.flag_of_get (by decide) ?switch, ?result, ?switchAt, ?proposal, rfl⟩
    case active =>
      exact Dev.get_txSwitched_raise (f := Reg.LE_TX_BL_CTRL.ACTIVE) _ _ _ _ (by decide) List.mem_cons_self
    case switch =>
      exact Dev.get_txSwitched_raise (f := Reg.LE_TX_BL_CTRL.SWITCH) _ _ _ _ (by decide) (by simp [switchFields])
    case result =>
      exact Dev.get_txSwitched_raise (f := Reg.LE_TX_BL_CTRL.RESULT) (v := 1) _ _ _ _ (by decide) (by simp [switchFields])
    case switchAt => rw [State.withDev_dev, Dev.raise_le, (Dev.txSwitched_le _ _).1]
    case proposal => rw [State.withDev_dev, Dev.raise_le, (Dev.txSwitched_le _ _).2]
  case rx => rw [exec_blSwitchApply n true hs, Dev.blApply_rx_due hg ha hgal hr]

/-- Settles O40: a step of the slew writes SLEW_LEFT, the last one SLEWING as well; a commit is applied by its own operation. -/
theorem masksAndCommitsApply : Obligations.MasksAndCommitsApply := by
  unfold Obligations.MasksAndCommitsApply
  refine ⟨fun s n => ⟨exec_maskCommit n, fun hs hd hl hw => ?slew, fun hs hd => ?dip⟩,
    fun s n hs => ⟨exec_wcCommitApply _ hs, exec_wcCommitApply _ hs, exec_wcCommitApply _ hs, exec_wcCommitApply _ hs,
      fun t ht => Dev.iterApply_pending ht⟩⟩
  case slew =>
    have hleft : (s.dev.slewMoved n.val).get Reg.LE_TX_MASK_CTRL.SLEW_LEFT n.val =
        s.dev.get Reg.LE_TX_MASK_CTRL.SLEW_LEFT n.val - 1 :=
      (s.dev.slewMoved_left n.val).trans (Nat.mod_eq_of_lt ((Nat.sub_le _ _).trans_lt hw))
    have hframe := s.dev.fieldsOnly_slewMoved n.val
    rw [exec_maskSlewStep n hs, Dev.slewStep_left hd hl]
    refine ⟨_, rfl, ?_⟩
    rw [State.withDev_dev]
    split
    case isTrue hlast =>
      refine ⟨(Dev.slewEnd_left _ _).trans hleft, (Dev.raise_now _ _ _ _ _).trans (s.dev.slewMoved_now n.val), ?_,
        fun _ => Dev.slewEnd_slewing _ _, (hframe.trans (Dev.fieldsOnly_slewEnd _ _)).restore_les_time, rfl⟩
      rw [Dev.raise_le]
      exact s.dev.slewMoved_slewAt n.val
    case isFalse hmore =>
      exact ⟨hleft, s.dev.slewMoved_now n.val, s.dev.slewMoved_slewAt n.val, fun hlast => absurd hlast hmore,
        hframe.restore_les_time, rfl⟩
  case dip => rw [exec_maskSlewStep n hs, Dev.slewStep_frozen _ hd]; rfl

end

section
/-! The receive sequence (R115 to R119): what an entry to a receive state writes, the milestones that lead on, timeouts, and losses
of light and of lock. -/

namespace Sys2Proof.Machine

/-! ### An entry to a receive state (R115, R145, R166) -/

/-- What ends with alignment: forme and galley alignment, the hunt, and its candidates. -/
def alignmentEnd : List (Fld × Nat) :=
  [(Reg.FRM_ALIGN_STAT.FA, 0), (Reg.FRM_ALIGN_STAT.GA, 0), (Reg.FRM_ALIGN_STAT.HUNT, 0), (Reg.FRM_ALIGN_STAT.CAND, 0)]

/-- The receive state and the decoder's RUN. -/
def rxShown : List Fld := [Reg.LE_RX_STAT.STATE, Reg.LE_FEC_STAT.RUN]

/-- What an entry to state `st` writes of them: outside FRAME and LOCKED the decoder stops. -/
def rxStateFields (st : Nat) : List (Fld × Nat) :=
  (Reg.LE_RX_STAT.STATE, st) :: if st = 8 ∨ st = 9 then [] else [(Reg.LE_FEC_STAT.RUN, 0)]

theorem rxShown_key_ne_alignment (n : Fin 8) : ∀ f ∈ rxShown, f.key n.val 0 ∉ alignmentEnd.map fun e => e.1.key n.val 0 := by
  revert n; decide

theorem rxShown_key_ne_hunt (n : Fin 8) : ∀ f ∈ rxShown, f.key n.val 0 ≠ Reg.FRM_ALIGN_STAT.HUNT.key n.val 0 := by
  revert n; decide

theorem rxState_key_ne_run (n : Fin 8) : Reg.LE_RX_STAT.STATE.key n.val 0 ≠ Reg.LE_FEC_STAT.RUN.key n.val 0 := by
  revert n; decide

theorem rxStateFields_keys_nodup (n : Fin 8) (st : Nat) : ((rxStateFields st).map fun e => e.1.key n.val 0).Nodup := by
  unfold rxStateFields
  split
  · exact List.nodup_singleton _
  · exact List.nodup_cons.2 ⟨fun h => rxState_key_ne_run n (List.mem_singleton.1 h), List.nodup_singleton _⟩

theorem Dev.dropAlignment_get_ne (d : Dev) {n : Nat} {f : Fld} (h : f.key n 0 ∉ alignmentEnd.map fun e => e.1.key n 0) :
    (d.dropAlignment n).get f n = d.get f n :=
  (Dev.modFrm_get _ _ _ _ _).trans (Dev.get_setAll_ne h d)

/-- A write gives a field the same value wherever the field had the same value before. -/
theorem Dev.get_set_congr {d e : Dev} {f : Fld} {i : Nat} (g : Fld) (j v : Nat) (h : d.get f i = e.get f i) :
    (d.set g j v).get f i = (e.set g j v).get f i := by
  by_cases hk : f.key i 0 = g.key j 0
  · simp only [Dev.get, Dev.set, hk, Store.get_set_same]
  · rw [Dev.get_set_ne d v hk, Dev.get_set_ne e v hk, h]

/-- The state written, before the framer and the decoder follow: the time is kept, and the SNR ends with LOCKED. -/
def Dev.rxStateSet (d : Dev) (n st : Nat) : Dev :=
  let e := (d.set Reg.LE_RX_STAT.STATE n st).modRx n fun r => { r with stateAt := d.now }
  if d.rxState n = 9 ∧ st ≠ 9 then e.modRx n fun r => { r with snr := [] } else e

theorem Dev.rxStateSet_get (d : Dev) (n st : Nat) (f : Fld) (i : Nat) :
    (d.rxStateSet n st).get f i = (d.set Reg.LE_RX_STAT.STATE n st).get f i := by
  unfold Dev.rxStateSet
  split <;> rfl

theorem Dev.enterRx_eq (d : Dev) (n st : Nat) : d.enterRx n st =
    if st = 8 then
      (((d.rxStateSet n st).dropAlignment n).setB Reg.FRM_ALIGN_STAT.HUNT n
        ((d.rxStateSet n st).get Reg.LE_RX_PRBS.MODE n != 2)).modRx n fun r => { r with prbsDscs := 0 }
    else if st = 9 then (d.rxStateSet n st).setB Reg.FRM_ALIGN_STAT.HUNT n false
    else (((d.rxStateSet n st).dropAlignment n).setB Reg.LE_FEC_STAT.RUN n false).modFec n fun x =>
      { x with dec := StairDec.reset } := rfl

/-- Of the two fields an entry writes the state, and RUN outside FRAME and LOCKED. -/
theorem Dev.enterRx_get (d : Dev) (n : Fin 8) (st : Nat) {f : Fld} (hf : f ∈ rxShown) :
    (d.enterRx n.val st).get f n.val = (d.setAll n.val (rxStateFields st)).get f n.val := by
  have halign := rxShown_key_ne_alignment n f hf
  have hhunt := rxShown_key_ne_hunt n f hf
  have hstate := d.rxStateSet_get n.val st f n.val
  rw [Dev.enterRx_eq, rxStateFields, Dev.setAll_cons]
  by_cases h8 : st = 8
  · rw [if_pos h8, if_pos (.inl h8), Dev.modRx_get]
    exact (Dev.get_set_ne _ _ hhunt).trans ((Dev.dropAlignment_get_ne _ halign).trans hstate)
  · by_cases h9 : st = 9
    · rw [if_neg h8, if_pos h9, if_pos (.inr h9)]
      exact (Dev.get_set_ne _ _ hhunt).trans hstate
    · rw [if_neg h8, if_neg h9, if_neg (not_or.2 ⟨h8, h9⟩), Dev.modFec_get]
      exact Dev.get_set_congr _ _ _ ((Dev.dropAlignment_get_ne _ halign).trans hstate)

theorem Dev.enterRx_rxState (d : Dev) (n : Fin 8) {st : Nat} (h : st < 16) : (d.enterRx n.val st).rxState n.val = st :=
  (d.enterRx_get n st List.mem_cons_self).trans
    ((Dev.get_setAll (rxStateFields_keys_nodup n st) List.mem_cons_self d).trans (Nat.mod_eq_of_lt h))

/-- The decoder's RUN stays in FRAME and LOCKED, and ends with an entry to any other state. -/
theorem Dev.enterRx_run (d : Dev) (n : Fin 8) (st : Nat) : (d.enterRx n.val st).flag Reg.LE_FEC_STAT.RUN n.val =
    ((st == 8 || st == 9) && d.flag Reg.LE_FEC_STAT.RUN n.val) := by
  have hget := d.enterRx_get n st (f := Reg.LE_FEC_STAT.RUN) (by decide)
  by_cases h : st = 8 ∨ st = 9
  · have hrun : (d.enterRx n.val st).get Reg.LE_FEC_STAT.RUN n.val = d.get Reg.LE_FEC_STAT.RUN n.val := by
      rw [hget, rxStateFields, if_pos h]
      exact Dev.get_set_ne d st (rxState_key_ne_run n).symm
    have hdecodes : (st == 8 || st == 9) = true := by simpa using h
    rw [Dev.flag, hrun, hdecodes, Bool.true_and, Dev.flag]
  · have hmem : (Reg.LE_FEC_STAT.RUN, b1 false) ∈ rxStateFields st := by simp [rxStateFields, h, b1]
    have hstops : (st == 8 || st == 9) = false := by simpa using h
    rw [hstops, Bool.false_and]
    exact Dev.flag_of_get (by decide) (hget.trans (Dev.get_setAll (rxStateFields_keys_nodup n st) hmem d))

/-! ### Light lost and found (R115, R118) -/

theorem Dev.losAssert_eq (d : Dev) (n : Nat) : d.losAssert n =
    (if d.rxState n ≤ 2 then (d.setB Reg.LE_RX_STAT.LOS n true).chimeLost n
      else ((d.setB Reg.LE_RX_STAT.LOS n true).chimeLost n).enterSignal n).defSync n := by
  have hrests : (d.rxState n = 0 || d.rxState n = 1 || d.rxState n = 2) = decide (d.rxState n ≤ 2) := by
    rw [Bool.eq_iff_iff]
    simp only [Bool.or_eq_true, decide_eq_true_eq]
    omega
  simp only [Dev.losAssert, hrests, decide_eq_true_eq]

theorem exec_rawLosAssert {s : State} (n : Fin 8) (h : s.Runs) :
    exec (.rawLosAssert n) s = .next (s.withDev (s.dev.losAssert n.val)) :=
  congrArg Host.Outcome.next (State.liftRun_runs h _)

theorem exec_rawLosRelease {s : State} (n : Fin 8) (h : s.Runs) :
    exec (.rawLosRelease n) s = .next (s.withDev ((s.dev.setB Reg.LE_RX_STAT.LOS n.val false).defSync n.val)) :=
  congrArg Host.Outcome.next (State.liftRun_runs h _)

theorem Dev.signalPresent_lit {d : Dev} {n : Nat} (hst : d.rxState n = 2) (hlos : d.flag Reg.LE_RX_STAT.LOS n = false) :
    d.signalPresent n = (d.enterSearch n false).defSync n := by
  simp only [Dev.signalPresent, hst, hlos, decide_true, Bool.not_false, Bool.and_self, if_true]

theorem exec_signalPresent {s : State} (n : Fin 8) (h : s.Runs) :
    exec (.signalPresent n) s = .next (s.withDev (s.dev.signalPresent n.val)) :=
  congrArg Host.Outcome.next (State.liftRun_runs h _)

/-! ### Milestones of acquisition (R115, R116) -/

theorem Dev.searchDone_found {d : Dev} {n : Nat} {found : List Int} (hst : d.rxState n = 3)
    (h0 : 0 < (found.filter (d.searchCovers n)).length) (h4 : (found.filter (d.searchCovers n)).length ≤ 4) :
    d.searchDone n found = ((d.setCands n (found.filter (d.searchCovers n))).enterFreq n).defSync n := if_pos ⟨hst, h0, h4⟩

theorem exec_cdSearchDone {s : State} (n : Fin 8) (found : List Int) (h : s.Runs) :
    exec (.cdSearchDone n found) s = .next (s.withDev (s.dev.searchDone n.val found)) :=
  congrArg Host.Outcome.next (State.liftRun_runs h _)

theorem Dev.freqFound_within {d : Dev} {n : Nat} {mhz : Int} (hst : d.rxState n = 4) (hr : mhz.natAbs ≤ 5000) :
    d.freqFound n mhz = (d.enterRx n 5).defSync n := (if_pos hst).trans (if_neg (Nat.not_lt.2 hr))

theorem exec_freqAcquired {s : State} (n : Fin 8) (mhz : Int) (h : s.Runs) :
    exec (.freqAcquired n mhz) s = .next (s.withDev (s.dev.freqFound n.val mhz)) :=
  congrArg Host.Outcome.next (State.liftRun_runs h _)

theorem Dev.rxAdvance_from {d : Dev} {n st : Nat} (hst : d.rxState n = st) :
    d.rxAdvance n st = (d.enterRx n (st + 1)).defSync n := if_pos hst

/-- The equaliser, the timing and the pilot advance from CONVERGE, TIMING and PHASE. -/
theorem exec_rxMilestone {s : State} {n : Fin 8} {c : Instr} {st : Nat} (h : s.Runs)
    (hc : (c = .meqConverged n ∧ st = 5) ∨ (c = .trlLocked n ∧ st = 6) ∨ (c = .pilotLocked n ∧ st = 7)) :
    exec c s = .next (s.withDev (s.dev.rxAdvance n.val st)) := by
  obtain ⟨rfl, rfl⟩ | ⟨rfl, rfl⟩ | ⟨rfl, rfl⟩ := hc <;> exact congrArg Host.Outcome.next (State.liftRun_runs h _)

/-! ### Timeouts and losses of lock (R116, R117) -/

theorem Dev.acqExpired_acquiring {d : Dev} {n : Nat} (h3 : 3 ≤ d.rxState n) (h8 : d.rxState n ≤ 8) :
    d.acqExpired n = (if d.rxState n = 3 then ((d.until (d.acqTimeout n)).failedPass n).enterSearch n false
      else (d.until (d.acqTimeout n)).dropCandidate n).defSync n := if_pos ⟨h3, h8⟩

theorem exec_acqTimeout {s : State} (n : Fin 8) (h : s.Runs) :
    exec (.acqTimeout n) s = .next (s.withDev (s.dev.acqExpired n.val)) :=
  congrArg Host.Outcome.next (State.liftRun_runs h _)

/-- The loss recorded: LOL with its cause, the end of the galley it falls in, and the reacquisition that follows. -/
def Dev.lossRecorded (d : Dev) (n cause : Nat) : Dev :=
  let e := (d.setB Reg.LE_RX_STAT.LOL n true).set Reg.LE_RX_STAT.LOL_CAUSE n cause
  (e.modRx n fun r => { r with lossEnd := some (e.galleyEnd n), reacq := true }).modFrm n fun f => { f with lolHeld := cause == 5 }

/-- From LOCKED a loss is recorded, and the path is held for the partner's beacon or starts again with D_set. -/
theorem Dev.loseLock_locked {d : Dev} {n : Nat} (cause : Nat) (hst : d.rxState n = 9) :
    d.loseLock n cause = (if cause = 6 then ((d.lossRecorded n cause).setCands n []).enterRx n 10
      else ((d.lossRecorded n cause).setCands n [(d.lossRecorded n cause).dSet n]).enterFreq n).defSync n := if_pos hst

theorem exec_lossOfLock {s : State} (n : Fin 8) (cause : Nat) (h : s.Runs) :
    exec (.lossOfLock n cause) s = .next (s.withDev (s.dev.loseLock n.val cause)) :=
  congrArg Host.Outcome.next (State.liftRun_runs h _)

end Sys2Proof.Machine
end

section
/-! The statement about acquisition. -/

open Sys2Proof Sys2Proof.Machine

/-- Settles O41: the premises of each clause choose the branch of the event's operation, and an entry to a receive state writes
STATE, and RUN outside FRAME and LOCKED, and neither of them again. -/
theorem acquisitionAdvancesOrFails : Obligations.AcquisitionAdvancesOrFails := by
  unfold Obligations.AcquisitionAdvancesOrFails
  refine ⟨fun s n hs => ⟨?los, exec_rawLosRelease n hs, fun hst hlos => ?signal, fun l hst h0 h4 => ?search,
      fun mhz hst hr => ?freq, fun c st hc hst => ?milestone, fun d st hst => ⟨d.enterRx_rxState n (by omega), d.enterRx_run n st⟩⟩,
    fun s n hs => ⟨fun h3 h8 => ?timeout, fun cause hst => ?loss⟩⟩
  case los => rw [exec_rawLosAssert n hs, Dev.losAssert_eq]
  case signal => rw [exec_signalPresent n hs, Dev.signalPresent_lit hst hlos]
  case search => rw [exec_cdSearchDone n l hs, Dev.searchDone_found hst h0 h4]
  case freq => rw [exec_freqAcquired n mhz hs, Dev.freqFound_within hst hr]
  case milestone => rw [exec_rxMilestone hs hc, Dev.rxAdvance_from hst]
  case timeout => rw [exec_acqTimeout n hs, Dev.acqExpired_acquiring h3 h8]
  case loss =>
    rw [exec_lossOfLock n cause hs, Dev.loseLock_locked cause hst]
    rfl

end

section
/-! Received galleys, steps of dispersion and the receive test pattern (R107, R121, R124, R518). -/

namespace Sys2Proof.Machine

/-! ### Received galleys and steps of dispersion (R107, R518) -/

theorem exec_rxGalleyComplete {s : State} (n : Fin 8) (m : RxGalley) (h : s.Runs) :
    exec (.rxGalleyComplete n m) s = .next (s.withDev (s.dev.rxComplete n.val m)) :=
  congrArg Host.Outcome.next (State.liftRun_runs h _)

/-- D_set replaced at a galley boundary: the galley that starts carries the step, which is reported. -/
def Dev.cdeStepped (d : Dev) (n : Nat) (v : Int) : Dev :=
  (((d.setD n v).modRx n fun r => { r with dNext := none, dStep := true }).raise Ev.cdeStep n n 0).recheckBounds

theorem Dev.cdeStep_manual {d : Dev} {n : Nat} {v : Int} (hm : d.cdeManual n = true) (hv : (d.le n).rx.dNext = some v) :
    d.cdeStep n = d.cdeStepped n v := by
  simp only [Dev.cdeStep, hm, hv, if_true]
  rfl

theorem exec_cdeStep {s : State} (n : Fin 8) (h : s.Runs) : exec (.cdeStep n) s = .next (s.withDev (s.dev.cdeStep n.val)) :=
  congrArg Host.Outcome.next (State.liftRun_runs h _)

/-! ### The receive test pattern (R124, R125) -/

/-- A count capped at the highest value of its field fits the field. -/
theorem trunc_capN (w v : Nat) : trunc w (capN (pow2 w - 1) v) = capN (pow2 w - 1) v := by
  have hcap := capN_le (pow2 w - 1) v
  have hpos := pow2_pos w
  exact Nat.mod_eq_of_lt (by omega)

/-- What a run of bits shows: the errors and the units checked, counted on, and the lock. -/
def Dev.prbsShown (d : Dev) (n : Nat) (r : PrbsRun) : List (Fld × Nat) :=
  [(Reg.LE_RX_PRBS_ERR.ERR, capN (pow2 Reg.LE_RX_PRBS_ERR.ERR.width - 1) (d.get Reg.LE_RX_PRBS_ERR.ERR n + r.errs)),
    (Reg.LE_RX_PRBS_CNT.CNT, capN (pow2 Reg.LE_RX_PRBS_CNT.CNT.width - 1) (d.get Reg.LE_RX_PRBS_CNT.CNT n + r.settle.2)),
    (Reg.LE_RX_PRBS.LOCK, b1 r.c.locked)]

/-- The fields that take it. -/
def prbsFields : List Fld := [Reg.LE_RX_PRBS.LOCK, Reg.LE_RX_PRBS_ERR.ERR, Reg.LE_RX_PRBS_CNT.CNT]

theorem Dev.prbsShown_keys_nodup (d : Dev) (n : Nat) (r : PrbsRun) : ((d.prbsShown n r).map fun e => e.1.key n 0).Nodup := by
  simp only [Dev.prbsShown, List.map_cons, List.map_nil, List.nodup_cons, List.mem_cons, List.not_mem_nil, or_false, not_or,
    not_false_eq_true, List.nodup_nil, and_true]
  exact ⟨⟨Fld.key_ne_of_place n rfl rfl (by decide), Fld.key_ne_of_place n rfl rfl (by decide)⟩,
    Fld.key_ne_of_place n rfl rfl (by decide)⟩

theorem Dev.mem_prbsFields {d : Dev} {n : Nat} {r : PrbsRun} : ∀ e ∈ d.prbsShown n r, e.1 ∈ prbsFields := by
  simp [Dev.prbsShown, prbsFields]

theorem PrbsRun.settle_locked (r : PrbsRun) : r.settle.1.locked = r.c.locked := rfl

theorem Dev.set_modRx (d : Dev) (f : Fld) (i v n : Nat) (g : LeRx → LeRx) :
    (d.set f i v).modRx n g = (d.modRx n g).set f i v := rfl

/-- The checker goes on from where a run leaves it, and a subcarrier with 64 correct bits is marked. -/
def PrbsRun.left (r : PrbsRun) (dsc : Nat) (x : LeRx) : LeRx :=
  { x with prbs := r.settle.1, prbsDscs := if 64 ≤ r.best then setBit x.prbsDscs dsc true else x.prbsDscs }

/-- A run of bits counted: ERR and CNT go on and stop at their highest value, LOCK shows the lock (R125). -/
def Dev.prbsCounted (d : Dev) (n dsc : Nat) (r : PrbsRun) : Dev :=
  (((d.addSat Reg.LE_RX_PRBS_ERR.ERR n r.errs).addSat Reg.LE_RX_PRBS_CNT.CNT n r.settle.2).setB Reg.LE_RX_PRBS.LOCK n
    r.settle.1.locked).modRx n (r.left dsc)

/-- The counts and the lock are three writes beside the change of the checker. -/
theorem Dev.prbsCounted_eq_setAll (d : Dev) (n dsc : Nat) (r : PrbsRun) :
    d.prbsCounted n dsc r = (d.modRx n (r.left dsc)).setAll n (d.prbsShown n r) := by
  have hcount : Reg.LE_RX_PRBS_CNT.CNT.key n 0 ≠ Reg.LE_RX_PRBS_ERR.ERR.key n 0 := Fld.key_ne_of_place n rfl rfl (by decide)
  simp only [Dev.prbsCounted, Dev.addSat, Dev.get_set_ne d _ hcount, Dev.setB, PrbsRun.settle_locked, Dev.set_modRx, Dev.setAll,
    Dev.prbsShown, List.foldl]

theorem Dev.setAll_le (i n : Nat) (l : List (Fld × Nat)) : ∀ d : Dev, (d.setAll i l).le n = d.le n := by
  induction l with
  | nil => exact fun _ => rfl
  | cons e l ih => exact fun d => ih (d.set e.1 i e.2)

theorem Dev.prbsCounted_prbs (d : Dev) (n dsc : Nat) (r : PrbsRun) : ((d.prbsCounted n dsc r).le n).rx.prbs = r.settle.1 := by
  rw [Dev.prbsCounted_eq_setAll, Dev.setAll_le, Dev.le_modRx, PrbsRun.left]

theorem Dev.prbsCounted_get (d : Dev) {n v : Nat} (dsc : Nat) {r : PrbsRun} {f : Fld} (hm : (f, v) ∈ d.prbsShown n r) :
    (d.prbsCounted n dsc r).get f n = trunc f.width v := by
  rw [Dev.prbsCounted_eq_setAll]
  exact Dev.get_setAll (d.prbsShown_keys_nodup n r) hm _

theorem prbsFields_key_ne_state (n : Fin 8) : ∀ f ∈ prbsFields, f.key n.val 0 ≠ Reg.LE_RX_STAT.STATE.key n.val 0 := by
  revert n; decide

theorem Dev.prbsCounted_rxState (d : Dev) (n : Fin 8) (dsc : Nat) (r : PrbsRun) :
    (d.prbsCounted n.val dsc r).rxState n.val = d.rxState n.val := by
  rw [Dev.prbsCounted_eq_setAll]
  refine Dev.get_setAll_ne (fun hm => ?_) _
  obtain ⟨e, he, hkey⟩ := List.mem_map.1 hm
  exact prbsFields_key_ne_state n _ (Dev.mem_prbsFields e he) hkey

theorem Dev.fieldsOnly_prbsCounted (d : Dev) (n dsc : Nat) (r : PrbsRun) :
    d.FieldsOnly (keysOf prbsFields n) { d.prbsCounted n dsc r with les := d.les } := by
  rw [Dev.prbsCounted_eq_setAll]
  exact Dev.FieldsOnly.restore_les
    (Dev.fieldsOnly_setAll (fun e he => keysOf_key n (Dev.mem_prbsFields e he)) (d.modRx n (r.left dsc)))

/-- Outside FRAME the checker counts the bits, and the receive state stays. -/
theorem Dev.rxPrbs_outside_frame {d : Dev} {n : Fin 8} (dsc : Nat) (bits : List Bool)
    (hmode : 0 < d.get Reg.LE_RX_PRBS.MODE n.val) (hst : d.rxState n.val ≠ 8) :
    d.rxPrbs n.val dsc bits = d.prbsCounted n.val dsc ((d.le n.val).rx.prbs.feed prbs31 bits) := by
  generalize hr : (d.le n.val).rx.prbs.feed prbs31 bits = r
  have hstays : (d.prbsCounted n.val dsc r).rxState n.val ≠ 8 := by rwa [Dev.prbsCounted_rxState]
  unfold Dev.prbsCounted PrbsRun.left at hstays
  simp only [Dev.rxPrbs, hmode.ne', if_false, hr, hstays, decide_false, Bool.and_false, Bool.false_and, Bool.false_eq_true]
  rfl

theorem exec_rxPrbsLock {s : State} (n : Fin 8) (dsc : Fin 16) (bits : List Bool) (h : s.Runs) :
    exec (.rxPrbsLock n dsc bits) s = .next (s.withDev (s.dev.rxPrbs n.val dsc.val bits)) :=
  congrArg Host.Outcome.next (State.liftRun_runs h _)

end Sys2Proof.Machine
end

section
/-! The statement about received galleys, dispersion and the test pattern. -/

open Sys2Proof Sys2Proof.Machine

/-- Settles O42: a galley's completion is one chain of operations, a MANUAL value that waits is taken, and outside FRAME bits of the
test pattern write three fields beside the checker. -/
theorem receiveGalleysCounted : Obligations.ReceiveGalleysCounted := by
  unfold Obligations.ReceiveGalleysCounted
  refine fun s n hs => ⟨fun m => ?galley, fun v hm hv => ?step, fun k bits hmode hst => ?pattern⟩
  case galley =>
    rw [exec_rxGalleyComplete n m hs]
    rfl
  case step =>
    rw [exec_cdeStep n hs, Dev.cdeStep_manual hm hv]
    rfl
  case pattern =>
    rw [exec_rxPrbsLock n k bits hs, Dev.rxPrbs_outside_frame k.val bits hmode hst]
    refine ⟨_, rfl, Dev.flag_of_get (by decide) ?lock, Dev.prbsCounted_prbs _ _ _ _, ?errors, ?units,
      Dev.fieldsOnly_prbsCounted _ _ _ _, rfl⟩
    case lock => exact Dev.prbsCounted_get _ _ (by simp [Dev.prbsShown])
    case errors => exact (Dev.prbsCounted_get _ _ List.mem_cons_self).trans (trunc_capN 32 _)
    case units => exact (Dev.prbsCounted_get _ _ (List.mem_cons_of_mem _ List.mem_cons_self)).trans (trunc_capN 32 _)

end

section
/-! Formes received (R26, R124, R143, R145, R171): what becomes of a forme in PHASE, FRAME or LOCKED, and what the framer does with
a decoded one. -/

namespace Sys2Proof.Machine

/-! ### From the recovery loops to the decoder -/

/-- A forme that overlaps discarded samples changes nothing (R26). -/
theorem Dev.formeReceived_lost {d : Dev} {n : Nat} {m : Received}
    (hgap : d.gapWithin n (d.sampleCount n m.first) (d.sampleCount n m.first + 327680) = true) : d.formeReceived n m = d := by
  simp only [Dev.formeReceived, hgap, Bool.or_true, if_true]

/-- A whole forme in PHASE, FRAME or LOCKED goes to the checker in PRBS mode 2, else to the decoder of the code; in PHASE only the
window of the trellis code takes it (R124, R143, R145). -/
theorem Dev.formeReceived_whole {d : Dev} {n : Nat} {m : Received} (hlow : 7 ≤ d.rxState n) (hhigh : d.rxState n ≤ 9)
    (hgap : d.gapWithin n (d.sampleCount n m.first) (d.sampleCount n m.first + 327680) = false) :
    d.formeReceived n m =
      if d.get Reg.LE_RX_PRBS.MODE n = 2 then (if d.rxState n = 7 then d else d.prbsForme n (d.demap n m))
      else
        let ratios := ((d.demap n m).flatten.take (d.reqBits n)).toArray
        if d.trellis n then
          (d.modFec n fun y => { y with dec := y.dec.receive (d.sampleCount n m.first) (d.rxBank n) ratios }).stairDeliver n
        else if d.rxState n = 7 then d
        else d.formeDecoded n (d.ldpcReceive n (d.sampleCount n m.first) ratios) := by
  simp only [Dev.formeReceived, hgap, hlow.not_gt, hhigh.not_gt, decide_false, Bool.or_false, Bool.false_eq_true, if_false]

/-- An LDPC forme in FRAME or LOCKED is decoded and goes on to the framer. -/
theorem Dev.formeReceived_ldpc {d : Dev} {n : Nat} {m : Received} (hst : d.rxState n = 8 ∨ d.rxState n = 9)
    (hgap : d.gapWithin n (d.sampleCount n m.first) (d.sampleCount n m.first + 327680) = false)
    (hmode : d.get Reg.LE_RX_PRBS.MODE n ≠ 2) (ht : d.trellis n = false) :
    d.formeReceived n m = d.formeDecoded n
      (d.ldpcReceive n (d.sampleCount n m.first) ((d.demap n m).flatten.take (d.reqBits n)).toArray) := by
  have hphase : d.rxState n ≠ 7 := by omega
  rw [Dev.formeReceived_whole (by omega) (by omega) hgap, if_neg hmode]
  simp only [ht, Bool.false_eq_true, if_false, hphase]

/-! ### From the decoder to the framer (R171) -/

/-- In FRAME a decoded forme joins the hunt. -/
theorem Dev.formeDecoded_frame {d : Dev} {n : Nat} {w : Decoded}
    (hst : ((d.fecForme n w).setB Reg.LE_FEC_STAT.RUN n true).rxState n = 8) :
    d.formeDecoded n w = (((d.fecForme n w).setB Reg.LE_FEC_STAT.RUN n true).huntForme n w.bytes).defSync n := by
  simp only [Dev.formeDecoded, hst, if_true]

/-- In LOCKED a decoded forme is read by the alignment, if there is one. -/
theorem Dev.formeDecoded_locked {d : Dev} {n : Nat} {w : Decoded}
    (hst : ((d.fecForme n w).setB Reg.LE_FEC_STAT.RUN n true).rxState n = 9) :
    d.formeDecoded n w =
      (let e := (d.fecForme n w).setB Reg.LE_FEC_STAT.RUN n true
       if e.fa n then e.alignedForme n w else e).defSync n := by
  have hhunt : ((d.fecForme n w).setB Reg.LE_FEC_STAT.RUN n true).rxState n ≠ 8 := by omega
  simp only [Dev.formeDecoded, if_neg hhunt]

theorem exec_formeReceived {s : State} (n : Fin 8) (m : Received) (h : s.Runs) :
    exec (.formeReceived n m) s = .next (s.withDev (s.dev.formeReceived n.val m)) :=
  congrArg Host.Outcome.next (State.liftRun_runs h _)

end Sys2Proof.Machine
end

section
/-! The performance clock and the defects' integration units (R173, R182, R183, R187). -/

namespace Sys2Proof.Machine

theorem exec_defectIntegrationUnit {s : State} (c : Option (Fin 8)) (u : Fin 3) (h : s.Runs) :
    exec (.defectIntegrationUnit c u) s = .next (s.withDev (match c with
      | some n => s.dev.defUnitEnd n.val u.val
      | none => s.dev.flowUnitEnd u.val)) :=
  congrArg Host.Outcome.next (State.liftRun_runs h _)

theorem exec_pmSecondEnd {s : State} (h : s.Runs) : exec .pmSecondEnd s = .next (s.withDev s.dev.pmSecondEnd) :=
  congrArg Host.Outcome.next (State.liftRun_runs h _)

theorem exec_pmSecondCommit {s : State} (h : s.Runs) : exec .pmSecondCommit s = .next (s.withDev s.dev.pmSecondCommit) :=
  congrArg Host.Outcome.next (State.liftRun_runs h _)

/-- The first second that waits is committed at its due time (R183). -/
theorem Dev.pmSecondCommit_waiting {d : Dev} {x : PmSecond} {l : List PmSecond} (h : (d.le 0).frm.pm.wait = x :: l) :
    d.pmSecondCommit = (d.untilTime x.due).pmCommit := by
  simp only [Dev.pmSecondCommit, h]

theorem Dev.writeEffect_pmCtrl (d : Dev) (w : Nat) :
    d.writeEffect .frmc 0 0x040 w =
      let e := if Reg.FRM_PM_CTRL.EN.on w then d.storeWord .frmc 0 0x040 w else (d.storeWord .frmc 0 0x040 w).pmInhibit
      if Reg.FRM_PM_CTRL.CLR.on w then e.pmClrWritten else e := rfl

/-- While monitoring stays enabled, `CLR` only leaves a clear pending (R187). -/
theorem exec_pmClr {s : State} (h : s.Accepts .frmc 0 0x040 (Reg.FRM_PM_CTRL.CLR.put 1 (s.kept .frmc 0 0x040)))
    (hen : Reg.FRM_PM_CTRL.EN.on (Reg.FRM_PM_CTRL.CLR.put 1 (s.kept .frmc 0 0x040)) = true) :
    exec .pmClr s = .next (s.withDev
      (s.stored .frmc 0 0x040 (Reg.FRM_PM_CTRL.CLR.put 1 (s.kept .frmc 0 0x040))).pmClrWritten) := by
  refine (next_lift_command (f := Reg.FRM_PM_CTRL.CLR.put 1) (by decide) h).trans ?_
  rw [Dev.writeEffect_pmCtrl, hen, Fld.on_put_one rfl]
  rfl

end Sys2Proof.Machine
end

section
/-! The statement about framing and performance monitoring. -/

open Sys2Proof Sys2Proof.Machine

/-- Settles O43: the samples, the PRBS mode, the code and the receive state choose what becomes of a forme; each command of the
performance clock is one operation of it. -/
theorem framingAndPerformance : Obligations.FramingAndPerformance := by
  unfold Obligations.FramingAndPerformance
  refine ⟨fun s n m hs => ?formes, fun s hs => ⟨fun n u => exec_defectIntegrationUnit (some n) u hs,
      fun u => exec_defectIntegrationUnit none u hs⟩,
    fun s => ⟨exec_pmSecondEnd, fun x l hs hw => ?commit, exec_pmClr⟩⟩
  case formes =>
    rw [exec_formeReceived n m hs]
    refine ⟨fun hgap => ?lost, fun hgap => ⟨fun hst hmode => ?prbs, fun hlow hhigh hmode ht => ?trellis,
      fun hmode ht => ⟨fun hst hd => ?frame, fun hst hd => ?locked⟩⟩⟩
    case lost => rw [Dev.formeReceived_lost hgap]; rfl
    case prbs =>
      have hphase : s.dev.rxState n.val ≠ 7 := by omega
      rw [Dev.formeReceived_whole (by omega) (by omega) hgap, if_pos hmode, if_neg hphase]
    case trellis => rw [Dev.formeReceived_whole hlow hhigh hgap, if_neg hmode, if_pos ht]
    case frame => rw [Dev.formeReceived_ldpc (.inl hst) hgap hmode ht, Dev.formeDecoded_frame hd]
    case locked => rw [Dev.formeReceived_ldpc (.inr hst) hgap hmode ht, Dev.formeDecoded_locked hd]
  case commit => rw [exec_pmSecondCommit hs, Dev.pmSecondCommit_waiting hw]

end

section
/-! BSIG and the map switches (R209 to R213): when the signals freeze, what a received galley's BSIG does in each case, and when an
announced map is applied. -/

namespace Sys2Proof.Machine

/-! ### The freeze (R209, R212) -/

theorem Dev.signalFreeze_locked {d : Dev} (h : d.locked = true) :
    d.signalFreeze = ((d.until (d.nextGalley - 1000)).bsigFreeze (d.until (d.nextGalley - 1000)).nextGnum).ksigFreeze
      (d.until (d.nextGalley - 1000)).nextGnum := by
  simp only [Dev.signalFreeze, h, Bool.not_true, Bool.false_eq_true, if_false]
  rfl

/-- A locked part freezes BSIG and KSIG 1 µs before the next galley. -/
theorem exec_bsigFreeze_locked {s : State} (h : s.Runs) (hl : s.dev.locked = true) :
    exec .bsigFreeze s = .next (s.withDev
      (((s.dev.until (s.dev.nextGalley - 1000)).bsigFreeze (s.dev.until (s.dev.nextGalley - 1000)).nextGnum).ksigFreeze
        (s.dev.until (s.dev.nextGalley - 1000)).nextGnum)) := by
  rw [← Dev.signalFreeze_locked hl]
  exact congrArg Host.Outcome.next (State.liftRun_runs h _)

/-! ### A received BSIG (R210, R211) -/

/-- The members' copies of galley `g` in hand, by carrier. -/
def Dev.memberCopies (d : Dev) (g : Nat) : List (Nat × List Nat) :=
  (allLe.filter d.member).filterMap fun n => (d.bsigOn n g).map fun b => (n, b)

/-- Without a member only the join rule reads the copies. -/
theorem Dev.bsigReceive_noMember {d : Dev} (g : Nat) (h : allLe.filter d.member = []) :
    d.bsigReceive g = d.over allLe fun n d => d.tryJoin n g := by
  simp only [Dev.bsigReceive, h, List.isEmpty_nil, if_true]

/-- Once every member's copy counts as lost, so does the galley's BSIG. -/
theorem Dev.bsigReceive_lost {d : Dev} {g : Nat} (hm : allLe.filter d.member ≠ []) (hg : d.fmx.bsigAt ≠ some g)
    (hc : ∀ n ∈ allLe, d.member n = true → d.bsigOn n g = none ∧ d.copyLost n g = true) :
    d.bsigReceive g =
      ((d.modFmx fun x => { x with bsigAt := some g, bsigGot := [], bsigSeen := [] }).bump Reg.FMX_BSIG_CNT.LOST 0).over allLe
        fun n d => d.tryJoin n g := by
  have hcopies : (allLe.filter d.member).filterMap (fun n => (d.bsigOn n g).map fun b => (n, b)) = [] :=
    List.filterMap_eq_nil_iff.2 fun n hn => by
      obtain ⟨hmem, hmember⟩ := List.mem_filter.1 hn
      rw [(hc n hmem hmember).1, Option.map_none]
  have hlost : (allLe.filter d.member).all (fun n => d.copyLost n g) = true :=
    List.all_eq_true.2 fun n hn => (hc n (List.mem_filter.1 hn).1 (List.mem_filter.1 hn).2).2
  simp only [Dev.bsigReceive, hcopies, hlost, List.isEmpty_eq_false_iff.2 hm, hg, Bool.false_eq_true, if_false, if_true]

/-- The copy of the lowest-numbered member that has one is taken, the other copies are compared with it, and what it says is acted
on if its BVER is read. -/
theorem Dev.bsigReceive_taken {d : Dev} {g n : Nat} {b : List Nat} (hg : d.fmx.bsigAt ≠ some g)
    (hc : (d.memberCopies g).head? = some (n, b)) (hb : bsigKnown b = true) :
    d.bsigReceive g =
      ((((d.modFmx fun x => { x with bsigAt := some g, bsigGot := b, bsigSeen := [n] }).bsigCompare (d.memberCopies g)).bsigTake
        g b).over allLe fun n d => d.tryJoin n g) := by
  unfold Dev.memberCopies at hc ⊢
  have hm : (allLe.filter d.member).isEmpty = false := by
    refine List.isEmpty_eq_false_iff.2 fun hnil => ?_
    rw [hnil] at hc
    exact absurd hc nofun
  obtain ⟨l, hl⟩ := List.head?_eq_some_iff.1 hc
  simp only [Dev.bsigReceive, hm, hl, hg, hb, Bool.false_eq_true, if_false, if_true]

/-- A nonzero MEMBERS within the field's eight bits names a carrier: one of its bits is set, and none above the eighth can be. -/
theorem Dev.members_ne_nil {d : Dev} (hw : d.members < 256) (h : d.anyMember = true) : allLe.filter d.member ≠ [] := by
  obtain ⟨n, hn⟩ := Nat.exists_testBit_of_ne_zero (bne_iff_ne.1 h)
  have h8 : n < 8 := by
    by_contra hge
    have hle : 2 ^ 8 ≤ 2 ^ n := Nat.pow_le_pow_right (by decide) (Nat.not_lt.1 hge)
    exact absurd hn (Bool.eq_false_iff.1 (Nat.testBit_lt_two_pow (Nat.lt_of_lt_of_le hw hle)))
  have hmember : d.member n = true := by
    rwa [Nat.testBit_eq_decide_div_mod_eq] at hn
  exact List.ne_nil_of_mem (List.mem_filter.2 ⟨List.mem_range.2 h8, hmember⟩)

theorem exec_bsigReceive {s : State} (g : Nat) (h : s.Runs) : exec (.bsigReceive g) s = .next (s.withDev (s.dev.bsigReceive g)) :=
  congrArg Host.Outcome.next (State.liftRun_runs h _)

/-- A received galley whose BSIG every member lacks is counted as lost, when MEMBERS holds a value of its eight bits. -/
theorem exec_bsigReceive_lost {s : State} {g : Nat} (h : s.Runs) (hw : s.dev.members < 256) (hm : s.dev.anyMember = true)
    (hg : s.dev.fmx.bsigAt ≠ some g)
    (hc : ∀ n ∈ allLe, s.dev.member n = true → s.dev.bsigOn n g = none ∧ s.dev.copyLost n g = true) :
    exec (.bsigReceive g) s = .next (s.withDev
      (((s.dev.modFmx fun x => { x with bsigAt := some g, bsigGot := [], bsigSeen := [] }).bump Reg.FMX_BSIG_CNT.LOST 0).over
        allLe fun n d => d.tryJoin n g)) := by
  rw [exec_bsigReceive g h, Dev.bsigReceive_lost (Dev.members_ne_nil hw hm) hg hc]

/-! ### The switches (R212, R213) -/

theorem exec_txMapSwitch {s : State} (h : s.Runs) : exec .txMapSwitch s = .next (s.withDev s.dev.txMapSwitch) :=
  congrArg Host.Outcome.next (State.liftRun_runs h _)

/-- An announced map waits for galley A + 2. -/
theorem Dev.txMapSwitch_early {d : Dev} {a : Announce} {A : Nat} (ha : d.fmx.switching = some a) (hA : a.galleyA = some A)
    (hg : d.gnum ≠ (A + 2) % pow2 32) : d.txMapSwitch = d := by
  simp only [Dev.txMapSwitch, ha, hA, if_pos hg]

/-- At galley A + 2 the announced map is applied. -/
theorem Dev.txMapSwitch_due {d : Dev} {a : Announce} {A : Nat} (ha : d.fmx.switching = some a) (hA : a.galleyA = some A)
    (hg : d.gnum = (A + 2) % pow2 32) :
    d.txMapSwitch = ((d.txMapTake a).txMapCyp.txMapSay d.fmx.tx a).plannedCheck.recheckBounds := by
  simp only [Dev.txMapSwitch, ha, hA, hg, ne_eq, not_true_eq_false, if_false]

theorem exec_rxMapSwitch {s : State} (g : Nat) (h : s.Runs) : exec (.rxMapSwitch g) s = .next (s.withDev (s.dev.rxMapSwitch g)) :=
  congrArg Host.Outcome.next (State.liftRun_runs h _)

/-- An armed map is applied to its received galley. -/
theorem Dev.rxMapSwitch_armed {d : Dev} {a : RxArm} (ha : d.fmx.arm = some a) :
    d.rxMapSwitch a.galley =
      ((d.watchRx d.fmx.rx.flows fun d => d.rxMapTake a a.galley).rxMapReports d.fmx.rx).plannedCheck.recheckBounds := by
  simp only [Dev.rxMapSwitch, ha, ne_eq, not_true_eq_false, if_false]

/-! ### A content of MEMBERS that no write leaves -/

/-- The part after reset, but MEMBERS holds 256: nonzero, though none of its eight bits is set. -/
def membersPastWidth : State :=
  { State.reset with dev := { Dev.reset with regs := [(Reg.FMX_BND_STAT.MEMBERS.key 0 0, 256)] } }

end Sys2Proof.Machine
end

section
/-! The statement about BSIG and the map switches. -/

open Sys2Proof Sys2Proof.Machine

/-- Refutes O45: the statement ranges over every register content, and with MEMBERS = 256 there is a member by `anyMember`, though
no carrier is one. The second clause then asks that galley 0 be noted and its BSIG counted as lost, and `bsigReceive` does neither.
With MEMBERS below 256 the clause holds: `exec_bsigReceive_lost`. -/
theorem not_mapsSwitch : ¬ Obligations.MapsSwitch := by
  unfold Obligations.MapsSwitch
  intro h
  obtain ⟨-, hlost, -⟩ := h membersPastWidth (by decide)
  have hclaim := hlost 0 (by decide) (by decide) (by decide)
  rw [exec_bsigReceive 0 (by decide), Dev.bsigReceive_noMember 0 (by decide)] at hclaim
  have hat := congrArg (fun t : State => t.dev.fmx.bsigAt) (Host.Outcome.next.inj hclaim)
  exact absurd hat (by decide)

end

section
/-! Planned switches, returns and departures (R215 to R217): the words that ask for them, and how each one ends. -/

namespace Sys2Proof.Machine

/-! ### Software's requests (R215, R216) -/

theorem Dev.writeEffect_mapCtrl (d : Dev) (w : Nat) :
    d.writeEffect .fmxB 0 0x064 w =
      let e := if Reg.FMX_MAP_CTRL.COMMIT.on w then (d.storeWord .fmxB 0 0x064 w).commitPlanned else d.storeWord .fmxB 0 0x064 w
      if Reg.FMX_MAP_CTRL.CANCEL.on w then e.plannedEnd 5 else e := rfl

theorem Dev.writeEffect_bndCtrl (d : Dev) (w : Nat) :
    d.writeEffect .fmxB 0 0x044 w =
      if Reg.FMX_BND_CTRL.RETURN.of w = 0 then d.storeWord .fmxB 0 0x044 w
      else (d.storeWord .fmxB 0 0x044 w).returnCarriers (Reg.FMX_BND_CTRL.RETURN.of w) := rfl

theorem exec_commit {s : State} (h : s.Accepts .fmxB 0 0x064 (Reg.FMX_MAP_CTRL.COMMIT.put 1 (s.kept .fmxB 0 0x064)))
    (hc : Reg.FMX_MAP_CTRL.CANCEL.on (Reg.FMX_MAP_CTRL.COMMIT.put 1 (s.kept .fmxB 0 0x064)) = false) :
    exec .commit s = .next (s.withDev
      (s.stored .fmxB 0 0x064 (Reg.FMX_MAP_CTRL.COMMIT.put 1 (s.kept .fmxB 0 0x064))).commitPlanned) := by
  refine (next_lift_command (f := Reg.FMX_MAP_CTRL.COMMIT.put 1) (by decide) h).trans ?_
  rw [Dev.writeEffect_mapCtrl, hc, Fld.on_put_one rfl]
  rfl

theorem exec_cancel {s : State} (h : s.Accepts .fmxB 0 0x064 (Reg.FMX_MAP_CTRL.CANCEL.put 1 (s.kept .fmxB 0 0x064)))
    (hc : Reg.FMX_MAP_CTRL.COMMIT.on (Reg.FMX_MAP_CTRL.CANCEL.put 1 (s.kept .fmxB 0 0x064)) = false) :
    exec .cancel s = .next (s.withDev
      ((s.stored .fmxB 0 0x064 (Reg.FMX_MAP_CTRL.CANCEL.put 1 (s.kept .fmxB 0 0x064))).plannedEnd 5)) := by
  refine (next_lift_command (f := Reg.FMX_MAP_CTRL.CANCEL.put 1) (by decide) h).trans ?_
  rw [Dev.writeEffect_mapCtrl, hc, Fld.on_put_one rfl]
  rfl

/-- RETURN is read from the word that puts it, so a mask that names a carrier returns its carriers. -/
theorem exec_returnBundle {s : State} (m : Fin 256) (h0 : 0 < m.val)
    (h : s.Accepts .fmxB 0 0x044 (Reg.FMX_BND_CTRL.RETURN.put m.val (s.kept .fmxB 0 0x044))) :
    exec (.returnBundle m) s = .next (s.withDev
      ((s.stored .fmxB 0 0x044 (Reg.FMX_BND_CTRL.RETURN.put m.val (s.kept .fmxB 0 0x044))).returnCarriers m.val)) := by
  have hmask : Reg.FMX_BND_CTRL.RETURN.of (Reg.FMX_BND_CTRL.RETURN.put m.val (s.kept .fmxB 0 0x044)) = m.val :=
    (Fld.of_put _ _ _).trans (Nat.mod_eq_of_lt m.isLt)
  refine (next_lift_command (f := Reg.FMX_BND_CTRL.RETURN.put m.val) (by decide) h).trans ?_
  rw [Dev.writeEffect_bndCtrl, hmask, if_neg h0.ne']
  rfl

/-! ### The timeout of a planned switch (R215) -/

/-- A planned switch that neither side has announced is given up 10 s after its request. -/
theorem Dev.plannedTimeout_waiting {d : Dev} {t : Nat} (ht : d.fmx.plannedAt = some t) (hp : d.plannedPending = true)
    (hs : d.fmx.plannedSaid = false) : d.plannedTimeout = (d.until (t + 10000000000)).plannedEnd 3 := by
  simp only [Dev.plannedTimeout, ht, hp, hs, Bool.not_false, Bool.and_self, if_true]
  rfl

theorem exec_mapSwitchTimeout {s : State} (h : s.Runs) :
    exec .mapSwitchTimeout s = .next (s.withDev s.dev.plannedTimeout) :=
  congrArg Host.Outcome.next (State.liftRun_runs h _)

/-! ### Departures (R217) -/

theorem Dev.departComplete_met {d : Dev} {n : Nat} (hd : d.isDeparting n = true) (hm : d.departureMet n = true) :
    d.departComplete n = d.completeDeparture n := by
  simp only [Dev.departComplete, hd, hm, Bool.and_self, if_true]

/-- A departure whose receive condition is unmet is forced 100 ms after its transmit switch. -/
theorem Dev.departForced_unmet {d : Dev} {n t : Nat} (hd : d.isDeparting n = true)
    (hx : Store.get (fun _ => (⟨none, false⟩ : Depart)) d.fmx.departs n = ⟨some t, false⟩) :
    d.departForced n = ((d.until (t + 100000000)).completeDeparture n).raise Ev.departForced 0 n 0 := by
  simp only [Dev.departForced, hx, hd, Bool.not_false, Bool.and_self, if_true]
  rfl

theorem exec_departureComplete {s : State} (n : Fin 8) (h : s.Runs) :
    exec (.departureComplete n) s = .next (s.withDev (s.dev.departComplete n.val).calStep) :=
  congrArg Host.Outcome.next (State.liftRun_runs h _)

theorem exec_departForced {s : State} (n : Fin 8) (h : s.Runs) :
    exec (.departForced n) s = .next (s.withDev (s.dev.departForced n.val).calStep) :=
  congrArg Host.Outcome.next (State.liftRun_runs h _)

end Sys2Proof.Machine
end

section
/-! The statement about planned switches, returns and departures. -/

open Sys2Proof Sys2Proof.Machine

/-- Settles O46: the three requests are accepted writes, each with one effect; the timeout and the two ends of a departure take the
branch that their premises choose. -/
theorem plannedSwitchesAndDepartures : Obligations.PlannedSwitchesAndDepartures := by
  unfold Obligations.PlannedSwitchesAndDepartures
  refine fun s => ⟨exec_commit, exec_cancel, fun t hs ht hp hsaid => ?timeout, exec_returnBundle, fun n hs hd hm => ?met,
    fun n t hs hd hx => ?forced⟩
  case timeout => rw [exec_mapSwitchTimeout hs, Dev.plannedTimeout_waiting ht hp hsaid]
  case met => rw [exec_departureComplete n hs, Dev.departComplete_met hd hm]
  case forced => rw [exec_departForced n hs, Dev.departForced_unmet hd hx]

end

section
/-! The registers and the lanes of the host lane groups (R228 to R256): what a write of a lane's field, a change of a group and an
entry to a training state leave alone. -/

namespace Sys2Proof.Machine

/-! ### Commands of units that run -/

/-- A command that a running unit carries out on the device: its next state has what the operation makes of the device. -/
theorem exec_of_liftRun {s : State} {c : Instr} {f : Dev → Dev} {d : Dev} (h : s.Runs) (hc : exec c s = .next (s.liftRun f))
    (hd : f s.dev = d) : exec c s = .next (s.withDev d) := by
  rw [hc, State.liftRun_runs h, hd]

/-- A step over a list leaves alone what each of its turns leaves alone. -/
theorem Dev.over_keeps {α : Type} (p : Dev → α) {f : Nat → Dev → Dev} (h : ∀ n d, p (f n d) = p d) (l : List Nat) :
    ∀ d : Dev, p (d.over l f) = p d := by
  induction l with
  | nil => exact fun _ => rfl
  | cons n l ih => exact fun d => (ih (f n d)).trans (h n d)

/-! ### Fields of arrays of registers -/

/-- Two fields of one array of registers, in different places. -/
abbrev Fld.Beside (g f : Fld) : Prop :=
  g.base = f.base ∧ g.stride = f.stride ∧ g.step = f.step ∧ g.off * 8 + g.lo ≠ f.off * 8 + f.lo

/-- A field whose registers 0 to 7 lie in the pages before those of another field. -/
abbrev Fld.PageBefore (g f : Fld) : Prop :=
  g.base < f.base ∧ g.stride = f.stride ∧ (g.off + g.step * 7) * 8 + g.lo < 0x8000

/-- A field of the lanes' pages, past the page header that raising an event writes. -/
abbrev Fld.OfLanes (f : Fld) : Prop := 0x80 ≤ f.base ∧ 0x40 ≤ f.off ∧ f.off + f.step * 7 + f.lo / 8 < 0x1000

theorem Fld.Beside.key_ne {f g : Fld} (h : g.Beside f) (i j : Nat) : g.key i j ≠ f.key i j := by
  obtain ⟨hbase, hstride, hstep, hplace⟩ := h
  unfold Fld.key
  rw [hbase, hstride, hstep]
  omega

theorem Fld.PageBefore.key_ne {f g : Fld} (h : g.PageBefore f) (i m : Nat) {j : Nat} (hj : j ≤ 7) : g.key i j ≠ f.key i m := by
  obtain ⟨hbase, hstride, hplace⟩ := h
  have hstep : g.step * j ≤ g.step * 7 := Nat.mul_le_mul_left _ hj
  unfold Fld.key
  rw [hstride]
  omega

theorem Fld.OfLanes.evKey_eq_false {f : Fld} (h : f.OfLanes) (i : Nat) {j : Nat} (hj : j ≤ 7) : evKey (f.key i j) = false := by
  obtain ⟨hbase, hoff, hplace⟩ := h
  have hstep : f.step * j ≤ f.step * 7 := Nat.mul_le_mul_left _ hj
  have hbyte : f.key i j / 8 = (f.base + f.stride * i) * 0x1000 + (f.off + f.step * j + f.lo / 8) := by unfold Fld.key; omega
  have hplace' : f.key i j / 8 % 4096 = f.off + f.step * j + f.lo / 8 := by omega
  have hpage : f.key i j / 8 / 4096 = f.base + f.stride * i := by omega
  simp only [evKey, hplace', hpage, Bool.or_eq_false_iff, Bool.and_eq_false_iff, beq_eq_false_iff_ne, decide_eq_false_iff_not]
  omega

theorem Dev.getJ_setJ_ne (d : Dev) {f g : Fld} {i j k m : Nat} (v : Nat) (h : g.key j m ≠ f.key i k) :
    (d.setJ f i k v).getJ g j m = d.getJ g j m := Store.get_set_ne _ _ h

theorem Dev.getJ_setJ_beside (d : Dev) {f g : Fld} (i j v : Nat) (h : g.Beside f) : (d.setJ f i j v).getJ g i j = d.getJ g i j :=
  Dev.getJ_setJ_ne d v (h.key_ne i j)

theorem Dev.getJ_setJ_page (d : Dev) {f g : Fld} (i m v : Nat) (l : Fin 8) (h : g.PageBefore f) :
    (d.setJ f i m v).getJ g i l.val = d.getJ g i l.val := Dev.getJ_setJ_ne d v (h.key_ne i m (by omega))

theorem Dev.get_setJ_page (d : Dev) {f g : Fld} (i m v : Nat) (h : g.PageBefore f) : (d.setJ f i m v).get g i = d.get g i :=
  Dev.get_setJ_ne d v (h.key_ne i m (by omega))

theorem Dev.raise_getJ (d : Dev) (e : Ev) (i ins code g : Nat) (l : Fin 8) {f : Fld} (h : f.OfLanes) :
    (d.raise e i ins code).getJ f g l.val = d.getJ f g l.val :=
  (d.eventsOnly_raise e i ins code).getJ (h.evKey_eq_false g (by omega))

/-! ### Groups and lanes -/

@[simp] theorem Dev.modGrp_get (d : Dev) (g : Nat) (f : Hln → Hln) (r : Fld) (i : Nat) : (d.modGrp g f).get r i = d.get r i := rfl
@[simp] theorem Dev.modLane_regs (d : Dev) (g l : Nat) (f : HlnLane → HlnLane) : (d.modLane g l f).regs = d.regs := rfl
@[simp] theorem Dev.modLane_get (d : Dev) (g l : Nat) (f : HlnLane → HlnLane) (r : Fld) (i : Nat) :
    (d.modLane g l f).get r i = d.get r i := rfl
@[simp] theorem Dev.modLane_getJ (d : Dev) (g l : Nat) (f : HlnLane → HlnLane) (r : Fld) (i j : Nat) :
    (d.modLane g l f).getJ r i j = d.getJ r i j := rfl
@[simp] theorem Dev.setJ_lane (d : Dev) (f : Fld) (i j v g l : Nat) : (d.setJ f i j v).lane g l = d.lane g l := rfl
@[simp] theorem Dev.modPath_grp (d : Dev) (f : CellPath → CellPath) (g : Nat) : (d.modPath f).grp g = d.grp g := rfl
@[simp] theorem Dev.raise_lane (d : Dev) (e : Ev) (i ins code g l : Nat) : (d.raise e i ins code).lane g l = d.lane g l := by
  simp only [Dev.lane, Dev.grp, Dev.raise_grps]
@[simp] theorem Dev.grp_modGrp_same (d : Dev) (g : Nat) (f : Hln → Hln) : (d.modGrp g f).grp g = f (d.grp g) := by
  simp only [Dev.grp, Dev.modGrp, Store.get_set_same]
@[simp] theorem Dev.lane_modLane_same (d : Dev) (g l : Nat) (f : HlnLane → HlnLane) :
    (d.modLane g l f).lane g l = f (d.lane g l) := by
  simp only [Dev.lane, Dev.modLane, Dev.grp_modGrp_same, Store.get_set_same]

/-! ### An entry to a training state (R228, R245, R246) -/

/-- The fields that an entry to training state `st` writes: the state, and outside training and in DETECT no binding. -/
def Dev.laneEntered (d : Dev) (g l st : Nat) : Dev :=
  let e := d.setJ Reg.HLN_LANE_STAT.STATE g l st
  if st = 0 ∨ 4 < st then
    ((e.setJ Reg.HLN_LANE_STAT.BOUND g l 0).setJ Reg.HLN_LANE_STAT.PRE_TX g l 0).setJ Reg.HLN_LANE_STAT.PRE_RX g l 0
  else e

theorem Dev.freshRuns_regs (d : Dev) (g l : Nat) : (d.freshRuns g l).regs = d.regs :=
  Dev.over_keeps (f := fun p d => d.setRun g p RimRun.reset) Dev.regs (fun _ _ => rfl) _ d

theorem Dev.setLane_regs (d : Dev) (g l st : Nat) : (d.setLane g l st).regs = (d.laneEntered g l st).regs := by
  unfold Dev.setLane Dev.laneEntered
  by_cases hout : st = 0 ∨ 4 < st <;>
    simp only [hout, decide_true, decide_false, if_true, if_false, Bool.false_eq_true, Dev.setJ, Dev.modLane_regs, Dev.freshRuns_regs]

theorem Dev.setLane_getJ (d : Dev) (g l st : Nat) (f : Fld) (i j : Nat) :
    (d.setLane g l st).getJ f i j = (d.laneEntered g l st).getJ f i j := by
  rw [Dev.getJ, Dev.setLane_regs, Dev.getJ]

theorem Dev.setLane_get (d : Dev) (g l st : Nat) (f : Fld) (i : Nat) :
    (d.setLane g l st).get f i = (d.laneEntered g l st).get f i := by
  rw [Dev.get, Dev.setLane_regs, Dev.get]

theorem Dev.setLane_laneState (d : Dev) (g l : Nat) {st : Nat} (h : st < 16) : (d.setLane g l st).laneState g l = st := by
  have hst : trunc Reg.HLN_LANE_STAT.STATE.width st = st := Nat.mod_eq_of_lt h
  rw [Dev.laneState, Dev.setLane_getJ, Dev.laneEntered]
  split <;> simp (disch := decide) only [Dev.getJ_setJ_beside, Dev.getJ_setJ_same, hst]

/-- DETECT leaves the lane unbound. -/
theorem Dev.setLane_detect_bound (d : Dev) (g l : Nat) : (d.setLane g l 0).getJ Reg.HLN_LANE_STAT.BOUND g l = 0 := by
  rw [Dev.setLane_getJ, Dev.laneEntered, if_pos (Or.inl rfl)]
  simp (disch := decide) only [Dev.getJ_setJ_beside, Dev.getJ_setJ_same]
  rfl

/-- ALIGN writes the state alone. -/
theorem Dev.setLane_align_getJ (d : Dev) (g l : Nat) {f : Fld} (h : f.Beside Reg.HLN_LANE_STAT.STATE) :
    (d.setLane g l 3).getJ f g l = d.getJ f g l := by
  rw [Dev.setLane_getJ, Dev.laneEntered, if_neg (by decide), Dev.getJ_setJ_beside d g l 3 h]

theorem Dev.setLane_align_get (d : Dev) (g l : Nat) {f : Fld} (h : f.PageBefore Reg.HLN_LANE_STAT.STATE) :
    (d.setLane g l 3).get f g = d.get f g := by
  rw [Dev.setLane_get, Dev.laneEntered, if_neg (by decide), Dev.get_setJ_page d g l 3 h]

end Sys2Proof.Machine
end

section
/-! Training of the host lanes (R228, R232, R233, R245 to R247): the group's commands, signals, rimshots, the end of tuning, and
failures. -/

namespace Sys2Proof.Machine

/-- Milliseconds in ns, with the factor first. -/
theorem ms_eq (n : Nat) : ms n = 1000000 * n := Nat.mul_comm _ _

/-! ### Commands (R228, R252, R254) -/

theorem Dev.writeEffect_hlnCtrl (d : Dev) (g w : Nat) :
    d.writeEffect .hlnG g 0x040 w = (d.storeWord .hlnG g 0x040 w).hlnCtrlApply g w (d.grpEn g) := rfl

/-- An accepted write of a group's control takes effect beside the EN that stood. -/
theorem exec_hlnCtrl {s : State} {g : Fin 16} {c : Instr} {f : Nat → Nat}
    (hc : exec c s = .next (s.lift fun d => d.command .hlnG g.val 0x040 f))
    (h : s.Accepts .hlnG g.val 0x040 (f (s.kept .hlnG g.val 0x040))) :
    exec c s = .next (s.withDev ((s.stored .hlnG g.val 0x040 (f (s.kept .hlnG g.val 0x040))).hlnCtrlApply g.val
      (f (s.kept .hlnG g.val 0x040)) (s.dev.grpEn g.val))) := by
  rw [hc, next_lift_command (by decide) h, Dev.writeEffect_hlnCtrl, State.stored]

/-! ### Signals (R245, R246) -/

theorem Dev.signalOn_enabled {d : Dev} {g : Nat} (p : Nat) (h : d.grpEn g = true) :
    d.signalOn g p = (d.modGrp g fun x => { x with sig := setBit x.sig p true }).tryDetect g := if_pos h

theorem Dev.signalOff_unbound {d : Dev} {g p : Nat} (h : d.boundLane g p = none) :
    d.signalOff g p = d.modGrp g fun x => { x with sig := setBit x.sig p false } := by
  have hsame : (d.modGrp g fun x => { x with sig := setBit x.sig p false }).boundLane g p = none := h
  simp only [Dev.signalOff, hsame]

/-! ### Rimshots (R233) -/

theorem Dev.rimshot_invalid {d : Dev} {g : Nat} (p : Nat) {k : List Nat} (he : d.grpEn g = true) (hk : readRimshot k = none) :
    d.rimshot g p k = d.rimMissed g p := by
  simp only [Dev.rimshot, he, Bool.not_true, Bool.false_eq_true, if_false, hk]

section
variable {d : Dev} {g p w : Nat} {k : List Nat} {inv : Bool} (he : d.grpEn g = true) (hk : readRimshot k = some (w, inv))
include he hk

theorem Dev.rimshot_wrongGroup (hg : bitsOf w 12 4 ≠ g) :
    d.rimshot g p k = (d.setRun g p RimRun.reset).raise Ev.wrongGroup g (8 * g + p) (bitsOf w 12 4) := by
  simp only [Dev.rimshot, he, Bool.not_true, Bool.false_eq_true, if_false, hk]
  exact if_pos hg

theorem Dev.rimshot_laneDup (hg : bitsOf w 12 4 = g) (hb : d.getJ Reg.HLN_LANE_STAT.BOUND g (bitsOf w 9 3) = 1)
    (hp : d.getJ Reg.HLN_LANE_STAT.RX_PHYS g (bitsOf w 9 3) ≠ p) :
    d.rimshot g p k = (d.setRun g p RimRun.reset).raise Ev.laneDup g (8 * g + p) (bitsOf w 9 3) := by
  simp only [Dev.rimshot, he, Bool.not_true, Bool.false_eq_true, if_false, hk]
  rw [if_neg (not_not.2 hg), if_pos ⟨hb, hp⟩]

theorem Dev.rimshot_unbound (hg : bitsOf w 12 4 = g) (hb : d.getJ Reg.HLN_LANE_STAT.BOUND g (bitsOf w 9 3) = 0)
    (ho : (d.boundLane g p).any (· != bitsOf w 9 3) = false) : d.rimshot g p k = d.rimshotFor g p (bitsOf w 9 3) w inv := by
  simp only [Dev.rimshot, he, Bool.not_true, Bool.false_eq_true, if_false, hk]
  rw [if_neg (not_not.2 hg), if_neg (by simp [hb]), ho, if_neg Bool.false_ne_true]

end

/-! ### The end of tuning (R245, R247) -/

/-- What a receiver reports of lane `l`: its SNR, its equaliser, and whether it has finished tuning. -/
def Dev.tuneReported (d : Dev) (g l snr : Nat) (dfe : Int) (ctle : Nat) : Dev :=
  let p := d.getJ Reg.HLN_LANE_STAT.RX_PHYS g l
  let e := ((d.setJ Reg.HLN_LANE_STAT.SNR g l (capN 65535 snr)).setJ Reg.HLN_RXEQ.DFE1 g p
    (unsgn 8 (clampI (-128) 127 dfe))).setJ Reg.HLN_RXEQ.CTLE g p (capN 255 ctle)
  e.modLane g l fun x => { x with tuned := x.tuned || decide (e.get Reg.HLN_GRP_TRAIN.SNR_MIN g ≤ snr) }

theorem Dev.tuneDone_tuning {d : Dev} {g l : Nat} (snr : Nat) (dfe : Int) (ctle : Nat) (h : d.laneState g l = 2) :
    d.tuneDone g l snr dfe ctle = (d.tuneReported g l snr dfe ctle).tuneExit g l := if_pos h

section
variable (d : Dev) (g : Nat) (l : Fin 8) (snr : Nat) (dfe : Int) (ctle : Nat)

theorem Dev.tuneReported_snr (h : snr < 65536) :
    (d.tuneReported g l.val snr dfe ctle).getJ Reg.HLN_LANE_STAT.SNR g l.val = snr := by
  have hcap : capN 65535 snr = snr := if_neg (by omega)
  simp (disch := decide) only [Dev.tuneReported, Dev.modLane_getJ, Dev.getJ_setJ_page, Dev.getJ_setJ_same, hcap]
  exact Nat.mod_eq_of_lt h

theorem Dev.tuneReported_laneState : (d.tuneReported g l.val snr dfe ctle).laneState g l.val = d.laneState g l.val := by
  simp (disch := decide) only [Dev.laneState, Dev.tuneReported, Dev.modLane_getJ, Dev.getJ_setJ_page, Dev.getJ_setJ_beside]

/-- The group's own fields stand. -/
theorem Dev.tuneReported_get {f : Fld} (h : f.PageBefore Reg.HLN_LANE_STAT.SNR) :
    (d.tuneReported g l.val snr dfe ctle).get f g = d.get f g := by
  obtain ⟨hbase, hplace⟩ := h
  have hdfe : f.PageBefore Reg.HLN_RXEQ.DFE1 := ⟨Nat.lt_trans hbase (by decide), hplace⟩
  have hctle : f.PageBefore Reg.HLN_RXEQ.CTLE := hdfe
  rw [Dev.tuneReported, Dev.modLane_get, Dev.get_setJ_page _ _ _ _ hctle, Dev.get_setJ_page _ _ _ _ hdfe,
    Dev.get_setJ_page _ _ _ _ ⟨hbase, hplace⟩]

theorem Dev.tuneReported_tuned : ((d.tuneReported g l.val snr dfe ctle).lane g l.val).tuned =
    ((d.lane g l.val).tuned || decide (d.get Reg.HLN_GRP_TRAIN.SNR_MIN g ≤ snr)) := by
  simp (disch := decide) only [Dev.tuneReported, Dev.lane_modLane_same, Dev.setJ_lane, Dev.get_setJ_page]

theorem Dev.tuneReported_ready : ((d.tuneReported g l.val snr dfe ctle).lane g l.val).ready = (d.lane g l.val).ready := by
  simp only [Dev.tuneReported, Dev.lane_modLane_same, Dev.setJ_lane]

end

theorem Dev.tuneExit_untuned {d : Dev} {g l : Nat} (h : (d.lane g l).tuned = false) : d.tuneExit g l = d := by
  simp only [Dev.tuneExit, h, Bool.and_false, Bool.false_and, Bool.false_eq_true, if_false]

/-- Lane `l` with its precoding fixed, as the peer asked for it and as this device asked (R247). -/
def Dev.precodingFixed (d : Dev) (g l : Nat) : Dev :=
  (d.setJ Reg.HLN_LANE_STAT.PRE_TX g l (b1 (d.lane g l).preReq)).setJ Reg.HLN_LANE_STAT.PRE_RX g l (b1 (d.preReqSent g l))

/-- Tuned and with READY received, a lane of a group that does not run enters ALIGN. -/
theorem Dev.tuneExit_aligned {d : Dev} {g l : Nat} (hs : d.laneState g l = 2) (ht : (d.lane g l).tuned = true)
    (hr : (d.lane g l).ready = true) (hg : d.grpRun g = false) : d.tuneExit g l = (d.precodingFixed g l).setLane g l 3 := by
  have hrun : ((d.precodingFixed g l).setLane g l 3).grpRun g = false := by
    rw [Dev.grpRun, Dev.gstate, Dev.setLane_align_get _ _ _ (by decide), Dev.precodingFixed, Dev.get_setJ_page _ _ _ _ (by decide),
      Dev.get_setJ_page _ _ _ _ (by decide)]
    exact hg
  rw [Dev.precodingFixed] at hrun
  simp only [Dev.tuneExit, hs, ht, hr, beq_self_eq_true, Bool.and_self, if_true, hrun, Bool.false_and, Bool.false_eq_true, if_false,
    Dev.precodingFixed]

/-- A report below SNR_MIN shows its SNR and leaves the lane in TUNE. -/
theorem Dev.tuneDone_below {d : Dev} {g : Nat} {l : Fin 8} {snr : Nat} (dfe : Int) (ctle : Nat) (hs : d.laneState g l.val = 2)
    (hlow : snr < d.get Reg.HLN_GRP_TRAIN.SNR_MIN g) (hw : snr < 65536) (ht : (d.lane g l.val).tuned = false) :
    (d.tuneDone g l.val snr dfe ctle).getJ Reg.HLN_LANE_STAT.SNR g l.val = snr ∧
      (d.tuneDone g l.val snr dfe ctle).laneState g l.val = 2 := by
  have huntuned : ((d.tuneReported g l.val snr dfe ctle).lane g l.val).tuned = false := by
    rw [Dev.tuneReported_tuned, ht, Bool.false_or, decide_eq_false (Nat.not_le.2 hlow)]
  rw [Dev.tuneDone_tuning snr dfe ctle hs, Dev.tuneExit_untuned huntuned]
  exact ⟨d.tuneReported_snr g l snr dfe ctle hw, (d.tuneReported_laneState g l snr dfe ctle).trans hs⟩

/-- A report of SNR_MIN or more, with READY received, shows its SNR and takes the lane to ALIGN. -/
theorem Dev.tuneDone_reached {d : Dev} {g : Nat} {l : Fin 8} {snr : Nat} (dfe : Int) (ctle : Nat) (hs : d.laneState g l.val = 2)
    (hg : d.grpRun g = false) (hmin : d.get Reg.HLN_GRP_TRAIN.SNR_MIN g ≤ snr) (hw : snr < 65536)
    (hr : (d.lane g l.val).ready = true) :
    (d.tuneDone g l.val snr dfe ctle).getJ Reg.HLN_LANE_STAT.SNR g l.val = snr ∧
      (d.tuneDone g l.val snr dfe ctle).laneState g l.val = 3 := by
  have hstate := (d.tuneReported_laneState g l snr dfe ctle).trans hs
  have htuned : ((d.tuneReported g l.val snr dfe ctle).lane g l.val).tuned = true := by
    rw [Dev.tuneReported_tuned, decide_eq_true hmin, Bool.or_true]
  have hready := (d.tuneReported_ready g l snr dfe ctle).trans hr
  have hrun : (d.tuneReported g l.val snr dfe ctle).grpRun g = false := by
    rw [Dev.grpRun, Dev.gstate, Dev.tuneReported_get _ _ _ _ _ _ (by decide)]
    exact hg
  rw [Dev.tuneDone_tuning snr dfe ctle hs, Dev.tuneExit_aligned hstate htuned hready hrun]
  refine ⟨?_, Dev.setLane_laneState _ _ _ (by decide)⟩
  rw [Dev.setLane_align_getJ _ _ _ (by decide), Dev.precodingFixed, Dev.getJ_setJ_beside _ _ _ _ (by decide),
    Dev.getJ_setJ_beside _ _ _ _ (by decide), Dev.tuneReported_snr _ _ _ _ _ _ hw]

/-! ### Timeouts, failures and backoff (R246) -/

theorem Dev.laneTimeout_failed {d : Dev} {g l n : Nat} (hn : d.laneTimeoutNs g l = some n) (hs : d.laneState g l ≠ 3) :
    d.laneTimeout g l = (d.until ((d.lane g l).stateAt + n)).laneFail g l 0 := by
  have hlater : (d.until ((d.lane g l).stateAt + n)).laneState g l ≠ 3 := by rwa [Dev.laneState, Dev.until_getJ]
  simp only [Dev.laneTimeout, hn, if_neg hlater]

theorem Dev.backoffExpiry_waiting {d : Dev} {g l : Nat} (hs : d.laneState g l = 0) (hb : (d.lane g l).backoffOver = false) :
    d.backoffExpiry g l =
      ((d.until ((d.lane g l).stateAt + 1000000 * d.getJ Reg.HLN_LANE_BACKOFF.BACKOFF_MS g l)).modLane g l fun x =>
        { x with backoffOver := true }).tryDetect g := by
  simp only [Dev.backoffExpiry, hs, hb, beq_self_eq_true, Bool.not_false, Bool.and_self, if_true, ms_eq]

section
variable (d : Dev) (g : Nat) (l : Fin 8) (cause : Nat)

theorem Dev.laneFail_laneState : (d.laneFail g l.val cause).laneState g l.val = 0 := by
  have hdetect := d.setLane_laneState g l.val (st := 0) (by decide)
  rw [Dev.laneState] at hdetect ⊢
  simp (disch := decide) only [Dev.laneFail, Dev.raise_getJ, Dev.modLane_getJ, Dev.getJ_setJ_beside, Dev.addSatJ, hdetect]

theorem Dev.laneFail_bound : (d.laneFail g l.val cause).getJ Reg.HLN_LANE_STAT.BOUND g l.val = 0 := by
  simp (disch := decide) only [Dev.laneFail, Dev.raise_getJ, Dev.modLane_getJ, Dev.getJ_setJ_beside, Dev.addSatJ,
    Dev.setLane_detect_bound]

/-- The backoff doubles from 100 ms to at most 6,400 ms, which its field holds. -/
theorem Dev.laneFail_backoff : (d.laneFail g l.val cause).getJ Reg.HLN_LANE_BACKOFF.BACKOFF_MS g l.val =
    if d.getJ Reg.HLN_LANE_BACKOFF.BACKOFF_MS g l.val = 0 then 100
    else min 6400 (2 * d.getJ Reg.HLN_LANE_BACKOFF.BACKOFF_MS g l.val) := by
  simp (disch := decide) only [Dev.laneFail, Dev.raise_getJ, Dev.modLane_getJ, Dev.getJ_setJ_same]
  refine Nat.mod_eq_of_lt (Nat.lt_of_le_of_lt (m := 6400) ?_ (by decide))
  split
  · decide
  · exact Nat.min_le_left _ _

theorem Dev.laneFail_failed : ((d.laneFail g l.val cause).lane g l.val).failed = true := by
  simp only [Dev.laneFail, Dev.raise_lane, Dev.lane_modLane_same]

end

end Sys2Proof.Machine
end

section
/-! The statement about the training of the host lanes. -/

open Sys2Proof Sys2Proof.Machine

/-- Settles O47: the three commands are accepted writes of one register; the premises of every other clause choose the branch of the
event's operation, and a failure's writes stand apart from each other. -/
theorem lanesTrain : Obligations.LanesTrain := by
  unfold Obligations.LanesTrain
  refine ⟨fun s g => ⟨fun _ => exec_hlnCtrl rfl, exec_hlnCtrl rfl, exec_hlnCtrl rfl, fun p hs he => ?detect, fun p hs hb => ?loss,
    fun p k hs he hk => ?invalid, fun p k w inv hs he hk => ⟨fun hg => ?wrongGroup, fun hg hb hp => ?dup, fun hg hb ho => ?bound⟩,
    fun l snr dfe ctle hs hst hlow hw ht => ?below, fun l snr dfe ctle hs hst hg hmin hw hr => ?reached, fun l n hs hn hst => ?timeout,
    fun l hs hst hb => ?backoff⟩,
    fun d g l cause => ⟨d.laneFail_laneState _ l cause, d.laneFail_backoff _ l cause, d.laneFail_bound _ l cause,
      d.laneFail_failed _ l cause⟩⟩
  case detect => exact exec_of_liftRun hs rfl (Dev.signalOn_enabled p.val he)
  case loss => exact exec_of_liftRun hs rfl (Dev.signalOff_unbound hb)
  case invalid => exact exec_of_liftRun hs rfl (Dev.rimshot_invalid p.val he hk)
  case wrongGroup => exact exec_of_liftRun hs rfl (Dev.rimshot_wrongGroup he hk hg)
  case dup => exact exec_of_liftRun hs rfl (Dev.rimshot_laneDup he hk hg hb hp)
  case bound => exact exec_of_liftRun hs rfl (Dev.rimshot_unbound he hk hg hb ho)
  case below =>
    obtain ⟨hsnr, hstate⟩ := Dev.tuneDone_below dfe ctle hst hlow hw ht
    exact ⟨_, exec_of_liftRun hs rfl rfl, hsnr, hstate, rfl⟩
  case reached =>
    obtain ⟨hsnr, hstate⟩ := Dev.tuneDone_reached dfe ctle hst hg hmin hw hr
    exact ⟨_, exec_of_liftRun hs rfl rfl, hsnr, hstate, rfl⟩
  case timeout => exact exec_of_liftRun hs rfl (Dev.laneTimeout_failed hn hst)
  case backoff => exact exec_of_liftRun hs rfl (Dev.backoffExpiry_waiting hst hb)

end
section
/-! The host lane groups (R239, R243, R244, R248 to R251, R254, R256): alignment and RUN, blocks in both directions, lost lanes and a
stuck peer, the merge of a pair's halves, and the lanes' test pattern. -/

namespace Sys2Proof.Machine

/-! ### Alignment and RUN (R248) -/

theorem Dev.groupAlign_skewed {d : Dev} {g : Nat} {skew : List Nat} (hr : d.alignReady g = true)
    (hs : (allLe.any fun l => d.laneState g l == 3 && decide (16 < skew.getD l 0)) = true) : d.groupAlign g skew = d.alignFail g := by
  simp only [Dev.groupAlign, hr, hs, if_true]

/-- Lanes within the 16 ns that the deskew takes are aligned. -/
theorem Dev.groupAlign_gstate {d : Dev} {g : Nat} {skew : List Nat} (hr : d.alignReady g = true)
    (hs : ∀ l, l < 8 → skew.getD l 0 ≤ 16) : (d.groupAlign g skew).gstate g = 2 := by
  have hwithin : (allLe.any fun l => d.laneState g l == 3 && decide (16 < skew.getD l 0)) = false := by
    refine List.any_eq_false.2 fun l hl => ?_
    rw [decide_eq_false (Nat.not_lt.2 (hs l (List.mem_range.1 hl))), Bool.and_false]
    exact Bool.false_ne_true
  have hlanes : Reg.HLN_GRP_STAT.GSTATE.key g 0 ≠ Reg.HLN_GRP_STAT.LANES.key g 0 := Fld.key_ne_of_place g rfl rfl (by decide)
  simp only [Dev.groupAlign, hr, hwithin, if_true, Bool.false_eq_true, if_false, Dev.gstate, Dev.modGrp_get, Dev.healthTaken,
    Dev.get_set_ne _ _ hlanes, Dev.get_set_same]
  rfl

theorem Dev.runEntry_ready {d : Dev} {g : Nat} (h : d.runReady g = true) :
    d.runEntry g =
      let e := (d.over (allLe.filter (bitOf (d.laneSet g))) fun l d => d.laneRun g l).set Reg.HLN_GRP_STAT.GSTATE g 3
      ((e.restartFlows (allFlows.filter (e.flowUses · g))).raise Ev.group g g 1).shedEval := if_pos h

/-! ### Blocks received (R239, R251) -/

/-- A block of group `g` as it arrives: the buffer's fill, the lanes' clocks, and the set that the peer announced for it. -/
def Dev.blockArrived (d : Dev) (g : Nat) (b : HostBlock) : Dev :=
  ((d.set Reg.HLN_GRP_EB.RX_FILL g (capN 20480 b.rxFill)).keepClocks g b).peerSet g

/-- What a block on the set `S` holds. -/
def Dev.blockRead (d : Dev) (g : Nat) (b : HostBlock) (S : Nat) : BlockRead :=
  decodeBlock (allLe.filter (bitOf S)) (d.setUnits g b S)

theorem Dev.blockReceive_aligned {d : Dev} {g : Nat} (b : HostBlock) (he : d.grpEn g = true) (hg : 2 ≤ d.gstate g) :
    d.blockReceive g b =
      let e := d.blockArrived g b
      let x := e.blockSet g b
      let r := e.blockRead g b x.1
      let c := e.blockCounts g r
      (match x.2 with | some h => c.readHeader g h | none => c.noHeader g).over (List.range (blockCells r.set.length))
        fun q d => d.blockCell g r q := if_pos ⟨he, hg⟩

theorem Dev.keepClocks_regs (d : Dev) (g : Nat) (b : HostBlock) : (d.keepClocks g b).regs = d.regs := by
  simp only [Dev.keepClocks]
  rw [Dev.over_keeps Dev.regs fun _ _ => Dev.modLane_regs _ _ _ _]

theorem Dev.blockArrived_unc (d : Dev) (g : Nat) (b : HostBlock) :
    (d.blockArrived g b).get Reg.HLN_RS_UNC.UNC g = d.get Reg.HLN_RS_UNC.UNC g := by
  have hfill : Reg.HLN_RS_UNC.UNC.key g 0 ≠ Reg.HLN_GRP_EB.RX_FILL.key g 0 := Fld.key_ne_of_place g rfl rfl (by decide)
  rw [Dev.blockArrived, Dev.peerSet, Dev.modGrp_get, Dev.get, Dev.keepClocks_regs]
  exact Dev.get_set_ne d _ hfill

/-- The uncorrectable codewords of a block are counted on, up to the field's highest value. -/
theorem Dev.blockCounts_unc (d : Dev) (g : Nat) (r : BlockRead) :
    (d.blockCounts g r).get Reg.HLN_RS_UNC.UNC g = capN 0xFFFFFFFF (d.get Reg.HLN_RS_UNC.UNC g + r.lost.length) := by
  have hother {f : Fld} (e : Dev) (v : Nat) (hb : Reg.HLN_RS_UNC.UNC.base = f.base) (hs : Reg.HLN_RS_UNC.UNC.stride = f.stride)
      (hp : Reg.HLN_RS_UNC.UNC.off * 8 + Reg.HLN_RS_UNC.UNC.lo ≠ f.off * 8 + f.lo) :
      (e.set f g v).get Reg.HLN_RS_UNC.UNC g = e.get Reg.HLN_RS_UNC.UNC g := Dev.get_set_ne e v (Fld.key_ne_of_place g hb hs hp)
  refine (Dev.over_keeps (fun e : Dev => e.get Reg.HLN_RS_UNC.UNC g) (fun l e => ?_) _ _).trans ?_
  · exact Dev.get_setJ_page e g l _ (by decide)
  · simp (disch := decide) only [Dev.addSat, Dev.set64, Dev.get_set_same, trunc_capN, hother]
    rfl

/-! ### Blocks sent (R235, R242, R250) -/

/-- A group that starts a block: its transmit clock is kept, and the block is numbered. -/
def Dev.blockNumbered (d : Dev) (g : Nat) (c : LaneClock) : Dev :=
  (d.modGrp g fun x => { x with txClock := d.laneTimes c }).set Reg.HLN_GRP_BNUM.BNUM g (d.get Reg.HLN_GRP_BNUM.BNUM g + 1)

theorem Dev.blockNumbered_bnum (d : Dev) (g : Nat) (c : LaneClock) :
    (d.blockNumbered g c).get Reg.HLN_GRP_BNUM.BNUM g = (d.get Reg.HLN_GRP_BNUM.BNUM g + 1) % 4294967296 := Dev.get_set_same _ _ _ _

theorem Dev.blockNumbered_gstate (d : Dev) (g : Nat) (c : LaneClock) : (d.blockNumbered g c).gstate g = d.gstate g :=
  Dev.get_set_ne _ _ (Fld.key_ne_of_place g rfl rfl (by decide))

theorem Dev.blockSend_enabled {d : Dev} {g : Nat} (c : LaneClock) (he : d.grpEn g = true) :
    d.blockSend g c =
      let n := d.blockNumbered g c
      let e := if 2 ≤ n.gstate g then (n.countdown g).blockBuilt g else n
      e.blockDealt g (decide (2 ≤ e.gstate g)) := if_pos he

/-- Before ALIGN a block carries training data alone. -/
theorem Dev.blockSend_training {d : Dev} {g : Nat} (c : LaneClock) (he : d.grpEn g = true) (hg : d.gstate g < 2) :
    d.blockSend g c = (d.blockNumbered g c).blockDealt g false := by
  have hlow : ¬2 ≤ (d.blockNumbered g c).gstate g := by rw [Dev.blockNumbered_gstate]; omega
  simp only [Dev.blockSend_enabled c he, if_neg hlow, decide_eq_false hlow]

/-- From ALIGN on the countdown goes on, and a block is built and dealt. -/
theorem Dev.blockSend_aligned {d : Dev} {g : Nat} (c : LaneClock) (he : d.grpEn g = true) (hg : 2 ≤ d.gstate g) :
    d.blockSend g c =
      let e := ((d.blockNumbered g c).countdown g).blockBuilt g
      e.blockDealt g (decide (2 ≤ e.gstate g)) := by
  have hhigh : 2 ≤ (d.blockNumbered g c).gstate g := by rwa [Dev.blockNumbered_gstate]
  simp only [Dev.blockSend_enabled c he, if_pos hhigh]

theorem Dev.blockBuilt_regs (d : Dev) (g : Nat) : (d.blockBuilt g).regs = d.regs := rfl

theorem Dev.blockBuilt_header (d : Dev) (g : Nat) : ((d.blockBuilt g).grp g).header = d.blockHeader g := by
  simp only [Dev.blockBuilt, Dev.modPath_grp, Dev.grp_modGrp_same]

/-- A block holds as many cells as its set carries, whatever waits. -/
theorem Dev.blockBuilt_cells_length (d : Dev) (g : Nat) :
    ((d.blockBuilt g).grp g).cells.length = blockCells (popcount8 (d.laneSet g)) := by
  simp only [Dev.blockBuilt, Dev.modPath_grp, Dev.grp_modGrp_same, List.length_append, List.length_map, List.length_replicate]
  refine Nat.add_sub_cancel' ?_
  split
  · exact List.length_take_le _ _
  · exact Nat.zero_le _

/-! ### Lost lanes and a stuck peer (R249, R254) -/

theorem Dev.laneLost_running {d : Dev} {g l c : Nat} (hs : d.laneState g l = 4) (hc : d.lossHolds g l c = true) :
    d.laneLost g l c =
      ((((d.laneFresh g l).addSatJ Reg.HLN_LANE_TRY.LOSSES g l 1).raise Ev.laneLost g (8 * g + l) c).setChanged g).tryDetect g := by
  simp only [Dev.laneLost, hs, hc, beq_self_eq_true, Bool.and_self, if_true]

theorem Dev.peerStuck_noHeader {d : Dev} {g n : Nat} (hr : d.grpRun g = true) (hn : (d.grp g).noHdr = some n) (h : 128 ≤ n) :
    d.peerStuck g = (d.raise Ev.peerStuck g g 1).leaveRun g := by
  simp only [Dev.peerStuck, hr, hn, Option.any_some, decide_eq_true h, if_true]

theorem Dev.peerStuck_notFollowed {d : Dev} {g n : Nat} (hr : d.grpRun g = true) (hh : (d.grp g).noHdr = none)
    (hn : (d.grp g).sinceSwitch = some n) (h : 128 ≤ n) : d.peerStuck g = (d.raise Ev.peerStuck g g 2).leaveRun g := by
  simp only [Dev.peerStuck, hr, hh, hn, Option.any_none, Option.any_some, decide_eq_true h, if_true, Bool.false_eq_true, if_false]

/-! ### The merge of a pair's halves (R244) -/

/-- 1 µs after the first arrival among the cells that wait, merging goes on with the first of them in order. -/
theorem Dev.mergeTimeout_waiting {d : Dev} {f : Nat} {c : Cell} {l : List Cell}
    (h : Store.get (fun _ => []) d.path.merge f = c :: l) :
    d.mergeTimeout f = Dev.drainMerge 65536 (((d.until (l.foldl (fun a x => min a x.edge) c.edge + 1000)).modPath fun x =>
      { x with merge := Store.set (fun _ => []) x.merge f l }).accept c true) f := by
  simp only [Dev.mergeTimeout, h, us_eq, Nat.mul_one]

/-! ### The test pattern (R256) -/

/-- The run that the levels of physical lane `l` give the checker of the polarity in lock, or of the one that locks. -/
def Dev.laneTestRun (d : Dev) (g l : Nat) (q : TestSeq) (levels : List Nat) : PrbsRun :=
  let x := checkLevels q (d.getJ Reg.HLN_LANE_CTRL.PRECODE g l == 2) (d.lane g l) levels
  if x.2.2 then x.2.1 else x.1

/-- A run counted: errors and units go on and stop at their highest value, and PRBS_LOCK shows the lock. -/
def Dev.laneTestCounted (d : Dev) (g l : Nat) (r : PrbsRun) : Dev :=
  ((d.addSatJ Reg.HLN_LANE_PRBS_ERR.ERR g l r.errs).addSatJ Reg.HLN_LANE_PRBS_CNT.CNT g l r.settle.2).setJ
    Reg.HLN_LANE_CTRL.PRBS_LOCK g l (b1 r.c.locked)

theorem Dev.prbsLock_regs {d : Dev} {g l : Nat} {q : TestSeq} (levels : List Nat)
    (h : testSeq (d.getJ Reg.HLN_LANE_CTRL.TEST g l) = some q) :
    (d.prbsLock g l levels).regs = (d.laneTestCounted g l (d.laneTestRun g l q levels)).regs := by
  simp only [Dev.prbsLock, h]
  rfl

theorem Dev.prbsLock_getJ {d : Dev} {g l : Nat} {q : TestSeq} (levels : List Nat) (f : Fld)
    (h : testSeq (d.getJ Reg.HLN_LANE_CTRL.TEST g l) = some q) :
    (d.prbsLock g l levels).getJ f g l = (d.laneTestCounted g l (d.laneTestRun g l q levels)).getJ f g l := by
  rw [Dev.getJ, Dev.prbsLock_regs levels h, Dev.getJ]

section
variable (d : Dev) (g l : Nat) (r : PrbsRun)

theorem Dev.laneTestCounted_lock :
    (d.laneTestCounted g l r).getJ Reg.HLN_LANE_CTRL.PRBS_LOCK g l = b1 r.c.locked :=
  (Dev.getJ_setJ_same _ _ _ _ _).trans (b1_trunc (by decide) _)

theorem Dev.laneTestCounted_errs : (d.laneTestCounted g l r).getJ Reg.HLN_LANE_PRBS_ERR.ERR g l =
    capN 0xFFFFFFFF (d.getJ Reg.HLN_LANE_PRBS_ERR.ERR g l + r.errs) := by
  simp (disch := decide) only [Dev.laneTestCounted, Dev.addSatJ, Dev.getJ_setJ_beside, Dev.getJ_setJ_same, trunc_capN]
  rfl

theorem Dev.laneTestCounted_units : (d.laneTestCounted g l r).getJ Reg.HLN_LANE_PRBS_CNT.CNT g l =
    capN 0xFFFFFFFF (d.getJ Reg.HLN_LANE_PRBS_CNT.CNT g l + r.settle.2) := by
  simp (disch := decide) only [Dev.laneTestCounted, Dev.addSatJ, Dev.getJ_setJ_beside, Dev.getJ_setJ_same, trunc_capN]
  rfl

end

end Sys2Proof.Machine
end

section
/-! The statement about the lane groups and their blocks. -/

open Sys2Proof Sys2Proof.Machine

/-- Settles O48: the premises of each clause choose the branch of the event's operation; the counts, the numbers and the cells of a
block are read off the writes that it makes. -/
theorem laneGroupsCarryBlocks : Obligations.LaneGroupsCarryBlocks := by
  unfold Obligations.LaneGroupsCarryBlocks
  refine fun s g hs => ⟨fun skew hr hk => ?align, fun skew hr hk => ?skewed, fun hr => ?run, fun b he hg => ⟨?receive, ?lost⟩,
    fun c he => ⟨s.dev.blockNumbered_bnum g c, fun hg => ?training, fun hg => ⟨?send, ?cells, ?header, ?regs⟩⟩,
    fun l c hst hc => ?laneLost, fun n hr hn h => ?noHeader, fun n hr hh hn h => ?notFollowed, fun f c l h => ?merge,
    fun l k q hq => ?test⟩
  case align => exact ⟨_, exec_of_liftRun hs rfl rfl, Dev.groupAlign_gstate hr hk, rfl⟩
  case skewed => exact exec_of_liftRun hs rfl (Dev.groupAlign_skewed hr hk)
  case run => exact exec_of_liftRun hs rfl (Dev.runEntry_ready hr)
  case receive => exact exec_of_liftRun hs rfl (Dev.blockReceive_aligned b he hg)
  case lost => exact (Dev.blockCounts_unc _ _ _).trans (by rw [← Dev.blockArrived_unc s.dev g.val b]; rfl)
  case training => exact exec_of_liftRun hs rfl (Dev.blockSend_training c he hg)
  case send => exact exec_of_liftRun hs rfl (Dev.blockSend_aligned c he hg)
  case cells => exact Dev.blockBuilt_cells_length _ _
  case header => exact Dev.blockBuilt_header _ _
  case regs => exact Dev.blockBuilt_regs _ _
  case laneLost => exact exec_of_liftRun hs rfl (Dev.laneLost_running hst hc)
  case noHeader => exact exec_of_liftRun hs rfl (Dev.peerStuck_noHeader hr hn h)
  case notFollowed => exact exec_of_liftRun hs rfl (Dev.peerStuck_notFollowed hr hh hn h)
  case merge => exact exec_of_liftRun hs rfl (Dev.mergeTimeout_waiting h)
  case test =>
    refine ⟨_, exec_of_liftRun hs rfl rfl, ?lock, ?errs, ?units, rfl⟩
    case lock => exact (Dev.prbsLock_getJ _ _ hq).trans (Dev.laneTestCounted_lock _ _ _ _)
    case errs => exact (Dev.prbsLock_getJ _ _ hq).trans (Dev.laneTestCounted_errs _ _ _ _)
    case units => exact (Dev.prbsLock_getJ _ _ hq).trans (Dev.laneTestCounted_units _ _ _ _)

end

section
/-! An empty queue (R262): a beat of the time base moves time alone. -/

namespace Sys2Proof.Machine

theorem Dev.wait_now (d : Dev) (n : Nat) : (d.wait n).now = d.now + n := by
  rw [Dev.wait, Dev.until_now, Nat.max_eq_right (Nat.le_add_right _ _)]

/-- Out of reset a step of an empty queue is one beat. -/
theorem step_empty {s : State} (hp : s.pending = []) (h : s.Live) : step s = .next (s.withDev (s.dev.wait beatNs)) := by
  rw [step, hp]
  exact congrArg Host.Outcome.next (State.lift_live h _)

end Sys2Proof.Machine
end

section
/-! The statement about the empty queue. -/

open Sys2Proof Sys2Proof.Machine

/-- Settles O2: the step is one beat, and time running on leaves all but the two times alone. -/
theorem emptyQueueIdles : Obligations.EmptyQueueIdles := by
  unfold Obligations.EmptyQueueIdles
  intro s hp hs
  exact ⟨_, step_empty hp hs, hp, rfl, s.dev.wait_now 32, s.dev.until_eq _⟩

end

section
/-! Sources and steps of device time (R264, R268, R269, R275, R295, R297): the words of SRC, INCR, SET and STEP, and what each
write brings about. -/

namespace Sys2Proof.Machine

/-! ### The source (R268, R269) -/

theorem Dev.writeEffect_tymSrc (d : Dev) (w : Nat) :
    d.writeEffect .tymC 0 0x040 w = (d.storeWord .tymC 0 0x040 w).srcWritten d.tymState := rfl

theorem exec_src {s : State} (k : Fin 4) (h : s.Accepts .tymC 0 0x040 k.val) :
    exec (.src k) s = .next (s.withDev ((s.stored .tymC 0 0x040 k.val).srcWritten s.dev.tymState)) :=
  (next_lift_command (f := fun _ => k.val) (by decide) h).trans (by rw [Dev.writeEffect_tymSrc, State.stored])

/-! ### The frequency (R264, R295) -/

theorem Dev.writeEffect_tymIncr (d : Dev) (w : Nat) :
    d.writeEffect .tymC 0 0x048 w = (d.storeWord .tymC 0 0x048 w).incrWritten := rfl

theorem Dev.storeWord_tymIncr (d : Dev) (w : Nat) :
    d.storeWord .tymC 0 0x048 w = d.set Reg.TYM_INCR_LO.INCR_LO 0 (Reg.TYM_INCR_LO.INCR_LO.of w) := by
  rw [Dev.set, Fld.trunc_of]
  rfl

/-- The lower half of a pair written: the pair reads as that half under the upper one that stood. -/
theorem Dev.get64_set_lo (d : Dev) {lo hi : Fld} {i : Nat} (v : Nat) (h : hi.key i 0 ≠ lo.key i 0) :
    (d.set lo i v).get64 lo hi i = trunc lo.width v + pow2 32 * d.get hi i := by
  rw [Dev.get64, Dev.get_set_same, Dev.get_set_ne _ _ h]

/-- INCR waits for the next galley start. -/
theorem Dev.incrWritten_incrNext (d : Dev) :
    d.incrWritten.tym.incrNext = some (d.get64 Reg.TYM_INCR_LO.INCR_LO Reg.TYM_INCR_HI.INCR_HI 0) := rfl

theorem Dev.incrWritten_incr (d : Dev) : d.incrWritten.incr = d.incr := rfl

/-- A word is its own INCR_LO. -/
theorem incrLo_of_word (v : Word) : Reg.TYM_INCR_LO.INCR_LO.of v.toNat = v.toNat := by
  have hv : v.toNat < 2 ^ 32 := v.isLt
  simp only [Fld.of, bitsOf, trunc, Reg.TYM_INCR_LO.INCR_LO, pow2, Nat.pow_zero, Nat.div_one]
  exact Nat.mod_eq_of_lt hv

theorem Dev.writeEffect_tymIncr_incrNext (d : Dev) (v : Word) :
    (d.writeEffect .tymC 0 0x048 v.toNat).tym.incrNext =
      some (v.toNat + 4294967296 * d.get Reg.TYM_INCR_HI.INCR_HI 0) := by
  rw [Dev.writeEffect_tymIncr, Dev.storeWord_tymIncr, Dev.incrWritten_incrNext, Dev.get64_set_lo _ _ (by decide), Fld.trunc_of, incrLo_of_word]
  rfl

theorem Dev.writeEffect_tymIncr_incr (d : Dev) (w : Nat) : (d.writeEffect .tymC 0 0x048 w).incr = d.incr := by
  rw [Dev.writeEffect_tymIncr, Dev.storeWord_tymIncr, Dev.incrWritten_incr, Dev.set_incr]

theorem exec_incr {s : State} (v : Word) (h : s.Accepts .tymC 0 0x048 v.toNat) :
    exec (.incr v) s = .next (s.withDev (s.dev.writeEffect .tymC 0 0x048 v.toNat)) :=
  next_lift_command (f := fun _ => v.toNat) (by decide) h

/-! ### Steps (R275, R297) -/

theorem Dev.writeEffect_tymAdj (d : Dev) (w : Nat) :
    d.writeEffect .tymT 0 0x05C w = (d.storeWord .tymT 0 0x05C w).adjust (Reg.TYM_ADJ_CMD.CMD.of w) := rfl

theorem exec_set {s : State} (h : s.Accepts .tymT 0 0x05C 1) :
    exec .set s = .next (s.withDev ((s.stored .tymT 0 0x05C 1).adjust 1)) :=
  (next_lift_command (f := fun _ => 1) (by decide) h).trans (by rw [Dev.writeEffect_tymAdj]; rfl)

theorem exec_step {s : State} (h : s.Accepts .tymT 0 0x05C 2) :
    exec .step s = .next (s.withDev ((s.stored .tymT 0 0x05C 2).adjust 2)) :=
  (next_lift_command (f := fun _ => 2) (by decide) h).trans (by rw [Dev.writeEffect_tymAdj]; rfl)

theorem Dev.requestStep_step (d : Dev) (g : Nat) (delta : Int) : (d.requestStep g delta).tym.step = some ⟨g, delta⟩ := rfl

theorem Dev.adjust_step (d : Dev) :
    (d.adjust 2).tym.step = some ⟨d.stepGalley, if d.flag Reg.TYM_ADJ_SEC_HI.SIGN 0 then -d.adjValue else d.adjValue⟩ :=
  Dev.requestStep_step _ _ _

theorem Dev.stepApply_requested {d : Dev} {r : StepReq} (h : d.tym.step = some r) : d.stepApply = d.makeStep.pmStep r.delta := by
  simp only [Dev.stepApply, h]

end Sys2Proof.Machine
end

section
/-! The statement about the commands of device time. -/

open Sys2Proof Sys2Proof.Machine

/-- Settles O50: each command is its register's write with the word that it makes; a step is made where one is requested. -/
theorem timeCommandsTakeEffect : Obligations.TimeCommandsTakeEffect := by
  unfold Obligations.TimeCommandsTakeEffect
  refine fun s => ⟨exec_src, fun v h => ⟨_, exec_incr v h, s.dev.writeEffect_tymIncr_incrNext v, s.dev.writeEffect_tymIncr_incr _, rfl⟩,
    fun c k hc h => ?adjust, fun r hs hr => exec_of_liftRun hs rfl (Dev.stepApply_requested hr), Dev.adjust_step⟩
  case adjust =>
    obtain ⟨rfl, rfl⟩ | ⟨rfl, rfl⟩ := hc
    · exact exec_set h
    · exact exec_step h

end

section
/-! The servo, the time inputs and the device second (R269 to R274): what an update of the servo does with a small and with a large
offset, and how each input's edges, messages and silences are judged. -/

namespace Sys2Proof.Machine

theorem sec_eq (n : Nat) : sec n = 1000000000 * n := Nat.mul_comm _ _

theorem Dev.raise_flag (d : Dev) (e : Ev) (i ins code : Nat) {f : Fld} (j : Nat) (h : f.KeptByEvents) :
    (d.raise e i ins code).flag f j = d.flag f j := by
  rw [Dev.flag, Dev.raise_get _ _ _ _ _ _ h, Dev.flag]

/-! ### The servo (R269, R270) -/

/-- The servo updates in ACQUIRE and LOCKED, while no step waits and the source has something new. -/
theorem Dev.servoReady_of {d : Dev} (hst : d.tymState = 1 ∨ d.tymState = 2) (hstep : d.tym.step = none)
    (hsrc : (d.src = 1 ∧ d.tym.ppsNew = true) ∨ d.src = 2) : d.servoReady = true := by
  simp only [Dev.servoReady, hstep, Option.isNone_none, Bool.and_true, Bool.and_eq_true, Bool.or_eq_true, beq_iff_eq]
  exact ⟨hst, hsrc⟩

/-- The device once an update has used its edge and shows the offset. -/
def Dev.offsetShown (d : Dev) : Dev :=
  (d.modTym fun y => { y with ppsNew := false }).setS Reg.TYM_OFS.PS 0 (clampI (-2147483648) 2147483647 (toPs d.servoOffset))

/-- The device once the servo has slewed by `x` and counted the run of offsets within the lock threshold. -/
def Dev.servoSlewed (d : Dev) (x : Int) : Dev :=
  let e := d.slew x (if d.src = 1 then 10 else 1)
  e.modTym fun y =>
    { y with lockRun := if x.natAbs * 125 ≤ e.get Reg.TYM_LOCK.LOCK_PS 0 * 8192 then e.tym.lockRun + 1 else 0 }

section
variable {d : Dev} (hr : d.servoReady = true)
include hr

/-- An offset above STEP_NS requests a step that takes it away. -/
theorem Dev.servo_far (h : (d.offsetShown.get Reg.TYM_SERVO.STEP_NS 0 : Int) * 65536 < d.servoOffset.natAbs) :
    d.servo = ((d.offsetShown.requestStep d.offsetShown.stepGalley (-d.servoOffset)).modTym fun y =>
      { y with lockRun := 0 }).enterTym 1 :=
  (if_pos hr).trans (if_pos h)

/-- An offset within STEP_NS is slewed; the sixteenth in a row within the lock threshold locks. -/
theorem Dev.servo_near (h : d.servoOffset.natAbs ≤ (d.offsetShown.get Reg.TYM_SERVO.STEP_NS 0 : Int) * 65536) :
    d.servo =
      let e := d.offsetShown.servoSlewed d.servoOffset
      if e.tymState = 1 ∧ 16 ≤ e.tym.lockRun then e.enterTym 2 else e := by
  refine (if_pos hr).trans ((if_neg (not_lt.2 h)).trans ?_)
  simp only [decide_eq_true_eq]
  rfl

end

/-! ### Holdover (R271) -/

theorem Dev.holdExpired_waiting {d : Dev} (hst : d.tymState = 3) (hs : d.tym.holdSaid = false) :
    d.holdExpired = ((d.until (d.tym.holdAt + 1000000000 * (60 * d.get Reg.TYM_HOLD.LIMIT_MIN 0))).modTym fun x =>
      { x with holdSaid := true }).raise Ev.holdExpired 0 0 0 := by
  simp only [Dev.holdExpired, hst, hs, sec_eq, beq_self_eq_true, Bool.not_false, Bool.and_self, if_true]

/-! ### Captures (R272, R273) -/

/-- A capture leaves the fields outside its four registers alone. -/
theorem Dev.setCapture_get (d : Dev) {lo hi ns frac f : Fld} (t : Int)
    (h : f.key 0 0 ∉ [lo.key 0 0, hi.key 0 0, ns.key 0 0, frac.key 0 0]) :
    (d.setCapture lo hi ns frac t).get f 0 = d.get f 0 :=
  Dev.get_setAll_ne (l := [(lo, _), (hi, _), (ns, _), (frac, _)]) h d

/-! ### The pulse input (R272) -/

/-- The device once an edge of 1PPS_IN is captured and numbered. -/
def Dev.ppsCaptured (d : Dev) (t : Int) : Dev :=
  (d.setCapture Reg.TYM_PPS_IN_CAP_SEC_LO.SEC_LO Reg.TYM_PPS_IN_CAP_SEC_HI.SEC_HI Reg.TYM_PPS_IN_CAP_NS.NS
    Reg.TYM_PPS_IN_CAP_FRAC.FRAC t).modTym fun x => { x with ppsCount := (x.ppsCount + 1) % 65536 }

theorem Dev.ppsCaptured_ppsOk (d : Dev) (t : Int) :
    (d.ppsCaptured t).flag Reg.TYM_PPS_IN_STAT.PPS_OK 0 = d.flag Reg.TYM_PPS_IN_STAT.PPS_OK 0 :=
  congrArg (· == 1) (d.setCapture_get t (by decide))

/-- An edge of a valid input within its window is accepted, and the next is expected a second after it. -/
theorem Dev.ppsEdge_accepted {d : Dev} {t : Int} (hok : d.flag Reg.TYM_PPS_IN_STAT.PPS_OK 0 = true)
    (hw : inWindow (d.tym.ppsExp.getD t) t = true) :
    d.ppsEdge t = (d.ppsCaptured t).modTym fun x =>
      { x with ppsExp := some t, ppsCap := some t, ppsNew := true, ppsFaults := 0 } :=
  (if_pos ((d.ppsCaptured_ppsOk t).trans hok)).trans (if_pos hw)

theorem Dev.ppsWindow_missed {d : Dev} {e : Int} (hok : d.flag Reg.TYM_PPS_IN_STAT.PPS_OK 0 = true) (he : d.tym.ppsExp = some e) :
    d.ppsWindow = ((d.wait ((e + second16 + window16 - d.stampNow) / 65536 + 1).toNat).modTym fun x =>
      { x with ppsExp := x.ppsExp.map (· + second16) }).ppsFault := by
  simp only [Dev.ppsWindow, hok, he, Option.getD_some, if_true]

/-! ### Time messages and the frequency input (R272) -/

theorem Dev.todMessage_badSum (d : Dev) {m : TodMessage} (h : m.sumOk = false) :
    d.todMessage m = d.bump Reg.TYM_PPS_IN_STAT.TOD_ERR 0 := by
  simp only [Dev.todMessage, h, Bool.not_false, if_true]

/-- The device once a whole time event message has come. -/
def Dev.todHeard (d : Dev) : Dev :=
  (d.modTym fun x => { x with todAt := d.now, todSaid := false }).setB Reg.TYM_PPS_IN_STAT.TOD_OK 0 true

theorem Dev.todHeard_todEn (d : Dev) : d.todHeard.flag Reg.TYM_EXT_CTRL.TOD_EN 0 = d.flag Reg.TYM_EXT_CTRL.TOD_EN 0 :=
  Dev.flag_set_ne _ _ (by decide)

/-- While TOD_EN is 0 a message's seconds are not compared. -/
theorem Dev.todMessage_unused {d : Dev} {m : TodMessage} (hsum : m.sumOk = true) (htime : m.timeEvent = true)
    (hen : d.flag Reg.TYM_EXT_CTRL.TOD_EN 0 = false) : d.todMessage m = d.todHeard := by
  have hoff : d.todHeard.flag Reg.TYM_EXT_CTRL.TOD_EN 0 = false := d.todHeard_todEn.trans hen
  unfold Dev.todHeard at hoff ⊢
  simp only [Dev.todMessage, hsum, htime, hoff, Bool.not_true, Bool.false_and, Bool.false_eq_true, if_false]

section
variable {d : Dev} (hen : d.flag Reg.TYM_EXT_CTRL.TOD_EN 0 = true) (hs : d.tym.todSaid = false)
include hen hs

/-- A silence that has not been reported ends 3 s after the last time event message. -/
theorem Dev.todMissing_waiting :
    d.todMissing = (((d.until (d.tym.todAt + 3000000000)).modTym fun x => { x with todSaid := true }).setB
      Reg.TYM_PPS_IN_STAT.TOD_OK 0 false).raise Ev.todFault 0 0 1 := by
  simp only [Dev.todMissing, hen, hs, sec_eq, Nat.reduceMul, Bool.not_false, Bool.and_self, if_true]

theorem Dev.todMissing_todOk : d.todMissing.flag Reg.TYM_PPS_IN_STAT.TOD_OK 0 = false := by
  rw [Dev.todMissing_waiting hen hs, Dev.raise_flag _ _ _ _ _ _ (by decide), Dev.flag_setB_same _ (by decide)]

theorem Dev.todMissing_todSaid : d.todMissing.tym.todSaid = true := by
  rw [Dev.todMissing_waiting hen hs, Dev.raise_tym, Dev.setB_tym, Dev.modTym_tym]

theorem Dev.todMissing_now : d.todMissing.now = max d.now (d.tym.todAt + 3000000000) := by
  rw [Dev.todMissing_waiting hen hs, Dev.raise_now, Dev.setB_now, Dev.modTym_now, Dev.until_now]

end

section
variable (d : Dev) (ppb : Int)

/-- The device once the offset of 10MHZ_IN is kept and judged, before its event. -/
def Dev.f10Judged : Dev :=
  (d.modTym fun x => { x with f10 := some ppb }).setB Reg.TYM_PPS_IN_STAT.F10_OK 0 (decide (ppb.natAbs ≤ 10000000))

/-- The event follows a change of F10_OK. -/
theorem Dev.f10Measured_eq : d.f10Measured ppb =
    if decide (ppb.natAbs ≤ 10000000) = d.flag Reg.TYM_PPS_IN_STAT.F10_OK 0 then d.f10Judged ppb
    else (d.f10Judged ppb).raise Ev.f10Lost 0 0 (b1 (d.flag Reg.TYM_PPS_IN_STAT.F10_OK 0)) := rfl

theorem Dev.f10Judged_f10Ok :
    (d.f10Judged ppb).flag Reg.TYM_PPS_IN_STAT.F10_OK 0 = decide (ppb.natAbs ≤ 10000000) :=
  Dev.flag_setB_same _ (by decide) _ _

theorem Dev.f10Measured_f10Ok :
    (d.f10Measured ppb).flag Reg.TYM_PPS_IN_STAT.F10_OK 0 = decide (ppb.natAbs ≤ 10000000) := by
  rw [Dev.f10Measured_eq]
  split
  · exact d.f10Judged_f10Ok ppb
  · exact (Dev.raise_flag _ _ _ _ _ _ (by decide)).trans (d.f10Judged_f10Ok ppb)

theorem Dev.f10Measured_f10 : (d.f10Measured ppb).tym.f10 = some ppb := by
  rw [Dev.f10Measured_eq]
  split
  · rfl
  · exact congrArg Tym.f10 (Dev.raise_tym _ _ _ _ _)

end

/-! ### The calibration input (R273) -/

/-- With no edge before it, an edge is captured and counted. -/
theorem Dev.timecal_first_edges {d : Dev} (t : Int) (h : d.tym.tcalAt = none) :
    (d.timecal t).get Reg.TYM_TCAL_CNT.EDGES 0 = capN 0xFFFF (d.get Reg.TYM_TCAL_CNT.EDGES 0 + 1) := by
  simp only [Dev.timecal, h, Bool.false_eq_true, if_false]
  rw [Dev.get_bump_same, Dev.setCapture_get _ _ (by decide), Dev.modTym_get]
  rfl

end Sys2Proof.Machine
end

section
/-! The statement about the servo, the time inputs and the device second. -/

open Sys2Proof Sys2Proof.Machine

/-- Settles O51: the premises of each clause choose the branch of the event's operation, and what it shows is read off the writes
that it makes. -/
theorem timeEventsTakeEffect : Obligations.TimeEventsTakeEffect := by
  unfold Obligations.TimeEventsTakeEffect
  refine fun s hs => ⟨fun hst hstep hsrc => ⟨fun h => ?far, fun h => ?near⟩, fun hst hsaid => ?hold, fun t hok hw => ?edge,
    fun e hok he => ?window, fun m h => ?badSum, fun m hsum htime hen => ?message, fun hen hsaid => ?silence, fun ppb => ?frequency,
    fun t => ⟨exec_of_liftRun hs rfl rfl, Dev.timecal_first_edges t⟩, fun hl => exec_of_liftRun hs rfl (if_pos hl)⟩
  case far => exact exec_of_liftRun hs rfl (Dev.servo_far (Dev.servoReady_of hst hstep hsrc) h)
  case near => exact exec_of_liftRun hs rfl (Dev.servo_near (Dev.servoReady_of hst hstep hsrc) h)
  case hold => exact exec_of_liftRun hs rfl (Dev.holdExpired_waiting hst hsaid)
  case edge => exact exec_of_liftRun hs rfl (Dev.ppsEdge_accepted hok hw)
  case window => exact exec_of_liftRun hs rfl (Dev.ppsWindow_missed hok he)
  case badSum => exact exec_of_liftRun hs rfl (s.dev.todMessage_badSum h)
  case message =>
    exact ⟨_, exec_of_liftRun hs rfl (Dev.todMessage_unused hsum htime hen), Dev.flag_setB_same _ (by decide) _ _, rfl, rfl⟩
  case silence =>
    exact ⟨_, exec_of_liftRun hs rfl rfl, Dev.todMissing_todOk hen hsaid, Dev.todMissing_todSaid hen hsaid,
      Dev.todMissing_now hen hsaid, rfl⟩
  case frequency =>
    refine ⟨_, exec_of_liftRun hs rfl rfl, s.dev.f10Measured_f10 ppb, ?_, rfl⟩
    rw [State.withDev_dev, Dev.f10Measured_f10Ok, decide_eq_true_iff]

end

section
/-! The chime channel's sending (R303 to R320): what a packet that becomes pending leaves alone, what a sending writes, and which
branch of each timed operation its premises choose. -/

namespace Sys2Proof.Machine

/-! ### Pending packets (R310, R311) -/

@[simp] theorem Dev.chimePend_regs (d : Dev) (n ty : Nat) (p : List Nat) : (d.chimePend n ty p).regs = d.regs := rfl
@[simp] theorem Dev.le_chimePend (d : Dev) (n ty : Nat) (p : List Nat) :
    (d.chimePend n ty p).le n = { d.le n with chm := { (d.le n).chm with pend := Store.put (d.le n).chm.pend ty p } } :=
  Dev.le_modChm _ _ _

/-! ### Preambles and the end of lock (R306, R307) -/

/-- The device once a preamble has started a reception that goes on to a valid packet. -/
def Dev.receptionStarted (d : Dev) (n metric : Nat) : Dev :=
  (d.set Reg.LE_CHM_METRIC.PRE_DB n (capN 0xFFFF metric)).modChm n fun c => { c with heard := some (metric, d.now + packetNs 496) }

/-- A preamble of 10 dB or more that finds no reception going on starts one. -/
theorem Dev.chimePreamble_free {d : Dev} {n metric : Nat} (hh : d.hears n = true) (hm : 100 ≤ metric)
    (hf : (d.le n).chm.heard = none) : d.chimePreamble n metric [] = d.receptionStarted n metric := by
  simp only [Dev.chimePreamble, hh, hf, not_lt.2 hm, decide_false, Bool.not_true, Bool.or_self, Bool.false_eq_true, if_false,
    List.isEmpty_nil, Bool.true_or, if_true, Dev.receptionStarted]

theorem Dev.receptionStarted_metric (d : Dev) (n : Nat) {metric : Nat} (h : metric < 65536) :
    (d.receptionStarted n metric).get Reg.LE_CHM_METRIC.PRE_DB n = metric := by
  have hcap : capN 0xFFFF metric = metric := if_neg (by omega)
  rw [Dev.receptionStarted, Dev.modChm_get, Dev.get_set_same, hcap]
  exact Nat.mod_eq_of_lt h

theorem Dev.receptionStarted_heard (d : Dev) (n metric : Nat) :
    ((d.receptionStarted n metric).le n).chm.heard = some (metric, d.now + packetNs 496) := by
  rw [Dev.receptionStarted, Dev.le_modChm]

theorem Dev.chimeTimeout_locked {d : Dev} {n : Nat} (h : d.flag Reg.LE_RX_STAT.CHIME n = true) :
    d.chimeTimeout n = (d.until ((d.le n).chm.validAt + ms 300)).chimeLost n :=
  if_pos h

/-! ### Sending (R303, R309, R311) -/

/-- The device once a packet has begun on line engine `n`, with its number not yet advanced. -/
def Dev.packetBegun (d : Dev) (n ty : Nat) (p : List Nat) : Dev :=
  let d := d.until (d.le n).chm.freeAt
  let b := packetBytes ty n (d.get Reg.LE_CHM_SEQ_TX.EPOCH n) (d.get Reg.LE_CHM_SEQ_TX.SEQ n) p
  (d.chimeDrop n ty).modChm n fun c =>
    { c with
      helloSent := c.helloSent || ty == tyHello
      idle := (c.idle + (d.now + 2000 - c.freeAt) / chipNs) % idlePeriod
      freeAt := d.now + packetNs p.length + 2000
      sent := b
      chips := packetChips b }

/-- The device once the number of the next packet is advanced, 65,535 to 0 of the next epoch, and the packet is counted. -/
def Dev.packetNumbered (d : Dev) (n : Nat) : Dev :=
  let seq := d.get Reg.LE_CHM_SEQ_TX.SEQ n
  let epoch := d.get Reg.LE_CHM_SEQ_TX.EPOCH n
  ((d.set Reg.LE_CHM_SEQ_TX.SEQ n (seq + 1)).set Reg.LE_CHM_SEQ_TX.EPOCH n (if seq = 65535 then epoch + 1 else epoch)).bump
    Reg.LE_CHM_TXCNT.SENT n

/-- The packet of highest priority goes out; of a TRANSFER the moment would be kept as well. -/
theorem Dev.chimeSend_next {d : Dev} {n ty : Nat} {p : List Nat} (hp : d.permits n = true)
    (hn : (d.le n).chm.nextPacket = some (ty, p)) (ht : ty ≠ tyTransfer) :
    d.chimeSend n = (d.packetBegun n ty p).packetNumbered n := by
  simp only [Dev.chimeSend, hp, hn, ht, Bool.not_true, Bool.false_eq_true, if_false]
  rfl

theorem Dev.packetBegun_get (d : Dev) (n ty : Nat) (p : List Nat) (f : Fld) (i : Nat) :
    (d.packetBegun n ty p).get f i = d.get f i :=
  Dev.until_get _ _ _ _

theorem Dev.packetBegun_now (d : Dev) (n ty : Nat) (p : List Nat) :
    (d.packetBegun n ty p).now = max d.now (d.le n).chm.freeAt :=
  Dev.until_now _ _

theorem Dev.packetBegun_sent (d : Dev) (n ty : Nat) (p : List Nat) :
    ((d.packetBegun n ty p).le n).chm.sent =
      packetBytes ty n (d.get Reg.LE_CHM_SEQ_TX.EPOCH n) (d.get Reg.LE_CHM_SEQ_TX.SEQ n) p := by
  simp only [Dev.packetBegun, Dev.le_modChm, Dev.until_get]

theorem Dev.packetBegun_chips (d : Dev) (n ty : Nat) (p : List Nat) :
    ((d.packetBegun n ty p).le n).chm.chips = packetChips ((d.packetBegun n ty p).le n).chm.sent := by
  simp only [Dev.packetBegun, Dev.le_modChm]

theorem seqTx_key_ne_epochTx (n : Nat) : Reg.LE_CHM_SEQ_TX.SEQ.key n 0 ≠ Reg.LE_CHM_SEQ_TX.EPOCH.key n 0 :=
  Fld.key_ne_of_place n rfl rfl (by decide)

theorem seqTx_key_ne_sent (n : Nat) : Reg.LE_CHM_SEQ_TX.SEQ.key n 0 ≠ Reg.LE_CHM_TXCNT.SENT.key n 0 :=
  Fld.key_ne_of_place n rfl rfl (by decide)

theorem Dev.packetNumbered_seq (d : Dev) (n : Nat) :
    (d.packetNumbered n).get Reg.LE_CHM_SEQ_TX.SEQ n = (d.get Reg.LE_CHM_SEQ_TX.SEQ n + 1) % 65536 := by
  rw [Dev.packetNumbered, Dev.get_bump_ne _ (seqTx_key_ne_sent n), Dev.get_set_ne _ _ (seqTx_key_ne_epochTx n), Dev.get_set_same]
  rfl

theorem Dev.packetNumbered_now (d : Dev) (n : Nat) : (d.packetNumbered n).now = d.now := rfl
theorem Dev.packetNumbered_le (d : Dev) (n m : Nat) : (d.packetNumbered n).le m = d.le m := rfl

/-! ### Hellos and step notices (R313, R315) -/

/-- Time runs on to the end of the hello period; it stands still where a HELLO is due at once. -/
def Dev.helloTime (d : Dev) (n : Nat) : Dev :=
  if (d.le n).helloNow then d else d.until ((d.le n).chm.helloAt + ms 100)

/-- The device once a HELLO is pending on line engine `n` and its period starts anew. -/
def Dev.helloQueued (d : Dev) (n : Nat) : Dev :=
  let e := d.setLe n { d.le n with helloNow := false }
  (e.chimePend n tyHello (e.helloPayload n)).modChm n fun c => { c with helloAt := e.now }

theorem Dev.helloDue_permitted {d : Dev} {n : Nat} (h : d.permits n = true) : d.helloDue n = (d.helloTime n).helloQueued n := by
  simp only [Dev.helloDue, h, Bool.not_true, Bool.false_eq_true, if_false]
  rfl

theorem Dev.helloTime_regs (d : Dev) (n : Nat) : (d.helloTime n).regs = d.regs := by
  unfold Dev.helloTime
  split
  · rfl
  · exact Dev.until_regs _ _

theorem Dev.helloQueued_regs (d : Dev) (n : Nat) : (d.helloQueued n).regs = d.regs := rfl

theorem Dev.helloQueued_helloNow (d : Dev) (n : Nat) : ((d.helloQueued n).le n).helloNow = false := by
  simp only [Dev.helloQueued, Dev.le_modChm, Dev.le_chimePend, Dev.le_setLe_same]

theorem Dev.helloQueued_helloAt (d : Dev) (n : Nat) : ((d.helloQueued n).le n).chm.helloAt = (d.helloQueued n).now := by
  simp only [Dev.helloQueued, Dev.le_modChm]
  rfl

/-- Time runs on to 10 ms after the last notice; it stands still for the first one. -/
def Dev.noticeTime (d : Dev) : Dev := if d.chime.noticeAt = 0 then d else d.until (d.chime.noticeAt + ms 10)

theorem Dev.noticeTime_regs (d : Dev) : d.noticeTime.regs = d.regs := by
  unfold Dev.noticeTime
  split
  · rfl
  · exact Dev.until_regs _ _

theorem Dev.over_chimePend_regs (d : Dev) (l : List Nat) (ty : Nat) (p : List Nat) :
    (d.over l fun n d => d.chimePend n ty p).regs = d.regs :=
  Dev.over_keeps Dev.regs (fun m e => e.chimePend_regs m ty p) l d

section
variable {d : Dev} {x : StepReq} (h : d.tym.step = some x)
include h

theorem Dev.noticeSend_noticeAt : d.noticeSend.chime.noticeAt = d.noticeSend.now := by
  simp only [Dev.noticeSend, h]
  rfl

/-- A notice waits on line engines and shows in no register. -/
theorem Dev.noticeSend_regs : d.noticeSend.regs = d.regs := by
  simp only [Dev.noticeSend, h, Dev.modChime_regs, Dev.over_chimePend_regs]
  exact d.noticeTime_regs

end

/-! ### Proposals (R65, R316) -/

section
variable {d : Dev} {n : Nat} {p : Proposal} (hp : (d.le n).chm.proposal = some p) (hc : p.cancel = false) (ha : p.answered = false)
include hp hc ha

/-- Within a second of its start an open proposal is sent again. -/
theorem Dev.proposeRepeat_open (ht : (d.until (p.lastAt + ms 100)).now < p.startAt + sec 1) :
    d.proposeRepeat n = ((d.until (p.lastAt + ms 100)).modChm n fun c =>
      { c with proposal := some { p with lastAt := (d.until (p.lastAt + ms 100)).now } }).chimePend n tyPropose p.payload := by
  simp only [Dev.proposeRepeat, hp, hc, ha, not_le.2 ht, decide_false, Bool.or_self, Bool.false_eq_true, if_false]

/-- A second without an answer withdraws an open proposal. -/
theorem Dev.proposeTimeout_open (hs : d.flag Reg.LE_TX_BL_CTRL.SWITCH n = true) :
    d.proposeTimeout n = ((((d.until (p.startAt + sec 1)).chimeDrop n tyPropose).set Reg.LE_TX_BL_CTRL.RESULT n 3).setB
      Reg.LE_TX_BL_CTRL.SWITCH n false).raise Ev.blRefused n n 3 := by
  simp only [Dev.proposeTimeout, hp, hc, ha, hs, Bool.not_true, Bool.or_self, Bool.false_eq_true, if_false]

end

/-! ### Partner absence (R319) -/

/-- The device once the absence timer has reached ABSENT_S, before a BEACON is requested. -/
def Dev.absenceShown (d : Dev) (n x : Nat) : Dev :=
  ((d.until (x + 1000000000 * d.get Reg.LE_CHM_CTRL.ABSENT_S n)).setB Reg.LE_CHM_STAT.ABSENT n true).raise Ev.partnerAbsent 0 n 1

theorem Dev.partnerAbsent_due {d : Dev} {n x : Nat} (hx : (d.le n).chm.absFrom = some x)
    (ha : d.flag Reg.LE_CHM_STAT.ABSENT n = false) :
    d.partnerAbsent n =
      if (d.absenceShown n x).flag Reg.LE_CHM_CTRL.ABSENT_EN n then (d.absenceShown n x).beaconRequest n else d.absenceShown n x := by
  simp only [Dev.partnerAbsent, hx, ha, sec_eq, Bool.false_eq_true, if_false]
  rfl

/-! ### Transfers (R318) -/

section
variable {d : Dev} {x : Xfer} {l : List Xfer} (hx : d.chime.xfers = x :: l) (he : d.eligibles ≠ [])
include hx he

/-- The fifth sending without a receipt fails the transfer. -/
theorem Dev.transferRetry_spent (h5 : 5 ≤ x.sends) : d.transferRetry = (d.until (x.sentAt + ms 100)).xferEnd 2 := by
  have h0 : x.sends ≠ 0 := by omega
  simp only [Dev.transferRetry, hx, List.isEmpty_eq_false_iff.2 he, h0, h5, Bool.false_eq_true, if_false, if_true]

/-- A fragment sent fewer times goes to the next eligible carrier. -/
theorem Dev.transferRetry_again {n : Nat} (h0 : 0 < x.sends) (h5 : x.sends < 5)
    (hn : (d.until (x.sentAt + ms 100)).eligibleAfter x.le = some n) :
    d.transferRetry = ((d.until (x.sentAt + ms 100)).chimeDrop x.le tyTransfer).sendFrag n := by
  simp only [Dev.transferRetry, hx, List.isEmpty_eq_false_iff.2 he, h0.ne', not_le.2 h5, hn, Bool.false_eq_true, if_false]

end

/-- The device once 2 s have passed since the last new fragment of an XID, with its partial record discarded. -/
def Dev.partialDropped (d : Dev) (p : Partial) (xid : Nat) : Dev :=
  (d.until (p.at_ + sec 2)).modChime fun c => { c with partials := c.partials.filter fun q => q.xid != xid }

theorem Dev.partialExpired_waiting {d : Dev} {xid : Nat} {p : Partial}
    (hp : (d.chime.partials.find? fun p => p.xid == xid) = some p) (hc : p.checking = false) :
    d.partialExpired xid = d.partialDropped p xid := by
  simp only [Dev.partialExpired, hp, hc, Bool.false_eq_true, if_false, Dev.partialDropped]

theorem Dev.partialDropped_now (d : Dev) (p : Partial) (xid : Nat) :
    (d.partialDropped p xid).now = max d.now (p.at_ + sec 2) := by
  rw [Dev.partialDropped, Dev.modChime_now, Dev.until_now]

theorem Dev.partialDropped_xid_ne {d : Dev} {p q : Partial} {xid : Nat} (h : q ∈ (d.partialDropped p xid).chime.partials) :
    q.xid ≠ xid :=
  bne_iff_ne.1 (List.mem_filter.1 h).2

theorem Dev.partialDropped_regs (d : Dev) (p : Partial) (xid : Nat) : (d.partialDropped p xid).regs = d.regs := by
  rw [Dev.partialDropped, Dev.modChime_regs, Dev.until_regs]

end Sys2Proof.Machine
end

section
/-! The statement about the chime channel's sending. -/

open Sys2Proof Sys2Proof.Machine

/-- Settles O53: the premises of each clause choose the branch of the command's operation, and what it shows is read off the device
that the branch leaves. -/
theorem chimePacketsSent : Obligations.ChimePacketsSent := by
  unfold Obligations.ChimePacketsSent
  refine ⟨fun s n hs => ⟨fun metric hh hm hlt hf => ?preamble, fun hl => ?unlocked, fun ty p hp hn ht => ?send, fun hp => ?hello,
    exec_of_liftRun hs rfl rfl, fun x hx => ?notice, fun p hp hc ha ht => ?repeated, fun p hp hc ha hw => ?timeout,
    fun hl => exec_of_liftRun hs rfl (if_pos hl), fun x hx ha => ?absent⟩,
    fun s hs => ⟨fun x l hx he h5 => ?spent, fun x l n hx he h0 h5 hn => ?again, fun xid p hp hc => ?expired⟩⟩
  case preamble =>
    exact ⟨_, exec_of_liftRun hs rfl (Dev.chimePreamble_free hh hm hf), s.dev.receptionStarted_metric _ hlt,
      congrArg Option.isSome (s.dev.receptionStarted_heard _ _), s.withDev_mem _⟩
  case unlocked => exact exec_of_liftRun hs rfl (Dev.chimeTimeout_locked hl)
  case send =>
    refine ⟨_, exec_of_liftRun hs rfl (Dev.chimeSend_next hp hn ht), ?_, s.dev.packetBegun_now n.val ty p,
      s.dev.packetBegun_sent n.val ty p, s.dev.packetBegun_chips n.val ty p, s.withDev_mem _⟩
    rw [State.withDev_dev, Dev.packetNumbered_seq, Dev.packetBegun_get]
  case hello =>
    exact ⟨_, exec_of_liftRun hs rfl (Dev.helloDue_permitted hp), Dev.helloQueued_helloNow _ _, Dev.helloQueued_helloAt _ _,
      (Dev.helloQueued_regs _ _).trans (s.dev.helloTime_regs _), s.withDev_mem _⟩
  case notice => exact ⟨_, exec_of_liftRun hs rfl rfl, Dev.noticeSend_noticeAt hx, Dev.noticeSend_regs hx, s.withDev_mem _⟩
  case repeated => exact exec_of_liftRun hs rfl (Dev.proposeRepeat_open hp hc ha ht)
  case timeout => exact exec_of_liftRun hs rfl (Dev.proposeTimeout_open hp hc ha hw)
  case absent => exact exec_of_liftRun hs rfl (Dev.partnerAbsent_due hx ha)
  case spent => exact exec_of_liftRun hs rfl (Dev.transferRetry_spent hx he h5)
  case again => exact exec_of_liftRun hs rfl (Dev.transferRetry_again hx he h0 h5 hn)
  case expired =>
    exact ⟨_, exec_of_liftRun hs rfl (Dev.partialExpired_waiting hp hc), s.dev.partialDropped_now _ _,
      fun _ => Dev.partialDropped_xid_ne, s.dev.partialDropped_regs _ _, s.withDev_mem _⟩

end

section
/-! A packet of another line engine (R308): what hearing a packet leaves of the count and of the moment that limits the event, and
the one branch that all eight packet commands take. -/

namespace Sys2Proof.Machine

/-! ### A packet heard (R302, R307) -/

/-- Outside the event registers a valid packet writes the count of valid packets and the two flags of chime lock alone. -/
theorem Dev.chimeLocked_get (d : Dev) (n : Nat) {f : Fld} (i : Nat) (hk : f.KeptByEvents)
    (hv : f.key i 0 ≠ Reg.LE_CHM_RXCNT.VALID.key n 0) (hc : f.key i 0 ≠ Reg.LE_RX_STAT.CHIME.key n 0)
    (hl : f.key i 0 ≠ Reg.LE_CHM_STAT.LOCK.key n 0) : (d.chimeLocked n).get f i = d.get f i := by
  unfold Dev.chimeLocked
  simp only
  split
  · rw [Dev.modChm_get, Dev.get_bump_ne _ hv]
  · rw [Dev.raise_get _ _ _ _ _ _ hk, Dev.setB, Dev.get_set_ne _ _ hl, Dev.setB, Dev.get_set_ne _ _ hc, Dev.modChm_get,
      Dev.get_bump_ne _ hv]

theorem Dev.chimeLocked_now (d : Dev) (n : Nat) : (d.chimeLocked n).now = d.now := by
  unfold Dev.chimeLocked
  simp only
  split
  · rfl
  · rw [Dev.raise_now]; rfl

theorem Dev.le_chimeLocked (d : Dev) (n : Nat) :
    (d.chimeLocked n).le n = { d.le n with chm := { (d.le n).chm with validAt := d.now } } := by
  unfold Dev.chimeLocked
  simp only
  split
  · exact Dev.le_modChm _ _ _
  · rw [Dev.raise_le, Dev.setB, Dev.set_le, Dev.setB, Dev.set_le]
    exact Dev.le_modChm _ _ _

/-- The device once a packet of another line engine is heard, discarded and counted. -/
def Dev.miswiredCounted (d : Dev) (n : Nat) : Dev := ((d.heardNone n).chimeLocked n).bump Reg.LE_CHM_DISC.MISWIRED n

theorem miswired_key_ne_valid (n : Nat) : Reg.LE_CHM_DISC.MISWIRED.key n 0 ≠ Reg.LE_CHM_RXCNT.VALID.key n 0 :=
  Fld.key_ne_of_place n rfl rfl (by decide)

theorem miswired_key_ne_lock (n : Nat) : Reg.LE_CHM_DISC.MISWIRED.key n 0 ≠ Reg.LE_CHM_STAT.LOCK.key n 0 :=
  Fld.key_ne_of_place n rfl rfl (by decide)

theorem miswired_key_ne_chime (n : Fin 8) : Reg.LE_CHM_DISC.MISWIRED.key n.val 0 ≠ Reg.LE_RX_STAT.CHIME.key n.val 0 := by
  revert n; decide

theorem Dev.miswiredCounted_count (d : Dev) (n : Fin 8) :
    (d.miswiredCounted n.val).get Reg.LE_CHM_DISC.MISWIRED n.val = capN 0xFF (d.get Reg.LE_CHM_DISC.MISWIRED n.val + 1) := by
  rw [Dev.miswiredCounted, Dev.get_bump_same, Dev.chimeLocked_get _ _ _ (by decide) (miswired_key_ne_valid _)
    (miswired_key_ne_chime n) (miswired_key_ne_lock _)]
  rfl

theorem Dev.miswiredCounted_now (d : Dev) (n : Nat) : (d.miswiredCounted n).now = d.now :=
  Dev.chimeLocked_now _ _

theorem Dev.miswiredCounted_miswireAt (d : Dev) (n : Nat) :
    ((d.miswiredCounted n).le n).chm.miswireAt = (d.le n).chm.miswireAt := by
  rw [Dev.miswiredCounted, Dev.bump, Dev.addSat, Dev.set_le, Dev.le_chimeLocked, Dev.heardNone, Dev.le_modChm]

/-! ### A packet of another line engine (R308) -/

/-- The event, with the received LE as code, and its moment kept. -/
def Dev.miswireRaised (d : Dev) (n le : Nat) : Dev :=
  (d.modChm n fun c => { c with miswireAt := some d.now }).raise Ev.chimeMiswire n n le

/-- A valid packet of the command's type from a sender on another line engine comes to `miswired`, whatever the command. -/
theorem Dev.packet_miswired {d : Dev} {n ty : Nat} {b : List Nat} (f : Dev → List Nat → Dev) (hh : d.hears n = true)
    (hhdr : headerOk b = true) (hpay : payloadOk b = true) (hty : b.getD 0 0 = ty) (hle : b.getD 2 0 % 8 ≠ n) :
    d.packet n ty b f = ((d.heardNone n).chimeLocked n).miswired n (b.getD 2 0 % 8) := by
  simp only [Dev.packet, hh, hhdr, hpay, hty, hle, ne_eq, not_true_eq_false, not_false_eq_true, Bool.not_true, Bool.or_self,
    Bool.false_eq_true, if_false, if_true]

/-- The event is raised where none was raised in the last second. -/
theorem Dev.miswired_eq (d : Dev) (n le : Nat) : ((d.heardNone n).chimeLocked n).miswired n le =
    if since (d.le n).chm.miswireAt d.now 1000000000 then (d.miswiredCounted n).miswireRaised n le else d.miswiredCounted n := by
  rw [← d.miswiredCounted_miswireAt n, ← d.miswiredCounted_now n]
  rfl

/-- The eight commands that receive a packet of a type. -/
abbrev ReceivesPacket (c : Instr) (n : Fin 8) (b : List Byte) (ty : Nat) : Prop :=
  (c = .hello n b ∧ ty = tyHello) ∨ (c = .timeReport n b ∧ ty = tyReport) ∨ (c = .stepNotice n b ∧ ty = tyNotice) ∨
    (c = .blPropose n b ∧ ty = tyPropose) ∨ (c = .blAnswer n b ∧ ty = tyAnswer) ∨ (c = .snrReport n b ∧ ty = tySnr) ∨
    (c = .transfer n b ∧ ty = tyTransfer) ∨ (c = .receipt n b ∧ ty = tyReceipt)

/-- Each of them judges the packet by `Dev.packet` and differs in the use of an accepted one. -/
theorem ReceivesPacket.exec_eq {c : Instr} {n : Fin 8} {b : List Byte} {ty : Nat} (h : ReceivesPacket c n b ty) (s : State) :
    ∃ f, exec c s = .next (s.liftRun fun d => d.packet n.val ty (natsOf b) f) := by
  rcases h with ⟨rfl, rfl⟩ | ⟨rfl, rfl⟩ | ⟨rfl, rfl⟩ | ⟨rfl, rfl⟩ | ⟨rfl, rfl⟩ | ⟨rfl, rfl⟩ | ⟨rfl, rfl⟩ | ⟨rfl, rfl⟩ <;>
    exact ⟨_, rfl⟩

end Sys2Proof.Machine
end

section
/-! The statement about packets of another line engine. -/

open Sys2Proof Sys2Proof.Machine

/-- Settles O55: all eight commands come to one branch of `Dev.packet`, and hearing the packet leaves the count and the moment of the
last event as they were. -/
theorem miswiredPacketsDiscarded : Obligations.MiswiredPacketsDiscarded := by
  unfold Obligations.MiswiredPacketsDiscarded
  intro s n b c ty hs hc l le hh hhdr hpay hty hle d
  obtain ⟨f, hexec⟩ := ReceivesPacket.exec_eq hc s
  have hmis : s.dev.packet n.val ty l f = _ := (Dev.packet_miswired f hh hhdr hpay hty hle).trans (s.dev.miswired_eq _ _)
  refine ⟨s.dev.miswiredCounted_count n, fun hdue => ?due, fun hrecent => ?recent⟩
  case due => exact exec_of_liftRun hs hexec (hmis.trans (if_pos hdue))
  case recent => exact exec_of_liftRun hs hexec (hmis.trans (if_neg (ne_true_of_eq_false hrecent)))

end

section
/-! Commands of Carillon and of the trust unit (R342, R343, R376): the word each makes, and what the accepted write of such a word
starts. -/

namespace Sys2Proof.Machine

/-! ### Words of two fields -/

/-- A field put into a word leaves the bits below it. -/
theorem Fld.put_mod (f : Fld) (v w : Nat) : f.put v w % pow2 f.lo = w % pow2 f.lo := by
  have hle : f.of w * pow2 f.lo ≤ w := (Nat.mul_le_mul_right _ (Nat.mod_le _ _)).trans (Nat.div_mul_le_self w _)
  rw [Nat.mul_comm] at hle
  rw [Fld.put, Nat.add_mul_mod_self_right, Nat.mul_comm, Nat.sub_mul_mod hle]

/-- A field put into a word leaves every field that lies below it. -/
theorem Fld.of_put_below {f g : Fld} (h : g.lo + g.width ≤ f.lo) (v w : Nat) : g.of (f.put v w) = g.of w := by
  have hof (x : Nat) : g.of x = x % pow2 f.lo % (pow2 g.lo * pow2 g.width) / pow2 g.lo := by
    rw [Nat.mod_mod_of_dvd _ (by rw [pow2, pow2, pow2, ← pow_add]; exact pow_dvd_pow 2 h), Nat.mod_mul_right_div_self]
    rfl
  rw [hof, hof, Fld.put_mod]

/-- A field reads from a word the value put into it, where the value fits. -/
theorem Fld.of_put_fits {f : Fld} {v : Nat} (h : v < pow2 f.width) (w : Nat) : f.of (f.put v w) = v :=
  (f.of_put v w).trans (Nat.mod_eq_of_lt h)

/-! ### Carillon (R342, R343) -/

theorem Dev.writeEffect_carCmd (d : Dev) (w : Nat) :
    d.writeEffect .car 0 0x040 w = (d.storeWord .car 0 0x040 w).carCommand (Reg.CAR_CMD.OP.of w) (Reg.CAR_CMD.ARG.of w) := rfl

/-- OP and ARG are read from the word that puts both. -/
theorem carCmd_word {op arg : Nat} (hop : op ≤ 8) (harg : arg < 4096) :
    Reg.CAR_CMD.OP.of (Reg.CAR_CMD.OP.put op arg) = op ∧ Reg.CAR_CMD.ARG.of (Reg.CAR_CMD.OP.put op arg) = arg :=
  ⟨Fld.of_put_fits (Nat.lt_of_le_of_lt hop (by decide)) arg,
    (Fld.of_put_below (by decide) op arg).trans ((congrArg (trunc 12) (Nat.div_one arg)).trans (Nat.mod_eq_of_lt harg))⟩

/-- A command that writes OP and ARG to CAR_CMD starts the action of that OP on that ARG. -/
theorem exec_carCommand {s : State} {c : Instr} {op arg : Nat}
    (hc : exec c s = .next (s.lift fun d => d.command .car 0 0x040 fun _ => Reg.CAR_CMD.OP.put op arg))
    (hop : op ≤ 8) (harg : arg < 4096) (h : s.Accepts .car 0 0x040 (Reg.CAR_CMD.OP.put op arg)) :
    exec c s = .next (s.withDev ((s.stored .car 0 0x040 (Reg.CAR_CMD.OP.put op arg)).carCommand op arg)) := by
  obtain ⟨hof, hargOf⟩ := carCmd_word hop harg
  refine hc.trans ((next_lift_command (f := fun _ => Reg.CAR_CMD.OP.put op arg) (by decide) h).trans ?_)
  rw [Dev.writeEffect_carCmd, hof, hargOf, State.stored]

/-! ### The trust unit (R376) -/

theorem Dev.writeEffect_trustCmd (d : Dev) (w : Nat) :
    d.writeEffect .trust 0 0x044 w = (d.storeWord .trust 0 0x044 w).trustStart (Reg.CAR_TRUST_CMD.OP.of w) := rfl

@[simp] theorem Dev.trustStart_busy (d : Dev) (op : Nat) : (d.trustStart op).flag Reg.CAR_TRUST_STAT.BUSY 0 = true := by
  rw [Dev.trustStart, Dev.modTrust_flag, Dev.flag_setB_same _ (by decide)]

@[simp] theorem Dev.trustStart_cmd (d : Dev) (op : Nat) : (d.trustStart op).trust.cmd = op := rfl

/-- A command that writes OP to CAR_TRUST_CMD starts that trust command. -/
theorem exec_trustCommand {s : State} {c : Instr} {op : Nat}
    (hc : exec c s = .next (s.lift fun d => d.command .trust 0 0x044 fun _ => Reg.CAR_TRUST_CMD.OP.put op 0))
    (hop : op < 256) (h : s.Accepts .trust 0 0x044 (Reg.CAR_TRUST_CMD.OP.put op 0)) :
    exec c s = .next (s.withDev ((s.stored .trust 0 0x044 (Reg.CAR_TRUST_CMD.OP.put op 0)).trustStart op)) := by
  refine hc.trans ((next_lift_command (f := fun _ => Reg.CAR_TRUST_CMD.OP.put op 0) (by decide) h).trans ?_)
  rw [Dev.writeEffect_trustCmd, Fld.of_put_fits hop, State.stored]

end Sys2Proof.Machine
end

section
/-! The statement about the commands of Carillon and of the trust unit. -/

open Sys2Proof Sys2Proof.Machine

/-- Settles O56: each command is one accepted write whose word carries its OP and ARG, and the OP chooses what the write starts. -/
theorem carillonCommandsTakeEffect : Obligations.CarillonCommandsTakeEffect := by
  unfold Obligations.CarillonCommandsTakeEffect
  refine fun s => ⟨fun c op arg f hc h => ?carillon, fun c op hc h => ?trust⟩
  case carillon =>
    obtain ⟨rfl, rfl, rfl, rfl⟩ | ⟨k, rfl, rfl, rfl, rfl⟩ | ⟨k, rfl, rfl, rfl, rfl⟩ | ⟨k, rfl, rfl, rfl, rfl⟩ |
      ⟨k, rfl, rfl, rfl, rfl⟩ | ⟨rfl, rfl, rfl, rfl⟩ | ⟨rfl, rfl, rfl, rfl⟩ | ⟨rfl, rfl, rfl, rfl⟩ := hc
    · exact exec_carCommand rfl (by decide) (by decide) h
    · exact exec_carCommand rfl (by decide) k.isLt h
    · exact exec_carCommand rfl (by decide) k.isLt h
    · exact exec_carCommand rfl (by decide) k.isLt h
    · exact exec_carCommand rfl (by decide) k.isLt h
    · exact exec_carCommand rfl (by decide) (by decide) h
    · exact exec_carCommand rfl (by decide) (by decide) h
    · exact exec_carCommand rfl (by decide) (by decide) h
  case trust =>
    have hexec : exec c s = .next (s.withDev ((s.stored .trust 0 0x044 (Reg.CAR_TRUST_CMD.OP.put op 0)).trustStart op)) := by
      obtain ⟨rfl, rfl⟩ | ⟨rfl, rfl⟩ | ⟨rfl, rfl⟩ := hc <;> exact exec_trustCommand rfl (by decide) h
    exact ⟨_, hexec, Dev.trustStart_busy _ _, Dev.trustStart_cmd _ _, rfl⟩

end

section
/-! The DOE mailbox and the SPDM responder behind it (R378, R379, R440): which reply an object in the mailbox comes to. -/

namespace Sys2Proof.Machine

/-! ### The mailbox -/

theorem Dev.sendVector_host (d : Dev) (v : Nat) : (d.sendVector v).host = d.host :=
  (congrArg Dev.host (Dev.eventsOnly_sendVector d v).1 :)

/-- An object that fits the mailbox of a part without a fuse fault is answered by its reply and is no longer in progress. -/
theorem Dev.doe_host {d : Dev} {n : Nat} (hn : n ≤ 1028) (hf : d.flag Reg.CHIP_SEAL.FAULT 0 = false) (always : Bool)
    (r : DoeReply) : (d.doe n always r).host = { d.host with doeBusy := false, doeResp := some r } := by
  rw [Dev.doe, if_neg (Nat.not_lt.mpr hn), hf, Bool.false_and, if_neg Bool.false_ne_true, Dev.sendVector_host]

theorem Dev.doe_doeResp {d : Dev} {n : Nat} (hn : n ≤ 1028) (hf : d.flag Reg.CHIP_SEAL.FAULT 0 = false) (always : Bool)
    (r : DoeReply) : (d.doe n always r).host.doeResp = some r :=
  congrArg HostSide.doeResp (Dev.doe_host hn hf always r)

/-- A command that a part out of reset carries out on the device: its next state has what the operation makes of the device. -/
theorem exec_of_lift {s : State} {c : Instr} {f : Dev → Dev} {d : Dev} (h : s.Live) (hc : exec c s = .next (s.lift f))
    (hd : f s.dev = d) : exec c s = .next (s.withDev d) := by
  rw [hc, State.lift_live h, hd]

/-! ### The responder -/

/-- A request of `n` dwords is one that the responder answers by other than Busy: it fits the mailbox, the fuses sealed without a
fault, and RUN and READY are true (R378). -/
structure Dev.Responds (d : Dev) (n : Nat) : Prop where
  fits : n ≤ 1028
  sealGood : d.flag Reg.CHIP_SEAL.FAULT 0 = false
  run : d.bootState = 2
  ready : d.idReady = true

/-- A draw of a free value leaves the responder as it is. -/
theorem Dev.Responds.drawn {d : Dev} {n : Nat} (h : d.Responds n) : d.drawn.Responds n :=
  ⟨h.fits, h.sealGood, h.run, h.ready⟩

theorem Dev.spdm_doeResp {d : Dev} {n : Nat} (h : d.Responds n) (r : DoeReply) : (d.spdm n r).host.doeResp = some r := by
  have hrun : (d.bootState == 2 && d.idReady) = true := by simp [h.run, h.ready]
  rw [Dev.spdm, if_pos hrun, Dev.doe_doeResp h.fits h.sealGood]

/-- A portion that starts within the chain holds at most 4,000 bytes, and the reply tells how many are left. -/
theorem Dev.spdmCertificate_doeResp {d : Dev} {n off : Nat} {c : List Nat} (h : d.Responds n) (hc : d.spdmChain = some c)
    (hoff : off < c.length) (len : Nat) : (d.spdmCertificate n 0 off len).host.doeResp =
      some (.certificate (slice c off (min len 4000)) (c.length - off - (slice c off (min len 4000)).length)) := by
  have hslot : ¬((0 : Nat) ≠ 0 ∨ c.length ≤ off) := by omega
  rw [Dev.spdmCertificate, Dev.spdm_doeResp h, hc]
  exact congrArg some (if_neg hslot)

/-- Slot 0 with a chain is challenged with success; nonce, summary and signature are drawn. -/
theorem Dev.spdmChallenge_doeResp {d : Dev} {n : Nat} {c : List Nat} (h : d.Responds n) (hc : d.spdmChain = some c) (sum : Nat) :
    ∃ x y z, (d.spdmChallenge n 0 sum).host.doeResp = some (.challengeAuth (some (sha256 c)) x y z) := by
  rw [Dev.spdmChallenge, Dev.spdm_doeResp h.drawn.drawn.drawn, hc]
  exact ⟨_, _, _, rfl⟩

/-- The measurements are built from the part's registers, fuses and trust unit, none of which a draw changes. -/
theorem Dev.drawn_measurements (d : Dev) (l : List Nat) : d.drawn.measurements l = d.measurements l := rfl

/-- All eight blocks are answered, with a signature where one is asked for. -/
theorem Dev.spdmMeasurements_doeResp {d : Dev} {n : Nat} (h : d.Responds n) (signed : Bool) :
    ∃ x y, (d.spdmMeasurements n 0xFF signed).host.doeResp = some (.measurements (d.measurements [1, 2, 3, 4, 5, 6, 7, 8]) x y) ∧
      y.isSome = signed := by
  rw [Dev.spdmMeasurements, Dev.spdm_doeResp h.drawn.drawn]
  refine ⟨_, _, congrArg some (congrArg (DoeReply.measurements · _ _) ?blocks), ?signature⟩
  case blocks => rw [Dev.drawn_measurements, Dev.drawn_measurements]; rfl
  case signature => cases signed <;> rfl

/-- A trust store without an uncorrectable byte is read without effect. -/
theorem Dev.trustRead_intact {d : Dev} (h : d.rangeFails 6 0 (regionSize 6) = false) : d.trustRead = d := by
  rw [Dev.trustRead, h, Bool.not_false, Bool.or_true, if_pos rfl]

theorem Dev.withTrust_intact {d : Dev} (h : d.rangeFails 6 0 (regionSize 6) = false) (uses : Bool) (f : Dev → Dev) :
    d.withTrust uses f = f d := by
  rw [Dev.withTrust, Dev.trustRead_intact h, ite_self]

end Sys2Proof.Machine
end

section
/-! The statement about the mailbox. -/

open Sys2Proof Sys2Proof.Machine

/-- Settles O21: every object comes to one reply of the mailbox; those of SPDM pass the responder, which RUN and READY let answer,
and those that use the identity key find the trust store intact. -/
theorem mailboxAnswers : Obligations.MailboxAnswers := by
  unfold Obligations.MailboxAnswers
  intro s n hs hn hf
  refine ⟨fun i => ?discovery, fun i => ?cdat, ?abort, ?version, fun ⟨hrun, hready⟩ => ?spdm⟩
  case discovery =>
    exact ⟨_, exec_of_lift hs rfl rfl, Option.isSome_of_eq_some (Dev.doe_doeResp hn hf _ _)⟩
  case cdat => exact ⟨_, exec_of_lift hs rfl rfl, Dev.doe_doeResp hn hf _ _⟩
  case abort => exact ⟨_, exec_of_lift hs rfl rfl, rfl, rfl, rfl⟩
  case version => exact ⟨_, exec_of_lift hs rfl rfl, Dev.doe_doeResp hn hf _ _⟩
  case spdm =>
    have h : s.dev.Responds n := ⟨hn, hf, hrun, hready⟩
    refine ⟨?capabilities, ?algorithms, ?digests, ?unsupported, fun c off len hc hoff => ?certificate,
      fun c sum hc hstore => ?challenge, fun sig hstore => ?measurements⟩
    case capabilities => exact ⟨_, exec_of_lift hs rfl rfl, Dev.spdm_doeResp h _⟩
    case algorithms => exact ⟨_, exec_of_lift hs rfl rfl, Dev.spdm_doeResp h _⟩
    case digests => exact ⟨_, exec_of_lift hs rfl rfl, Dev.spdm_doeResp h _⟩
    case unsupported => exact ⟨_, exec_of_lift hs rfl rfl, Dev.spdm_doeResp h _⟩
    case certificate => exact ⟨_, exec_of_lift hs rfl rfl, Dev.spdmCertificate_doeResp h hc hoff len⟩
    case challenge =>
      obtain ⟨x, y, z, hr⟩ := Dev.spdmChallenge_doeResp h hc sum
      exact ⟨_, x, y, z, exec_of_lift hs rfl (Dev.withTrust_intact hstore _ _), hr⟩
    case measurements =>
      obtain ⟨x, y, hr, hsig⟩ := Dev.spdmMeasurements_doeResp h sig
      exact ⟨_, x, y, exec_of_lift hs rfl (Dev.withTrust_intact hstore _ _), hr, hsig⟩

end

section
/-! What a command can do (R433, R439, R447): the few that name an address may find none there; every other outcome is a next state
with the waiting commands as they stood and the HDM bytes in canonical form. -/

namespace Sys2Proof.Machine

/-! ### The operations that act on the HDM bytes keep their form -/

theorem State.lineWrite_wf {s : State} (addr enables : Nat) (bytes : List Byte) (h : s.MemOk) :
    (s.lineWrite addr enables bytes).MemOk := by
  simp only [State.lineWrite]
  split
  · exact h
  · exact State.hdmWrite_wf _ _ _ h

theorem State.zeroDone_wf {s : State} (h : s.MemOk) : s.zeroDone.MemOk := by
  unfold State.zeroDone
  split
  · exact h
  · rfl

theorem State.hostWrite_wf {s : State} (sp : Space) (w : Nat) (h : s.MemOk) : (s.hostWrite sp w).MemOk := by
  simp only [State.hostWrite]
  split
  · exact h
  · split
    · rfl
    · exact h

theorem State.captureDone_wf {s : State} (samples : List Byte) (h : s.MemOk) : (s.captureDone samples).MemOk := by
  simp only [State.captureDone]
  split
  · exact h
  · simp only [State.MemOk]
    exact State.hdmWrite_wf _ _ _ (State.hdmWrite_wf _ _ _ h)

/-! ### Every command -/

/-- Does a command name an address that does not exist: outside the pages of BAR0, or outside the range that the device claims? -/
def Instr.misses (c : Instr) (s : State) : Bool :=
  match c with
  | .registerWrite sp _ => !Space.exists_ sp
  | .rlRead page off => !Space.exists_ (.page page off)
  | .cxlMemWrite addr _ _ => !s.dev.memClaims addr
  | .cxlMemRead addr => !s.dev.memClaims addr
  | _ => false

theorem exec_of_misses {c : Instr} {s : State} (h : Instr.misses c s = true) : exec c s = .fault .noSuchAddress := by
  cases c with
  | registerWrite sp v => exact if_neg (by simpa [Instr.misses] using h)
  | rlRead page off => exact if_neg (by simpa [Instr.misses] using h)
  | cxlMemWrite addr enables bytes => exact if_neg (by simpa [Instr.misses] using h)
  | cxlMemRead addr => exact if_neg (by simpa [Instr.misses] using h)
  | _ => cases h

/-- A command that names no missing address answers a next state: the waiting commands stand, and the form of the HDM bytes is kept.
All but the commands listed by name act on the device alone. -/
theorem exec_of_not_misses {c : Instr} {s : State} (h : Instr.misses c s = false) :
    ∃ t, exec c s = .next t ∧ t.pending = s.pending ∧ (s.MemOk → t.MemOk) := by
  cases c with
  | registerWrite sp v =>
    exact ⟨_, if_pos (by simpa [Instr.misses] using h), State.hostWrite_pending _ _ _, State.hostWrite_wf _ _⟩
  | rlRead page off =>
    exact ⟨_, if_pos (by simpa [Instr.misses] using h), State.lift_pending _ _, fun hm => (congrArg Memory.wf (State.lift_mem _ _)).trans hm⟩
  | cxlMemWrite addr enables bytes =>
    exact ⟨_, if_pos (by simpa [Instr.misses] using h), State.lineWrite_pending _ _ _ _, State.lineWrite_wf _ _ _⟩
  | cxlMemRead addr =>
    exact ⟨_, if_pos (by simpa [Instr.misses] using h), State.lineRead_pending _ _,
      fun hm => (congrArg Memory.wf (State.lineRead_mem _ _)).trans hm⟩
  | hdmZeroDone => exact ⟨_, rfl, State.zeroDone_pending _, State.zeroDone_wf⟩
  | captureDone samples => exact ⟨_, rfl, State.captureDone_pending _ _, State.captureDone_wf _⟩
  | dmaDescriptorStart channel host => exact ⟨_, rfl, State.dmaStart_pending _ _ _, State.dmaStart_wf _ _ _⟩
  | por => exact ⟨_, rfl, rfl, fun _ => rfl⟩
  | supplyReset rails => exact ⟨_, rfl, rfl, fun _ => rfl⟩
  | pinReset => exact ⟨_, rfl, rfl, fun _ => rfl⟩
  | thermalReset => exact ⟨_, rfl, rfl, fun _ => rfl⟩
  | softReset => exact ⟨_, rfl, State.hostWrite_pending _ _ _, State.hostWrite_wf _ _⟩
  | spared region spare => exact ⟨_, rfl, State.rowSpared_pending _ _ _, State.rowSpared_wf _ _ _⟩
  | _ =>
    exact ⟨_, rfl, by simp only [State.lift_pending, State.liftRun_pending, State.liftAny_pending, State.hostImageChecked_pending],
      by simp only [State.MemOk, State.lift_mem, State.liftRun_mem, State.liftAny_mem, State.hostImageChecked_mem, imp_self]⟩

/-- The same for a next state that is given. -/
theorem exec_next_keeps {c : Instr} {s t : State} (h : exec c s = .next t) : t.pending = s.pending ∧ (s.MemOk → t.MemOk) := by
  cases hc : Instr.misses c s with
  | true => rw [exec_of_misses hc] at h; cases h
  | false =>
    obtain ⟨u, hu, hkeeps⟩ := exec_of_not_misses hc
    rw [hu] at h
    cases h
    exact hkeeps

/-- A well-formed command names no missing address, where a CXL.mem access stays within the range claimed. -/
theorem Instr.misses_of_wf {c : Instr} {s : State} (hwf : c.wf = true)
    (hwrite : ∀ addr enables bytes, c = .cxlMemWrite addr enables bytes → addr < s.dev.memSize)
    (hread : ∀ addr, c = .cxlMemRead addr → addr < s.dev.memSize) : Instr.misses c s = false := by
  have hpage {p off : Nat} (h : (Space.page p off).wf = true) : Space.exists_ (.page p off) = true := by
    simpa [Space.wf, pageWf, Space.exists_] using h
  cases c with
  | registerWrite sp v =>
    cases sp with
    | page p off => simpa [Instr.misses] using hpage hwf
    | msix v dword => rfl
    | decoder => rfl
  | rlRead page off => simpa [Instr.misses] using hpage hwf
  | cxlMemWrite addr enables bytes => simpa [Instr.misses, Dev.memClaims] using hwrite _ _ _ rfl
  | cxlMemRead addr => simpa [Instr.misses, Dev.memClaims] using hread _ rfl
  | _ => rfl

end Sys2Proof.Machine
end

section
/-! The statements about the machine's step and the outcome of every command. -/

open Sys2Proof Sys2Proof.Machine

/-- Settles O1: the front command is taken off the queue, and the rest is the queue that stood behind it. -/
theorem stepRunsFrontCommand : Obligations.StepRunsFrontCommand := by
  unfold Obligations.StepRunsFrontCommand
  exact fun _ _ => rfl

/-- Settles O6: a command with a next state leaves the waiting commands as they stood. -/
theorem commandsLeaveQueue : Obligations.CommandsLeaveQueue := by
  unfold Obligations.CommandsLeaveQueue
  intro c s t h
  obtain ⟨hpending, -⟩ := exec_next_keeps h
  exact hpending

/-- Settles O4: a step is an idle beat, which has no part in memory, or a command, which keeps the form. -/
theorem stepKeepsMemoryForm : Obligations.StepKeepsMemoryForm := by
  unfold Obligations.StepKeepsMemoryForm
  intro s t hs h
  cases hp : s.pending with
  | nil =>
    rw [step, hp] at h
    cases h
    exact (congrArg Memory.wf (State.idle_mem s)).trans hs
  | cons c rest =>
    rw [step, hp] at h
    obtain ⟨-, hform⟩ := exec_next_keeps h
    exact hform hs

/-- Settles O7: a well-formed command names no missing address, so it answers a next state. -/
theorem wellFormedCommandsComplete : Obligations.WellFormedCommandsComplete := by
  unfold Obligations.WellFormedCommandsComplete
  intro c s hwf hrange
  have hwrite : ∀ addr enables bytes, c = .cxlMemWrite addr enables bytes → addr < s.dev.memSize := by
    intro _ _ _ hc
    rw [hc] at hrange
    exact hrange
  have hread : ∀ addr, c = .cxlMemRead addr → addr < s.dev.memSize := by
    intro _ hc
    rw [hc] at hrange
    exact hrange
  obtain ⟨t, ht, -⟩ := exec_of_not_misses (Instr.misses_of_wf hwf hwrite hread)
  exact ⟨t, ht⟩

/-- Settles O8: each of the four accesses names an address that does not exist. -/
theorem outsideAddressesFault : Obligations.OutsideAddressesFault := by
  unfold Obligations.OutsideAddressesFault
  refine fun s p off v addr en b => ⟨fun hpage => ?_, fun hsize => ?_⟩
  · have hmissing : Space.exists_ (.page p off) = false := by
      simp only [Space.exists_, Bool.and_eq_false_iff, decide_eq_false_iff_not]
      omega
    exact ⟨exec_of_misses (by simp [Instr.misses, hmissing]), exec_of_misses (by simp [Instr.misses, hmissing])⟩
  · have hclaims : s.dev.memClaims addr = false := by simpa [Dev.memClaims] using hsize
    exact ⟨exec_of_misses (by simp [Instr.misses, hclaims]), exec_of_misses (by simp [Instr.misses, hclaims])⟩

end

section
/-! Calibration (R384 to R400): the words of its commands, and the branch that each phase of a run takes. -/

namespace Sys2Proof.Machine

/-! ### The command register (R384, R385) -/

theorem Dev.writeEffect_calCmd (d : Dev) (w : Nat) :
    d.writeEffect .cal 0 0x040 w =
      (d.storeWord .cal 0 0x040 w).calCommand (Reg.CAL_CMD.OP.of w) (Reg.CAL_CMD.KIND.of w) (Reg.CAL_CMD.LE.of w) := rfl

/-- A command that writes a word to CAL_CMD has the effect of the word's OP, KIND and LE. -/
theorem exec_calCommand {s : State} {c : Instr} {w op kind n : Nat}
    (hc : exec c s = .next (s.lift fun d => d.command .cal 0 0x040 fun _ => w)) (h : s.Accepts .cal 0 0x040 w)
    (hop : Reg.CAL_CMD.OP.of w = op) (hkind : Reg.CAL_CMD.KIND.of w = kind) (hle : Reg.CAL_CMD.LE.of w = n) :
    exec c s = .next (s.withDev ((s.stored .cal 0 0x040 w).calCommand op kind n)) := by
  refine hc.trans ((next_lift_command (f := fun _ => w) (by decide) h).trans ?_)
  rw [Dev.writeEffect_calCmd, hop, hkind, hle, State.stored]

/-- The word of a RUN of a line engine's kind carries OP, KIND and LE. -/
theorem calRun_word {k : Nat} (hk : k ≤ 4) (n : Fin 8) :
    let w := Reg.CAL_CMD.OP.put 1 (Reg.CAL_CMD.KIND.put k n.val)
    Reg.CAL_CMD.OP.of w = 1 ∧ Reg.CAL_CMD.KIND.of w = k ∧ Reg.CAL_CMD.LE.of w = n.val := by
  have hn : Reg.CAL_CMD.LE.of n.val = n.val := by revert n; decide
  exact ⟨Fld.of_put_fits (by decide) _,
    (Fld.of_put_below (by decide) _ _).trans (Fld.of_put_fits (Nat.lt_of_le_of_lt hk (by decide)) _),
    (Fld.of_put_below (by decide) _ _).trans ((Fld.of_put_below (by decide) _ _).trans hn)⟩

theorem Dev.calCommand_runLe (d : Dev) {kind : Nat} (n : Nat) (h : kind ≤ 4) : d.calCommand 1 kind n = d.calRunLe kind n :=
  if_neg (by omega)

/-! ### The phases (R387) -/

theorem Dev.calHold_holding {d : Dev} (h : d.calIn 3 = true) :
    d.calHold = if d.calHolds.calHeld then d.calHolds.calTo 4 else d.calHolds := by
  simp only [Dev.calHold, h, Bool.not_true, Bool.false_eq_true, if_false]

/-- SETTLE ends 100 ms after the kind's bank came on, and the measurement starts then. -/
theorem Dev.calSettle_settling {d : Dev} (h : d.calIn 4 = true) :
    let e := d.until (Store.get (fun _ => 0) (d.le d.calLe).tx.bankEnd (calBank d.calKind) + 100000000)
    d.calSettle = { (e.calTo 5) with calRun := { CalRun.reset with since := e.now } } := by
  simp only [Dev.calSettle, h, Bool.not_true, Bool.false_eq_true, if_false]
  rfl

/-- The words of a set that a measurement gives, their CRC apart. -/
def Dev.measuredSet (d : Dev) (w : List Nat) : List Nat :=
  d.setHead d.calKind d.calLe ++ (List.range (setLen d.calKind - 3)).map fun i => trunc 32 (w.getD i 0)

/-- A converter's measurement hands its set on where it met its limits and every field lies in its range; else it fails. -/
theorem Dev.calMeasured_set {d : Dev} (w : List Nat) (met : Bool) (h : d.calIn 5 = true) (hk : d.calKind < 3) :
    d.calMeasured (.set w met) =
      if met && setRangesOk d.calKind (d.measuredSet w) then
        { (d.calTo 6) with calRun := { d.calRun with words := d.measuredSet w ++ [setCrc (d.measuredSet w)] } }
      else d.calEnd 7 :=
  if_neg (by simp [h, hk])

theorem Dev.calMeasured_txPath {d : Dev} (times : List Int) (h : d.calIn 5 = true) (hk : d.calKind = 3) :
    d.calMeasured (.edges times) = d.calPath d.calRun.caps.reverse := by
  simp only [Dev.calMeasured, h, hk, Bool.not_true, Bool.false_eq_true, if_false, if_true]

theorem Dev.until_calKind (d : Dev) (t : Nat) : (d.until t).calKind = d.calKind := Dev.until_get _ _ _ _
theorem Dev.until_calLe (d : Dev) (t : Nat) : (d.until t).calLe = d.calLe := Dev.until_get _ _ _ _

/-- At the next galley boundary a converter's set is applied. -/
theorem Dev.calApply_set {d : Dev} (h : d.calIn 6 = true) (hk : d.calKind ≤ 2) :
    d.calApply = ((d.until (d.galleyFrom (d.now + 1))).applySet d.calKind d.calLe d.calRun.words).calEnd 0 := by
  simp only [Dev.calApply, h, Bool.not_true, Bool.false_eq_true, if_false, Dev.until_calKind, Dev.until_calRun, if_pos hk]

/-- At the next galley boundary a time path's delay is written to the table of delays. -/
theorem Dev.calApply_path {d : Dev} (h : d.calIn 6 = true) (hk : 2 < d.calKind) :
    let e := d.until (d.galleyFrom (d.now + 1))
    d.calApply = (e.setTab 0x42 0x01 e.calLe (if e.calKind = 3 then 1 else 3) e.calRun.delay).calEnd 0 := by
  simp only [Dev.calApply, h, Bool.not_true, Bool.false_eq_true, if_false, Dev.until_calKind, Dev.until_calLe,
    if_neg (Nat.not_le.2 hk)]

end Sys2Proof.Machine
end

section
/-! The statement about calibration. -/

open Sys2Proof Sys2Proof.Machine

/-- Settles O59: each command is one accepted write of CAL_CMD, and each phase takes the branch that its guard chooses. -/
theorem calibrationRuns : Obligations.CalibrationRuns := by
  unfold Obligations.CalibrationRuns
  refine ⟨fun s => ⟨fun c k n hc => ?runLe, fun h => ?runMon, fun h => ?restore, fun h => ?abort⟩,
    fun s hs => ⟨fun h => ?hold, fun h => ?settle, fun w h hk => ?failed, fun w => ?measured, fun h hk => ?applySet,
      fun h hk => ?applyPath, fun w h hk => ?path, fun l => exec_of_liftRun hs rfl rfl⟩⟩
  case runLe =>
    intro w h
    have hk : k ≤ 4 := by obtain ⟨-, rfl⟩ | ⟨-, rfl⟩ | ⟨-, rfl⟩ | ⟨-, rfl⟩ := hc <;> decide
    have hexec : exec c s = .next (s.lift fun d => d.command .cal 0 0x040 fun _ => w) := by
      obtain ⟨rfl, rfl⟩ | ⟨rfl, rfl⟩ | ⟨rfl, rfl⟩ | ⟨rfl, rfl⟩ := hc <;> rfl
    obtain ⟨hop, hkind, hle⟩ := calRun_word hk n
    rw [exec_calCommand hexec h hop hkind hle, Dev.calCommand_runLe _ _ hk]
  case runMon => exact exec_calCommand (c := .calRunMon) (op := 1) (kind := 5) (n := 0) rfl h (by decide) (by decide) (by decide)
  case restore => exact exec_calCommand (c := .restore) (op := 2) (kind := 0) (n := 0) rfl h (by decide) (by decide) (by decide)
  case abort => exact exec_calCommand (c := .abort) (op := 3) (kind := 0) (n := 0) rfl h (by decide) (by decide) (by decide)
  case hold => exact exec_of_liftRun hs rfl (Dev.calHold_holding h)
  case settle => exact exec_of_liftRun hs rfl (Dev.calSettle_settling h)
  case failed => exact exec_of_liftRun hs rfl (Dev.calMeasured_set w false h hk)
  case measured =>
    intro body h hk hranges
    refine exec_of_liftRun hs rfl ((Dev.calMeasured_set w true h hk).trans ?_)
    exact if_pos hranges
  case applySet => exact exec_of_liftRun hs rfl (Dev.calApply_set h hk)
  case applyPath => exact exec_of_liftRun hs rfl (Dev.calApply_path h hk)
  case path => exact exec_of_liftRun hs rfl (Dev.calMeasured_txPath w h hk)

end

section
/-! The monitor and the protection of memories (R402 to R406, R421 to R427): the effect of each accepted write, and the branch that
each event takes. -/

namespace Sys2Proof.Machine

/-! ### The monitor's registers (R402, R405, R406) -/

theorem Dev.writeEffect_monSeq (d : Dev) (w : Nat) :
    d.writeEffect .mon 0 0x040 w = (d.storeWord .mon 0 0x040 w).monCtrl (d.get Reg.MON_SEQ_CTRL.TRIG 0) w := rfl

theorem Dev.writeEffect_monInj (d : Dev) (w : Nat) :
    d.writeEffect .mon 0 0x054 w =
      if Reg.MON_INJ.GO.on w then (d.storeWord .mon 0 0x054 w).inject else d.storeWord .mon 0 0x054 w := rfl

theorem Dev.writeEffect_monTdac (d : Dev) (w : Nat) :
    d.writeEffect .mon 0 0x058 w = (d.storeWord .mon 0 0x058 w).tdacWritten := rfl

theorem exec_go {s : State} (h : s.Accepts .mon 0 0x040 (Reg.MON_SEQ_CTRL.GO.put 1 (s.kept .mon 0 0x040))) :
    exec .go s = .next (s.withDev ((s.stored .mon 0 0x040 (Reg.MON_SEQ_CTRL.GO.put 1 (s.kept .mon 0 0x040))).monCtrl
      (s.dev.get Reg.MON_SEQ_CTRL.TRIG 0) (Reg.MON_SEQ_CTRL.GO.put 1 (s.kept .mon 0 0x040)))) := by
  refine (next_lift_command (f := Reg.MON_SEQ_CTRL.GO.put 1) (by decide) h).trans ?_
  rw [Dev.writeEffect_monSeq, State.stored]

/-- A command that writes a word with GO set to MON_INJ requests an injected conversion. -/
theorem exec_monInj {s : State} (g : Fin 4) (i : Fin 64)
    (h : s.Accepts .mon 0 0x054 (Reg.MON_INJ.GO.put 1 (Reg.MON_INJ.GAIN.put g.val i.val))) :
    exec (.monInj g i) s = .next (s.withDev
      (s.stored .mon 0 0x054 (Reg.MON_INJ.GO.put 1 (Reg.MON_INJ.GAIN.put g.val i.val))).inject) := by
  refine (next_lift_command (f := fun _ => Reg.MON_INJ.GO.put 1 (Reg.MON_INJ.GAIN.put g.val i.val)) (by decide) h).trans ?_
  rw [Dev.writeEffect_monInj, if_pos (Fld.on_put_one rfl _), State.stored]

theorem exec_monTdac {s : State} (on : Bool) (i : Fin 64) (v : Fin 4096)
    (h : s.Accepts .mon 0 0x058 (Reg.MON_TDAC.EN.put (b1 on) (Reg.MON_TDAC.INPUT.put i.val v.val))) :
    exec (.monTdac on i v) s = .next (s.withDev
      (s.stored .mon 0 0x058 (Reg.MON_TDAC.EN.put (b1 on) (Reg.MON_TDAC.INPUT.put i.val v.val))).tdacWritten) := by
  refine (next_lift_command (f := fun _ => Reg.MON_TDAC.EN.put (b1 on) (Reg.MON_TDAC.INPUT.put i.val v.val)) (by decide) h).trans ?_
  rw [Dev.writeEffect_monTdac, State.stored]

/-! ### Conversions (R402, R405) -/

theorem Dev.monPeriod_timer {d : Dev} (h : d.get Reg.MON_SEQ_CTRL.TRIG 0 = 1) :
    let e := d.until (d.mon.trigAt + 1000 * d.get Reg.MON_SEQ_CTRL.PERIOD_US 0)
    d.monPeriod = (e.modMon fun m => { m with trigAt := e.now }).monTrigger := by
  simp only [Dev.monPeriod, if_pos h, us_eq]

/-- The value that a code of the sequence's entry `e` stands for: a temperature's as it was given, a voltage's scaled. -/
def Dev.monValue (d : Dev) (e code scaled : Nat) : Int :=
  if d.seqInput e < 16 then sgn 16 scaled else (d.scaledOf (bitsOf (d.seqWord e 0) 8 2) (trunc 16 code) : Int)

/-- The sums of the sequence's entry with one more conversion. -/
def Dev.monSummed (d : Dev) (code : Nat) (v : Int) : Dev :=
  d.modMon fun m => { m with done := m.done + 1, sum := m.sum + trunc 16 code, sumScaled := m.sumScaled + v }

/-- A conversion of the sequence: the entry converts again until its average is full, and then shows it. -/
theorem Dev.monConverted_sequence {d : Dev} (code scaled : Nat) (h : d.mon.busy = 1) :
    let u := d.until d.mon.endAt
    let e := u.get Reg.MON_STAT.ENTRY 0
    let avg := pow2 (bitsOf (u.seqWord e 0) 16 3)
    let x := u.monSummed code (u.monValue e code scaled)
    d.monConverted code scaled = if d.mon.done + 1 < avg then x.monNext
      else ((x.monResult e (x.mon.sum / avg) (unsgn 16 (x.mon.sumScaled / (avg : Int)))).monAfter e).monNext := by
  have hdone : (d.until d.mon.endAt).mon.done = d.mon.done := congrArg Mon.done (Dev.until_mon _ _)
  have hbusy : (d.until d.mon.endAt).mon.busy = 1 := (congrArg Mon.busy (Dev.until_mon _ _)).trans h
  intro u e avg x
  rw [← hdone]
  simp only [Dev.monConverted, h, true_or, if_true, hbusy]
  rfl

/-- An injected conversion: its code goes to the data register. -/
theorem Dev.monConverted_injected {d : Dev} (code scaled : Nat) (h : d.mon.busy = 2) :
    let u := d.until d.mon.endAt
    let i := u.get Reg.MON_INJ.INPUT 0
    d.monConverted code scaled =
      ((u.setB Reg.MON_INJ.PEND 0 false).putData true (u.mon.tdac == some i) i (trunc 16 code)).monNext := by
  have hbusy : (d.until d.mon.endAt).mon.busy = 2 := (congrArg Mon.busy (Dev.until_mon _ _)).trans h
  simp only [Dev.monConverted, h, or_true, if_true, hbusy]

/-! ### The scrubber, the tracker and the spares (R421 to R425) -/

theorem Dev.scrubVisit_priority {d : Dev} {r w : Nat} (l : List Nat) (h : d.priorityWord = some (r, w)) :
    d.scrubVisit l = (d.wait 1).visitWord r (w * 8) l := by
  simp only [Dev.scrubVisit, h]

/-- A lap still running at its limit is said to be late, once. -/
theorem Dev.lapLate_running {d : Dev} {r t : Nat} (ht : Store.get (fun _ => none) d.ecc.lapAt r = some t)
    (hs : d.ecc.lateSaid.contains r = false) :
    d.lapLate r = ((d.until (t + 1000000000 * d.get Reg.SCB_CTRL.LAP_LIMIT_S 0)).modEcc fun x =>
      { x with lateSaid := r :: x.lateSaid }).raise Ev.lapLate 0 r 0 := by
  simp only [Dev.lapLate, ht, hs, Bool.false_eq_true, if_false, sec_eq]

theorem Dev.trackExpiry_quiet {d : Dev} {r e : Nat} {t : Tracked} (ht : d.tracked r e = some t) (hl : t.lasting = false)
    (hc : t.count < 3) :
    d.trackExpiry r e = (d.until (t.openAt + 1000000000 * d.get Reg.ECC_WINDOW.WINDOW_S 0)).setTracked r e none := by
  have hgo : (t.lasting || decide (3 ≤ t.count)) = false := by simp [hl, hc]
  simp only [Dev.trackExpiry, ht, hgo, Bool.false_eq_true, if_false, sec_eq]

/-- Outside the HDM store the copy into a spare acts on the device alone. -/
theorem State.rowSpared_device {s : State} {r : Nat} (k : Nat) (hs : s.Runs) (hr : r ≠ 8) :
    s.rowSpared r k = s.withDev (s.dev.spared r k).1 := by
  have hruns : s.dev.runs = true := hs
  simp only [State.rowSpared, hruns, Bool.not_true, Bool.false_eq_true, if_false, if_neg hr]
  rfl

/-! ### Injection (R427) -/

theorem Dev.writeEffect_eccInj (d : Dev) (w : Nat) :
    d.writeEffect .ecc 0 0x054 w =
      if Reg.ECC_INJ.GO.on w then
        (d.storeWord .ecc 0 0x054 w).eccInject (Reg.ECC_INJ.REGION.of w) (Reg.ECC_INJ.BITS.of w)
          ((d.storeWord .ecc 0 0x054 w).get Reg.ECC_INJ_ADDR.OFFSET 0)
      else d.storeWord .ecc 0 0x054 w := rfl

/-- REGION and BITS are read from the word that puts both. -/
theorem eccInj_word (r : Fin 16) (b : Fin 4) :
    let w := Reg.ECC_INJ.GO.put 1 (Reg.ECC_INJ.REGION.put r.val (Reg.ECC_INJ.BITS.put b.val 0))
    Reg.ECC_INJ.REGION.of w = r.val ∧ Reg.ECC_INJ.BITS.of w = b.val := by
  revert r b; decide

theorem exec_eccInj {s : State} (r : Fin 16) (b : Fin 4)
    (h : s.Accepts .ecc 0 0x054 (Reg.ECC_INJ.GO.put 1 (Reg.ECC_INJ.REGION.put r.val (Reg.ECC_INJ.BITS.put b.val 0)))) :
    let d := s.stored .ecc 0 0x054 (Reg.ECC_INJ.GO.put 1 (Reg.ECC_INJ.REGION.put r.val (Reg.ECC_INJ.BITS.put b.val 0)))
    exec (.eccInj r b) s = .next (s.withDev (d.eccInject r.val b.val (d.get Reg.ECC_INJ_ADDR.OFFSET 0))) := by
  obtain ⟨hregion, hbits⟩ := eccInj_word r b
  refine (next_lift_command (f := fun _ => Reg.ECC_INJ.GO.put 1 (Reg.ECC_INJ.REGION.put r.val (Reg.ECC_INJ.BITS.put b.val 0)))
    (by decide) h).trans ?_
  rw [Dev.writeEffect_eccInj, if_pos (Fld.on_put_one rfl _), hregion, hbits, State.stored]

end Sys2Proof.Machine
end

section
/-! The statement about the monitor and the scrubber. -/

open Sys2Proof Sys2Proof.Machine

/-- Settles O60: the commands are accepted writes of the monitor's and the injector's registers, and the premises of every other
clause choose the branch of the event's operation. -/
theorem monitorAndScrubberAct : Obligations.MonitorAndScrubberAct := by
  unfold Obligations.MonitorAndScrubberAct
  refine ⟨fun s => ⟨exec_go, fun hs ht => ?period, fun code scaled hs hb => ?sequence, fun code scaled hs hb => ?injected,
      exec_monInj, fun hs hp => ?data, exec_monTdac⟩,
    fun s => ⟨fun l r w hs hw => ?visit, fun r t hs ht hl => ?late, fun r e t hs ht hl hc => ?expiry, fun r k hs hr => ?spared,
      exec_eccInj⟩⟩
  case period => exact exec_of_liftRun hs rfl (Dev.monPeriod_timer ht)
  case sequence => exact exec_of_liftRun hs rfl (Dev.monConverted_sequence code scaled hb)
  case injected => exact exec_of_liftRun hs rfl (Dev.monConverted_injected code scaled hb)
  case data => exact exec_of_lift hs rfl (Dev.pageRead_served 0x048 rfl hp)
  case visit => exact exec_of_liftRun hs rfl (Dev.scrubVisit_priority l hw)
  case late => exact exec_of_liftRun hs rfl (Dev.lapLate_running ht hl)
  case expiry => exact exec_of_liftRun hs rfl (Dev.trackExpiry_quiet ht hl hc)
  case spared => exact congrArg Host.Outcome.next (State.rowSpared_device k.val hs hr)

end

section
/-! Writes of HDM (R420, R439, R442): what a write leaves of the error marks, and what a line's write means byte by byte. -/

namespace Sys2Proof.Machine

/-! ### Error marks of the bytes written (R419, R420) -/

theorem Store.get_clear {α : Type} {dflt : Nat → α} (m : Store α) (p : Nat → Bool) (k : Nat) :
    Store.get dflt (m.clear p) k = if p k then dflt k else Store.get dflt m k := by
  induction m with
  | nil => simp [Store.clear, Store.get]
  | cons e rest ih =>
    obtain ⟨a, v⟩ := e
    unfold Store.clear at ih ⊢
    by_cases ha : a = k
    · subst ha
      cases hp : p a <;> simp [Store.get, hp, ih]
    · cases hp : p a <;> simp [Store.get, hp, ih, ha]

/-- Clearing the marks of one byte leaves every other byte of the region as it is. -/
theorem Dev.badByte_clearBad (d : Dev) (r off a : Nat) :
    (d.clearBad r off 1).badByte r a = if a = off then BadByte.none else d.badByte r a := by
  simp only [Dev.clearBad, Dev.modEcc, Dev.badByte, Store.get_clear]
  refine if_congr ?_ rfl rfl
  rw [Bool.and_eq_true, decide_eq_true_eq, decide_eq_true_eq]
  unfold byteKey
  omega

/-- A byte that a write names, in an area that takes writes, has no error afterwards; every other byte keeps its mark. -/
theorem State.hdmWrite_badByte (l : List (Option Byte)) : ∀ (s : State) (off a : Nat),
    (s.hdmWrite off l).dev.badByte 8 a =
      if off ≤ a ∧ hdmWritable a = true ∧ (l.getD (a - off) none).isSome = true then BadByte.none else s.dev.badByte 8 a := by
  induction l with
  | nil => intro s off a; simp [State.hdmWrite]
  | cons b rest ih =>
    intro s off a
    have hrest (he : off < a) : (b :: rest).getD (a - off) none = rest.getD (a - (off + 1)) none := by
      rw [show a - off = a - (off + 1) + 1 by omega, List.getD_cons_succ]
    have hskip (t : State) (ht : t.dev.badByte 8 a = s.dev.badByte 8 a)
        (hb : off = a → (hdmWritable a = true ∧ b.isSome = true) → False) :
        (t.hdmWrite (off + 1) rest).dev.badByte 8 a =
          if off ≤ a ∧ hdmWritable a = true ∧ ((b :: rest).getD (a - off) none).isSome = true then BadByte.none
          else s.dev.badByte 8 a := by
      rw [ih, ht]
      rcases Nat.lt_trichotomy off a with hlt | rfl | hgt
      · simp only [hrest hlt, Nat.succ_le_of_lt hlt, Nat.le_of_lt hlt]
      · rw [if_neg (by omega), if_neg]
        rintro ⟨-, hw, hsome⟩
        rw [Nat.sub_self, List.getD_cons_zero] at hsome
        exact hb rfl ⟨hw, hsome⟩
      · rw [if_neg (by omega), if_neg (by omega)]
    cases b with
    | none => exact hskip s rfl fun _ h => absurd h.2 Bool.false_ne_true
    | some b =>
      unfold State.hdmWrite
      split
      · rename_i hw
        by_cases ha : a = off
        · subst ha
          rw [ih, if_neg (by omega), if_pos ⟨Nat.le_refl _, hw, by rw [Nat.sub_self]; rfl⟩]
          exact (Dev.badByte_clearBad _ _ _ _).trans (if_pos rfl)
        · exact hskip _ ((Dev.badByte_clearBad _ _ _ _).trans (if_neg ha)) fun h => absurd h.symm ha
      · rename_i hw
        exact hskip s rfl fun h hb => hw (h ▸ hb.1)

/-! ### Bytes of HDM -/

/-- A byte of an area that takes writes is the stored byte. -/
theorem State.hdmByte_writable (s : State) {off : Nat} (h : hdmWritable off = true) :
    s.hdmByte off = (Store.get memReset s.mem off).toNat := by
  simp only [hdmWritable, Bool.and_eq_true, decide_eq_true_eq] at h
  obtain ⟨hlo, hhi⟩ := h
  simp only [State.hdmByte]
  rw [if_neg (by omega), if_neg (by omega), if_neg (by omega), if_neg (by omega), if_neg (by omega), if_neg (by omega), if_pos hhi]

/-- What a byte of HDM reads as does not depend on the record of errors. -/
theorem State.hdmByte_congr {s t : State} {off : Nat} {x : Ecc} (hd : t.dev = { s.dev with ecc := x })
    (hm : Store.get memReset t.mem off = Store.get memReset s.mem off) : t.hdmByte off = s.hdmByte off := by
  simp only [State.hdmByte, hd, hm]
  rfl

/-- The bytes that a line's write names. -/
def lineBytes (enables : Nat) (bytes : List Byte) : List (Option Byte) :=
  (List.range 64).map fun i => if bitOf enables i then some (bytes.getD i 0) else none

theorem lineBytes_getD (enables : Nat) (bytes : List Byte) {i : Nat} (h : i < 64) :
    (lineBytes enables bytes).getD i none = if bitOf enables i then some (bytes.getD i 0) else none := by
  simp [lineBytes, List.getD_eq_getElem?_getD, h]

theorem lineBytes_getD_past (enables : Nat) (bytes : List Byte) {i : Nat} (h : 64 ≤ i) :
    (lineBytes enables bytes).getD i none = none := by
  simp [lineBytes, List.getD_eq_getElem?_getD, h]

/-! ### A write of a line (R420, R439, R442) -/

/-- Where HDM is served and active, a line's write writes the bytes that it names. -/
theorem State.lineWrite_served {s : State} {addr : Nat} (en : Nat) (b : List Byte) (hl : s.Live) (hs : s.dev.memServed = true)
    (ha : s.dev.host.active = true) (h : addr < 0x2000000) :
    s.lineWrite addr en b = s.hdmWrite (addr / 64 * 64) (lineBytes en b) := by
  have hlive : s.dev.power.inReset = false := hl
  refine if_neg ?_
  simp only [hlive, hs, ha, Bool.not_true, Bool.or_self, Bool.false_or, decide_eq_true_eq]
  omega

/-- An area that takes no write: bytes written to it are discarded. -/
theorem State.hdmWrite_discarded (l : List (Option Byte)) : ∀ (s : State) (off : Nat),
    (∀ a, off ≤ a → a < off + l.length → hdmWritable a = false) → s.hdmWrite off l = s := by
  induction l with
  | nil => intro s off _; rfl
  | cons b rest ih =>
    intro s off h
    have hrest : s.hdmWrite (off + 1) rest = s := ih s (off + 1) fun a h1 h2 => h a (by omega) (by rw [List.length_cons]; omega)
    have hhead : hdmWritable off = false := h off (Nat.le_refl _) (by rw [List.length_cons]; omega)
    cases b with
    | none => exact hrest
    | some b => rw [State.hdmWrite, hhead]; exact hrest

theorem State.lineWrite_discarded {s : State} {addr : Nat} (en : Nat) (b : List Byte)
    (h : s.dev.memServed = false ∨ s.dev.host.active = false ∨ addr < 0x1000000 ∨ 0x1F00000 ≤ addr) :
    s.lineWrite addr en b = s := by
  simp only [State.lineWrite]
  split
  · rfl
  · rename_i hgo
    simp only [Bool.or_eq_true, Bool.not_eq_true', decide_eq_true_eq, not_or, Bool.not_eq_false] at hgo
    obtain ⟨⟨⟨-, hserved⟩, hactive⟩, -⟩ := hgo
    have haddr : addr < 0x1000000 ∨ 0x1F00000 ≤ addr := by simpa [hserved, hactive] using h
    refine State.hdmWrite_discarded _ s _ fun a h1 h2 => ?_
    rw [List.length_map, List.length_range] at h2
    simp only [hdmWritable, Bool.and_eq_false_iff, decide_eq_false_iff_not]
    omega

/-- A line that lies in the area that takes writes lies wholly in it. -/
theorem hdmWritable_line {addr a : Nat} (h1 : 0x1000000 ≤ addr) (h2 : addr < 0x1F00000) (ha : addr / 64 * 64 ≤ a)
    (hb : a < addr / 64 * 64 + 64) : hdmWritable a = true := by
  simp only [hdmWritable, Bool.and_eq_true, decide_eq_true_eq]
  omega

section
variable {s : State} {addr : Nat} (en : Nat) (b : List Byte)

theorem State.hdmWrite_line_hdmByte (h1 : 0x1000000 ≤ addr) (h2 : addr < 0x1F00000) (off : Nat) :
    (s.hdmWrite (addr / 64 * 64) (lineBytes en b)).hdmByte off =
      if addr / 64 * 64 ≤ off ∧ off < addr / 64 * 64 + 64 ∧ bitOf en (off - addr / 64 * 64) = true then
        (b.getD (off - addr / 64 * 64) 0).toNat
      else s.hdmByte off := by
  obtain ⟨x, hx⟩ := State.hdmWrite_dev (lineBytes en b) s (addr / 64 * 64)
  have hget := State.hdmWrite_get (lineBytes en b) s (addr / 64 * 64) off
  have hlen : (lineBytes en b).length = 64 := by simp [lineBytes]
  rw [hlen] at hget
  by_cases hin : addr / 64 * 64 ≤ off ∧ off < addr / 64 * 64 + 64
  · obtain ⟨hlo, hhi⟩ := hin
    have hw := hdmWritable_line h1 h2 hlo hhi
    rw [if_pos ⟨hlo, hhi, hw⟩, lineBytes_getD en b (by omega)] at hget
    cases hbit : bitOf en (off - addr / 64 * 64) with
    | true =>
      rw [if_pos ⟨hlo, hhi, rfl⟩, State.hdmByte_writable _ hw, hget, hbit]
      rfl
    | false =>
      rw [if_neg (by simp)]
      refine State.hdmByte_congr hx ?_
      rw [hget, hbit]
      rfl
  · rw [if_neg fun h => hin ⟨h.1, h.2.1⟩] at hget ⊢
    exact State.hdmByte_congr hx hget

theorem State.hdmWrite_line_badByte (h1 : 0x1000000 ≤ addr) (h2 : addr < 0x1F00000) (off : Nat) :
    (s.hdmWrite (addr / 64 * 64) (lineBytes en b)).dev.badByte 8 off =
      if addr / 64 * 64 ≤ off ∧ off < addr / 64 * 64 + 64 ∧ bitOf en (off - addr / 64 * 64) = true then BadByte.none
      else s.dev.badByte 8 off := by
  rw [State.hdmWrite_badByte]
  refine if_congr (and_congr_right fun hlo => ?_) rfl rfl
  by_cases hhi : off < addr / 64 * 64 + 64
  · have hw := hdmWritable_line h1 h2 hlo hhi
    rw [lineBytes_getD en b (by omega)]
    cases bitOf en (off - addr / 64 * 64) <;> simp [hw, hhi]
  · rw [lineBytes_getD_past en b (by omega)]
    simp [hhi]

end

/-! ### The zeroing (R439) -/

theorem State.zeroDone_sealed {s : State} (hl : s.Live) (hs : s.dev.flag Reg.CHIP_SEAL.SEALED 0 = true) (hz : s.dev.host.zeroed = false) :
    s.zeroDone = { s with mem := [], dev := { s.dev with host := { s.dev.host with zeroed := true, active := true } } } := by
  have hlive : s.dev.power.inReset = false := hl
  exact if_neg (by simp [hlive, hs, hz])

theorem State.zeroDone_refused {s : State} (h : s.dev.flag Reg.CHIP_SEAL.SEALED 0 = false ∨ s.dev.host.zeroed = true) :
    s.zeroDone = s := if_pos (by obtain h | h := h <;> simp [h])

/-- A CXL.mem write within the range that the device claims is a write of its line. -/
theorem exec_cxlMemWrite {s : State} {addr : Nat} (en : BitVec 64) (b : List Byte) (h : addr < s.dev.memSize) :
    exec (.cxlMemWrite addr en b) s = .next (s.lineWrite addr en.toNat b) := if_pos (decide_eq_true h)

end Sys2Proof.Machine
end

section
/-! The statements about writes of HDM. -/

open Sys2Proof Sys2Proof.Machine

/-- Settles O9: the line lies wholly in an area that takes writes, and the write is followed byte by byte. -/
theorem lineWriteStoresEnabledBytes : Obligations.LineWriteStoresEnabledBytes := by
  unfold Obligations.LineWriteStoresEnabledBytes
  intro s addr en b hlive hsize hserved hactive _ hlo hhi
  rw [exec_cxlMemWrite en b hsize, State.lineWrite_served en.toNat b hlive hserved hactive (by omega)]
  exact ⟨_, rfl, State.hdmWrite_pending _ _ _, State.hdmWrite_line_hdmByte en.toNat b hlo hhi,
    fun off _ => State.hdmWrite_line_badByte en.toNat b hlo hhi off, State.hdmWrite_dev _ _ _⟩

/-- Settles O10: such a write names no byte that takes it, and the zeroing acts under its two conditions alone. -/
theorem hdmWritesDiscardedOrZeroed : Obligations.HdmWritesDiscardedOrZeroed := by
  unfold Obligations.HdmWritesDiscardedOrZeroed
  refine ⟨fun s addr en b hsize h => ?discarded, fun s hlive => ⟨fun hseal hzeroed => ?zeroed, fun h => ?refused⟩⟩
  case discarded => rw [exec_cxlMemWrite en b hsize, State.lineWrite_discarded _ _ h]
  case zeroed => exact congrArg Host.Outcome.next (State.zeroDone_sealed hlive hseal hzeroed)
  case refused => exact congrArg Host.Outcome.next (State.zeroDone_refused h)

end

section
/-! Fences and counted accesses (R447, R448, R454): reads that latch nothing, the fence's record, and the count of bad accesses. -/

namespace Sys2Proof.Machine

/-! ### Reads of a register that latches nothing (R448) -/

/-- A read of a register of a page that answers, which is no window and latches nothing, shows its word and changes nothing else. -/
theorem Dev.pageRead_shown {d : Dev} {k : PageKind} {i p off : Nat} (hd : decodePage p = some (k, i)) (hs : d.pageServed p = true)
    (hl : latches k off = false) (hq : ¬(k = .evq ∧ off = 0x60)) (hm : ¬(k = .mon ∧ off = 0x48)) :
    d.pageRead p off = { d with readData := [d.shownWord k i off] } := by
  rw [Dev.pageRead_served off hd hs, Dev.readWord_of_not_window _ _ hq hm, hl]
  rfl

/-- FENCE latches nothing on any page. -/
theorem latches_fence (k : PageKind) : latches k 0x1C = false := by cases k <;> rfl

/-- Page 0 answers always, in BOOT_WAIT and in FUSE_FAULT too (R370, R435). -/
theorem Dev.pageServed_zero (d : Dev) : d.pageServed 0 = true := by
  simp [Dev.pageServed, decodePage]

/-! ### The fence (R454) -/

/-- A write of `GLOBAL_FENCE` is checked for nothing. -/
theorem Dev.pageWrite_fence (d : Dev) (v : Nat) : d.pageWrite 0 0x80 v = d.fence := by
  have hdecode : decodePage 0 = some (.chip0, 0) := by decide
  simp [Dev.pageWrite, hdecode, d.pageServed_zero]

theorem Dev.fence_gnum (d : Dev) : d.fence.get Reg.GLOBAL_FENCE.GNUM 0 = d.gnum % 65536 := by
  rw [Dev.fence, Dev.get_set_ne _ _ (by decide), Dev.get_set_same]
  rfl

theorem Dev.fence_toEdge (d : Dev) : d.fence.get Reg.GLOBAL_FENCE.TO_EDGE_NS 0 =
    if d.locked then min 20480 (d.galleyFrom (d.now + 1) - d.now) else 0 := by
  have hcap (v : Nat) : trunc 16 (capN 20480 v) = min 20480 v := by
    have hle := capN_le 20480 v
    have htrunc : trunc 16 (capN 20480 v) = capN 20480 v := Nat.mod_eq_of_lt (Nat.lt_of_le_of_lt hle (by decide))
    rw [htrunc, capN]
    split <;> omega
  rw [Dev.fence, Dev.get_set_same]
  refine (hcap _).trans ?_
  split
  · rfl
  · exact Nat.min_zero _

/-! ### Bad accesses (R447) -/

/-- What a bad access answers: all ones in each byte of a read, nothing of a write. -/
def Dev.badAnswered (d : Dev) (read : Bool) (bytes : Nat) : Dev :=
  if read then { d with readData := List.replicate bytes 0xFF } else d

/-- The event of a bad access, raised at most once per second. -/
def Dev.badRaised (d : Dev) : Dev :=
  if since d.host.badAt d.now (sec 1) then
    ({ d with host := { d.host with badAt := some d.now } } : Dev).raise Ev.badAccess 0 0 0
  else d

theorem Dev.badAccess_eq (d : Dev) (read : Bool) (bytes : Nat) :
    d.badAccess read bytes = ((d.bump Reg.CXL_BAD_ACCESS.COUNT 0).badAnswered read bytes).badRaised := rfl

/-- The answer alone is new, beside the count. -/
theorem Dev.badAnswered_eq (d : Dev) (read : Bool) (bytes : Nat) :
    d.badAnswered read bytes = { d with readData := if read then List.replicate bytes 0xFF else d.readData } := by
  cases read <;> rfl

/-- Beside the moment of the last report, the report changes what an event changes. -/
theorem Dev.badRaised_eventsOnly (d : Dev) : ∃ h, Dev.EventsOnly { d with host := h } d.badRaised := by
  unfold Dev.badRaised
  split
  · exact ⟨_, Dev.eventsOnly_raise _ _ _ _ _⟩
  · exact ⟨d.host, .refl d⟩

/-- A change that starts from another answer and another host state leaves the rest as the original has it. -/
theorem Dev.FieldsOnly.restore_answer {p : Nat → Bool} {d e : Dev} {l : List Nat} {h : HostSide}
    (hf : Dev.FieldsOnly p { d with readData := l, host := h } e) :
    d.FieldsOnly p { e with readData := d.readData, host := d.host } := by
  obtain ⟨hrest, hregs⟩ := hf
  exact ⟨congrArg (fun x : Dev => { x with readData := d.readData, host := d.host }) hrest, hregs⟩

end Sys2Proof.Machine
end

section
/-! The statements about fences and bad accesses. -/

open Sys2Proof Sys2Proof.Machine

/-- Settles O17: neither register latches anything, and a write of the fence is carried out whatever its word. -/
theorem fencesAnswer : Obligations.FencesAnswer := by
  unfold Obligations.FencesAnswer
  intro s hlive
  refine ⟨fun k i p _ hd hs => ?page, ?global, fun v => ?write⟩
  case page => exact exec_of_lift hlive rfl (Dev.pageRead_shown hd hs (latches_fence k) (by simp) (by simp))
  case global =>
    exact exec_of_lift hlive rfl
      (Dev.pageRead_shown (by decide) (Dev.pageServed_zero _) (by decide) (by simp) (by simp))
  case write =>
    exact ⟨_, exec_of_lift hlive rfl (Dev.pageWrite_fence _ _), Dev.fence_gnum _, Dev.fence_toEdge _, rfl⟩

/-- Settles O19: the count is one field, and the report is an event. -/
theorem badAccessCounted : Obligations.BadAccessCounted := by
  unfold Obligations.BadAccessCounted
  intro s rd len hlive
  obtain ⟨h, hevents⟩ := (((s.dev.bump Reg.CXL_BAD_ACCESS.COUNT 0).badAnswered rd len)).badRaised_eventsOnly
  rw [Dev.badAnswered_eq] at hevents
  have hcount : (Reg.CXL_BAD_ACCESS.COUNT).KeptByEvents := by decide
  refine ⟨_, exec_of_lift hlive rfl ((Dev.badAccess_eq _ _ _).trans (congrArg _ (Dev.badAnswered_eq _ _ _))), ?_, ?_, ?_, rfl, rfl⟩
  · exact (hevents.get (hcount.evKey_eq_false 0)).trans (Dev.get_bump_same _ _ _)
  · exact congrArg Dev.readData hevents.1
  · refine Dev.FieldsOnly.restore_answer (l := if rd then List.replicate len 0xFF else s.dev.readData) (h := h) ?_
    exact (Dev.fieldsOnly_set (i := 0) _ _ (keysOf_key 0 (List.mem_singleton_self _))).trans (hevents.fieldsOnly _)

end

section
/-! The CXL link (R432, R434, R439, R478): what link-up shows, and what every CXL reset clears. -/

namespace Sys2Proof.Machine

/-! ### Link-up (R432, R434) -/

/-- What CXL_LINK_STAT shows once the link is up: the mode, the width and the rate. -/
def Dev.linkShown (d : Dev) (cxl : Bool) (width rate : Nat) : Dev :=
  (((d.setB Reg.CXL_LINK_STAT.UP 0 true).setB Reg.CXL_LINK_STAT.CXL 0 (cxl && !(cxl && decide (rate < 3)))).set
    Reg.CXL_LINK_STAT.WIDTH 0 width).set Reg.CXL_LINK_STAT.RATE 0 rate

theorem Dev.linkShown_up (d : Dev) (cxl : Bool) (width rate : Nat) :
    (d.linkShown cxl width rate).flag Reg.CXL_LINK_STAT.UP 0 = true := by
  rw [Dev.linkShown, Dev.flag_set_ne _ _ (by decide), Dev.flag_set_ne _ _ (by decide), Dev.setB, Dev.flag_set_ne _ _ (by decide),
    Dev.flag_setB_same _ (by decide)]

theorem Dev.linkShown_cxl (d : Dev) (cxl : Bool) (width rate : Nat) :
    (d.linkShown cxl width rate).flag Reg.CXL_LINK_STAT.CXL 0 = (cxl && decide (3 ≤ rate)) := by
  rw [Dev.linkShown, Dev.flag_set_ne _ _ (by decide), Dev.flag_set_ne _ _ (by decide), Dev.flag_setB_same _ (by decide)]
  have hrate : decide (rate < 3) = !decide (3 ≤ rate) := by
    rw [← decide_not]
    exact decide_eq_decide.2 Nat.not_le.symm
  rw [hrate]
  cases cxl <;> simp

theorem Dev.linkShown_width (d : Dev) (cxl : Bool) (width rate : Nat) :
    (d.linkShown cxl width rate).get Reg.CXL_LINK_STAT.WIDTH 0 = width % 16 := by
  rw [Dev.linkShown, Dev.get_set_ne _ _ (by decide), Dev.get_set_same]
  rfl

theorem Dev.linkShown_rate (d : Dev) (cxl : Bool) (width rate : Nat) :
    (d.linkShown cxl width rate).get Reg.CXL_LINK_STAT.RATE 0 = rate % 8 := Dev.get_set_same _ _ _ _

/-- The device at link-up, before `CXL:LINK`: a link in CXL mode below 8 GT/s has retrained. -/
def Dev.linkedUp (d : Dev) (cxl : Bool) (width rate : Nat) : Dev :=
  let e := (onlyIf (cxl && decide (rate < 3)) (fun d => d.bump Reg.CXL_LINK_CNT.RETRAIN 0) d).linkShown cxl width rate
  { e with host := { e.host with active := e.host.zeroed } }

theorem Dev.linkUp_down {d : Dev} (cxl : Bool) (width rate : Nat) (h : d.flag Reg.CXL_LINK_STAT.UP 0 = false) :
    d.linkUp cxl width rate = (d.linkedUp cxl width rate).raise Ev.link 0 0 (linkCode true width rate) :=
  if_neg (by simp [h])

theorem Dev.linkedUp_active (d : Dev) (cxl : Bool) (width rate : Nat) :
    (d.linkedUp cxl width rate).host.active = d.host.zeroed :=
  apply_onlyIf (fun e : Dev => e.host.zeroed) (cxl && decide (rate < 3)) rfl

/-! ### CXL resets (R477, R478) -/

/-- Two devices that differ at most in register fields. -/
def Dev.FieldsDiffer (d e : Dev) : Prop := e = { d with regs := e.regs }

theorem Dev.FieldsDiffer.trans {a b c : Dev} (h : a.FieldsDiffer b) (g : b.FieldsDiffer c) : a.FieldsDiffer c := by
  unfold Dev.FieldsDiffer at *
  rw [h] at g
  exact g

theorem Dev.fieldsDiffer_set (d : Dev) (f : Fld) (i v : Nat) : d.FieldsDiffer (d.set f i v) := rfl

theorem Dev.FieldsDiffer.over {f : Nat → Dev → Dev} (h : ∀ n d, Dev.FieldsDiffer d (f n d)) (l : List Nat) :
    ∀ d : Dev, d.FieldsDiffer (d.over l f) := by
  induction l with
  | nil => exact fun _ => rfl
  | cons n l ih => exact fun d => (h n d).trans (ih (f n d))

/-- One DMA channel at a CXL reset: it halts with cause HOST if it works, and what is posted is discarded (R478). -/
def Dev.dmaCut (c : Nat) (d : Dev) : Dev :=
  let head := d.getJ Reg.DMA_RING.HEAD 0 c
  let d := if d.getJ Reg.DMA_STAT.RUN 0 c = 1 ∨ head ≠ d.getJ Reg.DMA_RING.TAIL 0 c then
      ((((d.setJ Reg.DMA_STAT.HALT 0 c 1).setJ Reg.DMA_STAT.RUN 0 c 0).setJ Reg.DMA_STAT.CAUSE 0 c 2).setJ Reg.DMA_STAT.CODE 0 c 0).setJ
        Reg.DMA_STAT.INDEX 0 c head
    else d
  d.setJ Reg.DMA_RING.HEAD 0 c (d.getJ Reg.DMA_RING.TAIL 0 c)

theorem Dev.dmaCut_fieldsDiffer (c : Nat) (d : Dev) : d.FieldsDiffer (d.dmaCut c) := by
  simp only [Dev.dmaCut]
  split <;> rfl

/-- The state of the link's protocol as a CXL reset leaves it. -/
def Dev.protocolCleared (d : Dev) : Dev :=
  { d with msix := []
           host := { d.host with active := false, decoder := false, doeBusy := false, doeError := false, doeResp := none, moved := [] } }

/-- The link's own status as a CXL reset leaves it. -/
def Dev.linkCleared (d : Dev) : Dev :=
  ((((d.bump Reg.CHIP_RST_CNT.CXL 0).protocolCleared).setB Reg.CXL_LINK_STAT.UP 0 false).set Reg.CXL_LINK_STAT.WIDTH 0 0).set
    Reg.CXL_LINK_STAT.RATE 0 0

theorem Dev.cxlReset_eq (d : Dev) : d.cxlReset = d.linkCleared.over (List.range 16) Dev.dmaCut := by
  unfold Dev.cxlReset Dev.linkCleared Dev.protocolCleared Dev.dmaCut
  rfl

/-- A CXL reset clears the protocol's state; the rest of what it does is in register fields. -/
theorem Dev.cxlReset_fieldsDiffer (d : Dev) : d.protocolCleared.FieldsDiffer d.cxlReset := by
  have hcount : d.protocolCleared.FieldsDiffer (d.bump Reg.CHIP_RST_CNT.CXL 0).protocolCleared := rfl
  have hlink : d.protocolCleared.FieldsDiffer d.linkCleared :=
    ((hcount.trans (Dev.fieldsDiffer_set _ _ _ _)).trans (Dev.fieldsDiffer_set _ _ _ _)).trans (Dev.fieldsDiffer_set _ _ _ _)
  rw [Dev.cxlReset_eq]
  exact hlink.trans (Dev.FieldsDiffer.over Dev.dmaCut_fieldsDiffer _ _)

theorem Dev.linkExit_eventsOnly (d : Dev) : d.EventsOnly d.linkExit := by
  unfold Dev.linkExit
  split
  · exact Dev.eventsOnly_raise _ _ _ _ _
  · exact .refl d

/-- What the link has no part in stands through a reset of the link (R478). -/
theorem Dev.cxlSource_keeps {α : Type} (p : Dev → α) (hr : ∀ d x, p { d with regs := x } = p d)
    (hp : ∀ d : Dev, p d.protocolCleared = p d) (he : ∀ d e : Dev, d.EventsOnly e → p e = p d) (d : Dev) : p d.cxlSource = p d := by
  rw [Dev.cxlSource, d.linkExit.cxlReset_fieldsDiffer, hr, hp]
  exact he _ _ d.linkExit_eventsOnly

end Sys2Proof.Machine
end

section
/-! The statement about the CXL link. -/

open Sys2Proof Sys2Proof.Machine

/-- Settles O20: link-up writes CXL_LINK_STAT and raises an event, which leaves it alone; a link-down and a CXL reset end in
`Dev.cxlReset`. -/
theorem linkChanges : Obligations.LinkChanges := by
  unfold Obligations.LinkChanges
  intro s hlive
  refine ⟨fun cxl width rate hdown => ?up, fun hup => ?down, ?reset⟩
  case up =>
    have hraise := (s.dev.linkedUp cxl width rate).eventsOnly_raise Ev.link 0 0 (linkCode true width rate)
    refine ⟨_, exec_of_lift hlive rfl (Dev.linkUp_down cxl width rate hdown), ?_, ?_, ?_, ?_, ?_⟩
    · exact (hraise.flag (by decide)).trans (Dev.linkShown_up _ _ _ _)
    · exact (hraise.flag (by decide)).trans (Dev.linkShown_cxl _ _ _ _)
    · exact (hraise.get (by decide)).trans (Dev.linkShown_width _ _ _ _)
    · exact (hraise.get (by decide)).trans (Dev.linkShown_rate _ _ _ _)
    · exact (congrArg (fun e : Dev => e.host.active) hraise.1).trans (Dev.linkedUp_active _ _ _ _)
  case down => exact exec_of_lift hlive rfl (if_pos hup)
  case reset =>
    have hcut := s.dev.linkExit.cxlReset_fieldsDiffer
    refine ⟨s.withDev s.dev.cxlSource, exec_of_lift hlive rfl rfl, ?_, ?_, ?_, ?_, ?_, ?_, State.withDev_mem _ _⟩
    · exact congrArg (fun e : Dev => e.host.active) hcut
    · exact congrArg (fun e : Dev => e.host.decoder) hcut
    · exact congrArg (fun e : Dev => e.host.doeResp) hcut
    · exact Dev.cxlSource_keeps Dev.les (fun _ _ => rfl) (fun _ => rfl) (fun _ _ h => (congrArg Dev.les h.1 :)) _
    · exact Dev.cxlSource_keeps Dev.fmx (fun _ _ => rfl) (fun _ => rfl) (fun _ _ h => (congrArg Dev.fmx h.1 :)) _
    · exact Dev.cxlSource_keeps Dev.grps (fun _ _ => rfl) (fun _ => rfl) (fun _ _ h => (congrArg Dev.grps h.1 :)) _

end

section
/-! AVSBus and the die temperature (R494, R496, R497, R500): what a good and a failed transaction leave, and the hot state. -/

namespace Sys2Proof.Machine

/-! ### Good and failed transactions (R494, R497) -/

/-- Where no fault stands, a good transaction ends the tries; it ends a fault with an event. -/
theorem Dev.avsGood_power (d : Dev) : d.avsGood.power =
    { d.power with avsTries := 0, avsWrite := d.flag Reg.CHIP_AVS_STAT.FAULT 0 || d.power.avsWrite } := by
  cases hf : d.flag Reg.CHIP_AVS_STAT.FAULT 0 <;> simp [Dev.avsGood, hf]

theorem Dev.avsGood_fault (d : Dev) : d.avsGood.flag Reg.CHIP_AVS_STAT.FAULT 0 = false := by
  simp only [Dev.avsGood]
  split
  · rw [Dev.raise_flag _ _ _ _ _ _ (by decide), Dev.modPower_flag, Dev.flag_setB_same _ (by decide)]
  · rename_i hf
    exact Bool.eq_false_iff.2 hf

/-- Beside FAULT, a good transaction leaves every field that events leave. -/
theorem Dev.avsGood_get (d : Dev) {f : Fld} {i : Nat} (hk : f.KeptByEvents)
    (hf : f.key i 0 ≠ Reg.CHIP_AVS_STAT.FAULT.key 0 0) : d.avsGood.get f i = d.get f i := by
  simp only [Dev.avsGood]
  split
  · rw [Dev.raise_get _ _ _ _ _ _ hk, Dev.modPower_get, Dev.setB, Dev.get_set_ne _ _ hf, Dev.modPower_get]
  · rfl

/-- The fields of an acknowledged target write. -/
theorem Dev.avsAck_power {d : Dev} (h : d.power.avsWrite = true) :
    d.avsAck.power = { d.power with
      avsTries := 0
      avsWrite := d.flag Reg.CHIP_AVS_STAT.FAULT 0
      uvRef := min d.power.avsSent (d.get Reg.CHIP_VCORE_NOW.TARGET_MV 0)
      ovRef := max d.power.avsSent (d.get Reg.CHIP_VCORE_NOW.TARGET_MV 0)
      avsWindow := some (d.now + us 200)
      avsSent := d.get Reg.CHIP_VCORE_NOW.TARGET_MV 0 } := by
  simp [Dev.avsAck, h, Dev.avsGood_power]

theorem Dev.avsWindowEnd_open {d : Dev} {e : Nat} (h : d.power.avsWindow = some e) :
    d.avsWindowEnd = (d.until e).modPower fun p => { p with avsWindow := none, uvRef := p.avsSent, ovRef := p.avsSent } := by
  simp only [Dev.avsWindowEnd, h]

/-- A failed transaction as it is counted. -/
def Dev.avsCounted (d : Dev) : Dev :=
  (d.bump Reg.CHIP_AVS_ERR.ERRORS 0).modPower fun p => { p with avsTries := p.avsTries + 1 }

theorem Dev.avsCounted_fault (d : Dev) : d.avsCounted.flag Reg.CHIP_AVS_STAT.FAULT 0 = d.flag Reg.CHIP_AVS_STAT.FAULT 0 :=
  Dev.flag_set_ne _ _ (by decide)

/-- The fourth failure in a row is the fault, where none stands. -/
theorem Dev.avsFailed_eq (d : Dev) : d.avsFailed =
    onlyIf (d.power.avsTries == 3 && !d.flag Reg.CHIP_AVS_STAT.FAULT 0)
      (fun e => (e.setB Reg.CHIP_AVS_STAT.FAULT 0 true).raise Ev.avsFault 0 0 1) d.avsCounted := by
  have hcond : (decide (d.avsCounted.power.avsTries = 4) && !d.avsCounted.flag Reg.CHIP_AVS_STAT.FAULT 0) =
      (d.power.avsTries == 3 && !d.flag Reg.CHIP_AVS_STAT.FAULT 0) := by
    have htries : decide (d.power.avsTries + 1 = 4) = (d.power.avsTries == 3) := decide_eq_decide.2 Nat.succ_inj
    rw [Dev.avsCounted_fault, ← htries]
    rfl
  rw [← hcond]
  rfl

theorem Dev.avsFailed_tries (d : Dev) : d.avsFailed.power.avsTries = d.power.avsTries + 1 := by
  rw [Dev.avsFailed_eq, apply_onlyIf (fun e : Dev => e.power.avsTries) _ (by simp)]
  rfl

theorem Dev.avsFailed_errors (d : Dev) : d.avsFailed.get Reg.CHIP_AVS_ERR.ERRORS 0 =
    capN 0xFFFF (d.get Reg.CHIP_AVS_ERR.ERRORS 0 + 1) := by
  rw [Dev.avsFailed_eq, apply_onlyIf (fun e : Dev => e.get Reg.CHIP_AVS_ERR.ERRORS 0) _
    ((Dev.raise_get _ _ _ _ _ _ (by decide)).trans (Dev.get_set_ne _ _ (by decide)))]
  exact Dev.get_bump_same _ _ _

theorem Dev.avsFailed_fault (d : Dev) : d.avsFailed.flag Reg.CHIP_AVS_STAT.FAULT 0 =
    (d.flag Reg.CHIP_AVS_STAT.FAULT 0 || d.power.avsTries == 3) := by
  rw [Dev.avsFailed_eq, onlyIf]
  split
  · rename_i hfault
    rw [Dev.raise_flag _ _ _ _ _ _ (by decide), Dev.flag_setB_same _ (by decide), ((Bool.and_eq_true _ _).mp hfault).1, Bool.or_true]
  · rename_i hnone
    rw [Dev.avsCounted_fault]
    revert hnone
    cases d.flag Reg.CHIP_AVS_STAT.FAULT 0 <;> cases d.power.avsTries == 3 <;> simp

/-! ### The read-back (R496) -/

/-- A read-back shown and judged. -/
def Dev.readbackShown (d : Dev) (mv : Nat) : Dev := (d.set Reg.CHIP_AVS_STAT.READ_MV 0 mv).judgeApplied

theorem Dev.readbackShown_readMv (d : Dev) {mv : Nat} (h : mv < 1024) :
    (d.readbackShown mv).get Reg.CHIP_AVS_STAT.READ_MV 0 = mv := by
  rw [Dev.readbackShown, Dev.judgeApplied_get_ne _ (by decide), Dev.get_set_same]
  exact Nat.mod_eq_of_lt (Nat.lt_trans h (by decide))

theorem Dev.readbackShown_applied (d : Dev) {mv : Nat} (h : mv < 1024) :
    (d.readbackShown mv).flag Reg.CHIP_AVS_STAT.APPLIED 0 = true ↔
      d.get Reg.CHIP_VCORE_NOW.TARGET_MV 0 ≤ mv + 10 ∧ mv ≤ d.get Reg.CHIP_VCORE_NOW.TARGET_MV 0 + 10 := by
  have hshown : trunc Reg.CHIP_AVS_STAT.READ_MV.width mv = mv := Nat.mod_eq_of_lt (Nat.lt_trans h (by decide))
  rw [Dev.readbackShown, Dev.judgeApplied, Dev.flag_setB_same _ (by decide), Dev.get_set_same, hshown, Dev.get_set_ne _ _ (by decide),
    Bool.and_eq_true, decide_eq_true_eq, decide_eq_true_eq]

/-! ### The die temperature (R500, R507) -/

/-- A value that sixteen bits hold is read back from its pattern. -/
theorem sgn_unsgn {v : Int} (hlo : -32768 ≤ v) (hhi : v ≤ 32767) : sgn 16 (unsgn 16 v) = v := by
  have hpow : pow2 16 = 65536 := rfl
  have hhalf : pow2 15 = 32768 := rfl
  simp only [sgn, unsgn, trunc, hpow, hhalf, Nat.add_one_sub_one]
  split <;> omega

theorem sgn_trunc (w v : Nat) : sgn w (trunc w v) = sgn w v := by
  have htrunc : trunc w (trunc w v) = trunc w v := Nat.mod_mod _ _
  simp only [sgn, htrunc]

/-- A field of sixteen bits, read as a signed number after a write. -/
theorem Dev.getS_set_same (d : Dev) (f : Fld) (i v : Nat) : (d.set f i v).getS f i = sgn f.width v := by
  rw [Dev.getS, Dev.get_set_same, sgn_trunc]

/-- The pattern of the hotter of a temperature and a recorded pattern. -/
def hotter (temp : Int) (a : Nat) : Nat := if sgn 16 a < temp then unsgn 16 temp else a

theorem sgn_hotter {temp : Int} (hlo : -32768 ≤ temp) (hhi : temp ≤ 32767) (a : Nat) : sgn 16 (hotter temp a) = max temp (sgn 16 a) := by
  unfold hotter
  split
  · rw [sgn_unsgn hlo hhi]
    omega
  · omega

/-- The temperature as the sensor shows and records it. -/
def Dev.tempShown (d : Dev) (temp : Int) : Dev :=
  ((d.set Reg.RST_TEMP.NOW 0 (unsgn 16 temp)).set Reg.RST_TEMP.MAX 0 (hotter temp (d.get Reg.RST_TEMP.MAX 0))).modPower fun p =>
    { p with hotMax := hotter temp p.hotMax }

/-- The hot state entered or left, with its event. -/
def Dev.hotSet (d : Dev) (on : Bool) : Dev := (d.modPower fun p => { p with hot := on }).raise Ev.hot 0 0 (b1 on)

theorem Dev.dieTemp_eq (d : Dev) (temp : Int) : d.dieTemp temp =
    if !(d.tempShown temp).power.hot && decide (64 * ((d.tempShown temp).get Reg.RST_TEMP_WARN.HOT_C 0 : Int) < temp) then
      (d.tempShown temp).hotSet true
    else if (d.tempShown temp).power.hot && decide (temp ≤ 64 * (((d.tempShown temp).get Reg.RST_TEMP_WARN.HOT_C 0 : Int) - 5)) then
      (d.tempShown temp).hotSet false
    else d.tempShown temp := rfl

theorem Dev.hotSet_getS (d : Dev) (on : Bool) {f : Fld} (i : Nat) (hk : f.KeptByEvents) : (d.hotSet on).getS f i = d.getS f i := by
  rw [Dev.getS, Dev.hotSet, Dev.raise_get _ _ _ _ _ _ hk]
  rfl

theorem Dev.hotSet_hot (d : Dev) (on : Bool) : (d.hotSet on).power.hot = on := by
  rw [Dev.hotSet, Dev.raise_power, Dev.modPower_power]

/-- The hot state changes no field but those of events. -/
theorem Dev.dieTemp_getS (d : Dev) (temp : Int) {f : Fld} (i : Nat) (hk : f.KeptByEvents) :
    (d.dieTemp temp).getS f i = (d.tempShown temp).getS f i := by
  rw [Dev.dieTemp_eq]
  split
  · exact Dev.hotSet_getS _ _ _ hk
  · split
    · exact Dev.hotSet_getS _ _ _ hk
    · rfl

theorem Dev.tempShown_now (d : Dev) {temp : Int} (hlo : -32768 ≤ temp) (hhi : temp ≤ 32767) :
    (d.tempShown temp).getS Reg.RST_TEMP.NOW 0 = temp := by
  have hnow : (d.tempShown temp).getS Reg.RST_TEMP.NOW 0 = (d.set Reg.RST_TEMP.NOW 0 (unsgn 16 temp)).getS Reg.RST_TEMP.NOW 0 :=
    congrArg (sgn 16) (Dev.get_set_ne _ _ (by decide))
  rw [hnow, Dev.getS_set_same]
  exact sgn_unsgn hlo hhi

theorem Dev.tempShown_max (d : Dev) {temp : Int} (hlo : -32768 ≤ temp) (hhi : temp ≤ 32767) :
    (d.tempShown temp).getS Reg.RST_TEMP.MAX 0 = max temp (d.getS Reg.RST_TEMP.MAX 0) := by
  have hmax : (d.tempShown temp).getS Reg.RST_TEMP.MAX 0 =
      sgn 16 (hotter temp (d.get Reg.RST_TEMP.MAX 0)) := Dev.getS_set_same _ _ _ _
  rw [hmax]
  exact sgn_hotter hlo hhi _

theorem Dev.tempShown_hotC (d : Dev) (temp : Int) :
    (d.tempShown temp).get Reg.RST_TEMP_WARN.HOT_C 0 = d.get Reg.RST_TEMP_WARN.HOT_C 0 :=
  (Dev.get_set_ne _ _ (by decide)).trans (Dev.get_set_ne _ _ (by decide))

theorem Dev.tempShown_hot (d : Dev) (temp : Int) : (d.tempShown temp).power.hot = d.power.hot := rfl

/-- The hot state begins above HOT_C, and ends 5 °C below it. -/
theorem Dev.dieTemp_hot (d : Dev) (temp : Int) : (d.dieTemp temp).power.hot = true ↔
    64 * (d.get Reg.RST_TEMP_WARN.HOT_C 0 : Int) < temp ∨
      (d.power.hot = true ∧ 64 * ((d.get Reg.RST_TEMP_WARN.HOT_C 0 : Int) - 5) < temp) := by
  rw [Dev.dieTemp_eq, Dev.tempShown_hotC, Dev.tempShown_hot]
  generalize (d.get Reg.RST_TEMP_WARN.HOT_C 0 : Int) = limit
  cases hhot : d.power.hot with
  | false =>
    by_cases habove : 64 * limit < temp
    · rw [if_pos (by simp [habove]), Dev.hotSet_hot]
      simp [habove]
    · rw [if_neg (by simp [habove]), if_neg (by simp), Dev.tempShown_hot, hhot]
      simp [habove]
  | true =>
    rw [if_neg (by simp)]
    by_cases hbelow : temp ≤ 64 * (limit - 5)
    · rw [if_pos (by simp [hbelow]), Dev.hotSet_hot]
      refine ⟨fun h => absurd h Bool.false_ne_true, fun h => ?_⟩
      omega
    · rw [if_neg (by simp [hbelow]), Dev.tempShown_hot, hhot]
      exact ⟨fun _ => Or.inr ⟨rfl, Int.not_le.1 hbelow⟩, fun _ => rfl⟩

end Sys2Proof.Machine
end

section
/-! The statements about the VCORE rail's levels, AVSBus and the die temperature. -/

open Sys2Proof Sys2Proof.Machine

/-- Settles O30: the acknowledgement and the window's end each replace the rail's levels. -/
theorem railLevelsFollowTarget : Obligations.RailLevelsFollowTarget := by
  unfold Obligations.RailLevelsFollowTarget
  intro s hlive
  refine ⟨fun hwrite => ?ack, fun e hopen => ?closed⟩
  case ack =>
    have hpower := Dev.avsAck_power hwrite
    refine ⟨s.withDev s.dev.avsAck, exec_of_lift hlive rfl rfl, ?_, ?_, ?_, ?_⟩ <;> rw [State.withDev_dev, hpower]
    rfl
  case closed =>
    refine ⟨_, exec_of_lift hlive rfl (Dev.avsWindowEnd_open hopen), ?_, ?_, ?_, ?_⟩ <;> simp

/-- Settles O31: failures are counted until the fourth; a read-back is shown, judged and counted as good; the temperature is
shown before the hot state is judged. -/
theorem railAndTemperatureShown : Obligations.RailAndTemperatureShown := by
  unfold Obligations.RailAndTemperatureShown
  refine ⟨fun s hlive => ⟨?failed, fun mv hmv => ?readback⟩, fun s temp hlive hlo hhi => ?temperature⟩
  case failed =>
    exact ⟨_, exec_of_lift hlive rfl rfl, s.dev.avsFailed_tries, s.dev.avsFailed_errors, s.dev.avsFailed_fault⟩
  case readback =>
    refine ⟨_, exec_of_lift hlive rfl rfl, ?_, Dev.avsGood_fault _, ?_, ?_⟩
    · exact (Dev.avsGood_get _ (by decide) (by decide)).trans (s.dev.readbackShown_readMv hmv)
    · exact congrArg Power.avsTries (Dev.avsGood_power _)
    · have hgood : ((s.dev.readbackShown mv).avsGood).flag Reg.CHIP_AVS_STAT.APPLIED 0 =
          (s.dev.readbackShown mv).flag Reg.CHIP_AVS_STAT.APPLIED 0 :=
        congrArg (· == 1) (Dev.avsGood_get _ (by decide) (by decide))
      rw [← s.dev.readbackShown_applied hmv, ← hgood]
      rfl
  case temperature =>
    refine ⟨_, exec_of_lift hlive rfl rfl, ?_, ?_, s.dev.dieTemp_hot temp⟩
    · exact (Dev.dieTemp_getS _ _ _ (by decide)).trans (s.dev.tempShown_now hlo hhi)
    · exact (Dev.dieTemp_getS _ _ _ (by decide)).trans (s.dev.tempShown_max hlo hhi)

end

section
/-! Supply dips (R491 to R493): single bits of a field, the record of a rail that falls, and the end of the freeze. -/

namespace Sys2Proof.Machine

/-! ### Single bits of a field -/

theorem bitOf_eq_testBit (v n : Nat) : bitOf v n = v.testBit n := by
  rw [Nat.testBit_eq_decide_div_mod_eq]
  rfl

theorem bitOf_trunc {w n : Nat} (h : n < w) (v : Nat) : bitOf (trunc w v) n = bitOf v n := by
  rw [bitOf_eq_testBit, bitOf_eq_testBit, trunc, pow2, Nat.testBit_mod_two_pow, decide_eq_true h, Bool.true_and]

theorem bitOf_setBit_same (m n : Nat) (b : Bool) : bitOf (setBit m n b) n = b := by
  have hpos : 0 < 2 ^ n := Nat.two_pow_pos n
  unfold setBit
  split
  · rename_i hsame
    exact eq_of_beq hsame
  · rename_i hother
    have hbit : bitOf m n = !b := by
      revert hother
      cases bitOf m n <;> cases b <;> simp
    rw [bitOf_eq_testBit, Nat.testBit_eq_decide_div_mod_eq] at hbit
    rw [bitOf_eq_testBit, Nat.testBit_eq_decide_div_mod_eq]
    cases b with
    | true =>
      have hclear : ¬ m / 2 ^ n % 2 = 1 := of_decide_eq_false hbit
      have hsum : (m + 2 ^ n) / 2 ^ n = m / 2 ^ n + 1 := Nat.add_div_right m hpos
      exact decide_eq_true (by rw [if_pos rfl, pow2, hsum]; omega)
    | false =>
      have hset : m / 2 ^ n % 2 = 1 := of_decide_eq_true hbit
      have hdiff : (m - 2 ^ n) / 2 ^ n = m / 2 ^ n - 1 := by
        have hsub := Nat.sub_mul_div m (2 ^ n) 1
        rwa [Nat.mul_one] at hsub
      exact decide_eq_false (by rw [if_neg Bool.false_ne_true, pow2, hdiff]; omega)

/-- A bit of a field reads as it was written. -/
theorem Dev.bit_putBit_same (d : Dev) {f : Fld} {n : Nat} (i : Nat) (h : n < f.width) (b : Bool) : (d.putBit f i n b).bit f i n = b := by
  rw [Dev.bit, Dev.putBit, Dev.get_set_same, bitOf_trunc h, bitOf_setBit_same]

/-- A field that reads as before has the bits it had. -/
theorem Dev.bit_congr {d e : Dev} {f : Fld} {i : Nat} (h : e.get f i = d.get f i) (n : Nat) : e.bit f i n = d.bit f i n :=
  congrArg (bitOf · n) h

theorem Dev.bit_putBit_ne (d : Dev) {f g : Fld} {i j n m : Nat} (b : Bool) (h : g.key j 0 ≠ f.key i 0) :
    (d.putBit f i n b).bit g j m = d.bit g j m := Dev.bit_congr (Dev.get_set_ne _ _ h) m

/-- A named field of an array written. -/
theorem Dev.fieldsOnly_setJ {p : Nat → Bool} (d : Dev) {f : Fld} {i j : Nat} (v : Nat) (h : p (f.key i j) = true) :
    d.FieldsOnly p (d.setJ f i j v) := by
  refine ⟨rfl, fun k _ hk => Store.get_set_ne _ _ ?_⟩
  rintro rfl
  simp [h] at hk

/-- A change that starts from another supply state leaves the rest as the original has it. -/
theorem Dev.FieldsOnly.restore_power {p : Nat → Bool} {d e : Dev} {x : Power} (h : Dev.FieldsOnly p { d with power := x } e) :
    d.FieldsOnly p { e with power := d.power } := by
  obtain ⟨hrest, hregs⟩ := h
  exact ⟨congrArg (fun y : Dev => { y with power := d.power }) hrest, hregs⟩

/-! ### The record of a rail (R492) -/

/-- A field of the supplies' record stands in a register of its own, apart from the rails' dip counts. -/
theorem Dev.get_setJ_dips_ne (d : Dev) {f g : Fld} (j v : Nat) (hf : f.base = 1 ∧ 0x48 ≤ f.off) (hg : g.key 0 0 < (0x1000 + 0x48) * 8) :
    (d.setJ f 0 j v).get g 0 = d.get g 0 := by
  obtain ⟨hbase, hoff⟩ := hf
  refine Dev.get_setJ_ne _ _ ?_
  have hkey : (0x1000 + 0x48) * 8 ≤ f.key 0 j := by
    unfold Fld.key
    omega
  omega

/-- The two bits of a rail, as a fall or a recovery leaves them. -/
def Dev.railMarked (d : Dev) (r : Nat) (warn : Bool) : Dev :=
  (d.putBit Reg.RST_SUPPLY_STAT.WARN 0 r warn).putBit Reg.RST_SUPPLY_STAT.GOOD 0 r (!warn)

theorem Dev.railMarked_warn (d : Dev) (r : Fin 7) (warn : Bool) : (d.railMarked r.val warn).bit Reg.RST_SUPPLY_STAT.WARN 0 r.val = warn := by
  rw [Dev.railMarked, Dev.bit_putBit_ne _ _ (by decide), Dev.bit_putBit_same _ _ r.isLt]

theorem Dev.railMarked_good (d : Dev) (r : Fin 7) (warn : Bool) :
    (d.railMarked r.val warn).bit Reg.RST_SUPPLY_STAT.GOOD 0 r.val = !warn := Dev.bit_putBit_same _ _ r.isLt _

/-- Only the rails' own register is marked. -/
theorem Dev.railMarked_get (d : Dev) (r : Nat) (warn : Bool) {f : Fld} (i : Nat)
    (hw : f.key i 0 ≠ Reg.RST_SUPPLY_STAT.WARN.key 0 0) (hg : f.key i 0 ≠ Reg.RST_SUPPLY_STAT.GOOD.key 0 0) :
    (d.railMarked r warn).get f i = d.get f i :=
  (Dev.get_set_ne _ _ hg).trans (Dev.get_set_ne _ _ hw)

/-- A rail's fall as it is marked and counted. -/
def Dev.dipCounted (d : Dev) (r : Nat) : Dev :=
  ((d.railMarked r true).addSatJ Reg.RST_DIP_CNT.DIPS 0 r 1).modPower fun p =>
    { p with goodSince := none, vcoreSince := if r = 0 then none else p.vcoreSince }

theorem Dev.dipCounted_warn (d : Dev) (r : Fin 7) : (d.dipCounted r.val).bit Reg.RST_SUPPLY_STAT.WARN 0 r.val = true :=
  (Dev.bit_congr (Dev.get_setJ_dips_ne _ _ _ (by decide) (by decide)) _).trans (d.railMarked_warn r true)

theorem Dev.dipCounted_good (d : Dev) (r : Fin 7) : (d.dipCounted r.val).bit Reg.RST_SUPPLY_STAT.GOOD 0 r.val = false :=
  (Dev.bit_congr (Dev.get_setJ_dips_ne _ _ _ (by decide) (by decide)) _).trans (d.railMarked_good r true)

theorem Dev.dipCounted_dips (d : Dev) (r : Nat) :
    (d.dipCounted r).getJ Reg.RST_DIP_CNT.DIPS 0 r = capN 0xFFFF (d.getJ Reg.RST_DIP_CNT.DIPS 0 r + 1) := by
  have hkey {f : Fld} (hf : f.base = 1 ∧ f.off ≤ 0x44 ∧ f.lo < 32) : Reg.RST_DIP_CNT.DIPS.key 0 r ≠ f.key 0 0 := by
    simp only [Fld.key, Reg.RST_DIP_CNT.DIPS]
    omega
  have hmarked : (d.railMarked r true).getJ Reg.RST_DIP_CNT.DIPS 0 r = d.getJ Reg.RST_DIP_CNT.DIPS 0 r :=
    (Dev.getJ_set_ne _ _ (hkey (by decide))).trans (Dev.getJ_set_ne _ _ (hkey (by decide)))
  rw [Dev.dipCounted, Dev.modPower_getJ, Dev.addSatJ, Dev.getJ_setJ_same, trunc_capN, hmarked]
  rfl

theorem Dev.dipCounted_flag (d : Dev) (r : Nat) {f : Fld} (h : f.key 0 0 < (0x1000 + 0x48) * 8)
    (hw : f.key 0 0 ≠ Reg.RST_SUPPLY_STAT.WARN.key 0 0) (hg : f.key 0 0 ≠ Reg.RST_SUPPLY_STAT.GOOD.key 0 0) :
    (d.dipCounted r).flag f 0 = d.flag f 0 :=
  congrArg (· == 1) ((Dev.get_setJ_dips_ne _ _ _ (by decide) h).trans (d.railMarked_get r true 0 hw hg))

/-- The fields that a rail's fall may change. -/
abbrev dipKeys (r k : Nat) : Bool :=
  keysOf [Reg.RST_SUPPLY_STAT.WARN, Reg.RST_SUPPLY_STAT.GOOD] 0 k || Reg.RST_DIP_CNT.DIPS.key 0 r == k

theorem Dev.dipCounted_fieldsOnly (d : Dev) (r : Nat) :
    ∃ x, Dev.FieldsOnly (dipKeys r) { d with power := x } (d.dipCounted r) := by
  refine ⟨(d.dipCounted r).power, ?_⟩
  have hwarn := Dev.fieldsOnly_set (p := dipKeys r) { d with power := (d.dipCounted r).power } (f := Reg.RST_SUPPLY_STAT.WARN) (i := 0)
    (setBit (d.get Reg.RST_SUPPLY_STAT.WARN 0) r true) (by simp [dipKeys, keysOf])
  have hgood := hwarn.trans (Dev.fieldsOnly_set (p := dipKeys r) _ (f := Reg.RST_SUPPLY_STAT.GOOD) (i := 0)
    (setBit ((d.putBit Reg.RST_SUPPLY_STAT.WARN 0 r true).get Reg.RST_SUPPLY_STAT.GOOD 0) r false) (by simp [dipKeys, keysOf]))
  exact hgood.trans (Dev.fieldsOnly_setJ _ (f := Reg.RST_DIP_CNT.DIPS) (i := 0) (j := r)
    (capN (pow2 Reg.RST_DIP_CNT.DIPS.width - 1) ((d.railMarked r true).getJ Reg.RST_DIP_CNT.DIPS 0 r + 1)) (by simp [dipKeys]))

/-! ### The freeze (R493) -/

theorem Dev.raise_frozenSupply (d : Dev) (e : Ev) (i ins code : Nat) : (d.raise e i ins code).frozenSupply = d.frozenSupply :=
  Dev.raise_flag _ _ _ _ _ _ (by decide)

theorem Dev.dipCounted_frozenSupply (d : Dev) (r : Nat) : (d.dipCounted r).frozenSupply = d.frozenSupply :=
  d.dipCounted_flag r (by decide) (by decide) (by decide)

/-- A rail's fall: before the seal it is counted only; a dip that lasts is reported; one that begins starts the freeze. -/
theorem Dev.pwrWarn_good {d : Dev} {r : Nat} (h : d.bit Reg.RST_SUPPLY_STAT.WARN 0 r = false) :
    d.pwrWarn r =
      if d.flag Reg.CHIP_SEAL.SEALED 0 = false then d.dipCounted r
      else if d.frozenSupply then (d.dipCounted r).raise Ev.pwrWarn 0 0 (0x8000 + r)
      else (((d.dipCounted r).raise Ev.pwrWarn 0 0 (0x8000 + r)).rampsHold.setB Reg.RST_FREEZE.ACTIVE 0 true).raise Ev.freeze 0 0 1 := by
  have hseal : (d.dipCounted r).flag Reg.CHIP_SEAL.SEALED 0 = d.flag Reg.CHIP_SEAL.SEALED 0 :=
    d.dipCounted_flag r (by decide) (by decide) (by decide)
  have hfrozen : ((d.dipCounted r).raise Ev.pwrWarn 0 0 (0x8000 + r)).frozenSupply = d.frozenSupply :=
    (Dev.raise_frozenSupply _ _ _ _ _).trans (d.dipCounted_frozenSupply r)
  rw [← hseal, ← hfrozen]
  simp only [Dev.pwrWarn, h, Bool.false_eq_true, if_false, Bool.not_eq_true']
  rfl

theorem Dev.pwrWarn_unfrozen {d : Dev} {r : Nat} (h : d.bit Reg.RST_SUPPLY_STAT.WARN 0 r = false)
    (hf : d.flag Reg.CHIP_SEAL.SEALED 0 = false ∨ d.frozenSupply = true) : (d.dipCounted r).EventsOnly (d.pwrWarn r) := by
  rw [Dev.pwrWarn_good h]
  split
  · exact .refl _
  · rename_i hseal
    rw [if_pos (hf.resolve_left hseal)]
    exact Dev.eventsOnly_raise _ _ _ _ _

/-- A rail's recovery as it is marked, with the dip's lowest voltage. -/
def Dev.recovered (d : Dev) (r mv : Nat) : Dev :=
  let e := (d.railMarked r false).setJ Reg.RST_DIP_CNT.MIN_MV 0 r mv
  e.modPower fun p =>
    { p with goodSince := if e.get Reg.RST_SUPPLY_STAT.WARN 0 = 0 then some e.now else none
             vcoreSince := if r = 0 then some e.now else p.vcoreSince }

/-- Beside the record, a recovery raises its event on a sealed part. -/
theorem Dev.railGood_eventsOnly {d : Dev} {r : Nat} (mv : Nat) (h : d.bit Reg.RST_SUPPLY_STAT.WARN 0 r = true) :
    (d.recovered r mv).EventsOnly (d.railGood r mv) := by
  have heq : d.railGood r mv =
      if (d.recovered r mv).flag Reg.CHIP_SEAL.SEALED 0 then (d.recovered r mv).raise Ev.pwrWarn 0 0 r else d.recovered r mv := by
    simp only [Dev.railGood, h, Bool.not_true, Bool.false_eq_true, if_false]
    rfl
  rw [heq]
  split
  · exact Dev.eventsOnly_raise _ _ _ _ _
  · exact .refl _

theorem Dev.recovered_warn (d : Dev) (r : Fin 7) (mv : Nat) : (d.recovered r.val mv).bit Reg.RST_SUPPLY_STAT.WARN 0 r.val = false :=
  (Dev.bit_congr (Dev.get_setJ_dips_ne _ _ _ (by decide) (by decide)) _).trans (d.railMarked_warn r false)

theorem Dev.recovered_good (d : Dev) (r : Fin 7) (mv : Nat) : (d.recovered r.val mv).bit Reg.RST_SUPPLY_STAT.GOOD 0 r.val = true :=
  (Dev.bit_congr (Dev.get_setJ_dips_ne _ _ _ (by decide) (by decide)) _).trans (d.railMarked_good r false)

theorem Dev.recovered_minMv (d : Dev) (r : Nat) {mv : Nat} (h : mv < 4096) :
    (d.recovered r mv).getJ Reg.RST_DIP_CNT.MIN_MV 0 r = mv :=
  (Dev.getJ_setJ_same _ _ _ _ _).trans (Nat.mod_eq_of_lt (Nat.lt_trans h (by decide)))

theorem Dev.recovered_frozenSupply (d : Dev) (r mv : Nat) : (d.recovered r mv).frozenSupply = d.frozenSupply :=
  congrArg (· == 1) ((Dev.get_setJ_dips_ne _ _ _ (by decide) (by decide)).trans (d.railMarked_get r false 0 (by decide) (by decide)))

theorem minMv_not_evKey (r : Fin 7) : evKey (Reg.RST_DIP_CNT.MIN_MV.key 0 r.val) = false := by
  revert r
  decide

theorem Dev.rampsResume_regs (d : Dev) : d.rampsResume.regs = d.regs := by
  unfold Dev.rampsResume
  refine Dev.over_keeps Dev.regs ?_ _ d
  exact fun _ _ => rfl

theorem Dev.rampsResume_now (d : Dev) : d.rampsResume.now = d.now := by
  unfold Dev.rampsResume
  refine Dev.over_keeps Dev.now ?_ _ d
  exact fun _ _ => rfl


theorem Dev.freezeEnd_frozen {d : Dev} {t : Nat} (hg : d.power.goodSince = some t) (hf : d.frozenSupply = true) :
    d.freezeEnd = ((d.until (t + ms 1)).setB Reg.RST_FREEZE.ACTIVE 0 false).rampsResume.raise Ev.freeze 0 0 0 := by
  simp only [Dev.freezeEnd, hg, hf, if_true]

theorem Dev.freezeEnd_frozenSupply {d : Dev} {t : Nat} (hg : d.power.goodSince = some t) (hf : d.frozenSupply = true) :
    d.freezeEnd.frozenSupply = false := by
  rw [Dev.freezeEnd_frozen hg hf, Dev.raise_frozenSupply, Dev.frozenSupply, Dev.flag, Dev.get, Dev.rampsResume_regs]
  exact Dev.flag_setB_same _ (by decide) _ _

theorem Dev.freezeEnd_now {d : Dev} {t : Nat} (hg : d.power.goodSince = some t) (hf : d.frozenSupply = true) :
    d.freezeEnd.now = max d.now (t + 1000000) := by
  rw [Dev.freezeEnd_frozen hg hf, Dev.raise_now, Dev.rampsResume_now, Dev.setB_now, Dev.until_now, ms_eq]

end Sys2Proof.Machine
end

section
/-! The statement about supply dips. -/

open Sys2Proof Sys2Proof.Machine

/-- Settles O29: a fall is marked and counted before anything follows from it, and so is a recovery. -/
theorem supplyDips : Obligations.SupplyDips := by
  unfold Obligations.SupplyDips
  intro s r hlive
  refine ⟨fun hgood => ?fall, fun mv hwarn hmv => ?recovery, fun since hsince hfrozen => ?ended⟩
  case fall =>
    refine ⟨exec_of_lift hlive rfl (Dev.pwrWarn_good hgood), s.dev.dipCounted_warn r, s.dev.dipCounted_good r,
      s.dev.dipCounted_dips r.val, fun hnone => ?_⟩
    have hevents := Dev.pwrWarn_unfrozen hgood hnone
    obtain ⟨x, hrecord⟩ := s.dev.dipCounted_fieldsOnly r.val
    exact ⟨_, exec_of_lift hlive rfl rfl, (hevents.flag (by decide)).trans (s.dev.dipCounted_frozenSupply r.val),
      (hrecord.trans (hevents.fieldsOnly _)).restore_power, State.withDev_mem _ _⟩
  case recovery =>
    have hevents := Dev.railGood_eventsOnly mv hwarn
    exact ⟨_, exec_of_lift hlive rfl rfl, (Dev.bit_congr (hevents.get (by decide)) _).trans (s.dev.recovered_warn r mv),
      (Dev.bit_congr (hevents.get (by decide)) _).trans (s.dev.recovered_good r mv),
      (hevents.getJ (minMv_not_evKey r)).trans (s.dev.recovered_minMv r.val hmv),
      (hevents.flag (by decide)).trans (s.dev.recovered_frozenSupply r.val mv), State.withDev_mem _ _⟩
  case ended =>
    exact ⟨_, exec_of_lift hlive rfl rfl, Dev.freezeEnd_frozenSupply hsince hfrozen, Dev.freezeEnd_now hsince hfrozen,
      State.withDev_mem _ _⟩

end

section
/-! Chip resets (R477 to R479, R486, R488, R489): the device that a reset of a part out of reset leaves. -/

namespace Sys2Proof.Machine

/-- A reset of a part that is out of reset begins it: the store is copied into for causes 3 and above. -/
theorem Dev.chipReset_live {d : Dev} (cause rails : Nat) (h : d.power.inReset = false) :
    d.chipReset cause rails = (if 3 ≤ cause then d.retCapture else d).cleared cause rails :=
  if_neg (by simp [h])

/-- What the entry of a reset leaves of the retained store: a POR clears it, a SUPPLY reset leaves it, the others copy into it. -/
theorem Dev.chipReset_ret {d : Dev} {cause : Nat} (rails : Nat) (h : d.power.inReset = false) (hc : 1 ≤ cause) :
    (d.chipReset cause rails).ret =
      if cause = 1 then { Retained.reset with next := 0, recs := [] } else if cause = 2 then d.ret else d.retCapture.ret := by
  rw [Dev.chipReset_live _ _ h]
  simp only [Dev.cleared]
  split
  · rfl
  · by_cases hcopy : 3 ≤ cause
    · rw [if_pos hcopy, if_neg (by omega)]
    · rw [if_neg hcopy, if_pos (by omega)]

/-- The soft reset's write is the one that `CHIP_RST_CMD` takes. -/
theorem Dev.softReset_accepted {s : State} (h : s.Accepts .chip0 0 0x58 0xA5000000) :
    s.dev.softReset (.page 0 0x58) 0xA5000000 = true := by
  obtain ⟨-, -, -, herrs⟩ := h
  simp [Dev.softReset, herrs, firstErr]

/-- An accepted write of 0xA5 resets the part 10 µs later (R477). -/
theorem exec_softReset {s : State} (h : s.Accepts .chip0 0 0x58 0xA5000000) :
    exec .softReset s = .next ((s.withDev (s.dev.wait 10000)).chipReset 5 0) := by
  have hlive : s.dev.power.inReset = false := h.1
  refine congrArg Host.Outcome.next ?_
  simp only [State.hostWrite, hlive, Dev.softReset_accepted h, Bool.false_eq_true, if_false, if_true]
  rfl

end Sys2Proof.Machine
end

section
/-! The statement about chip resets. -/

open Sys2Proof Sys2Proof.Machine

/-- Settles O24: each source begins the reset with its cause, and what stands afterwards is read off the cleared device. -/
theorem chipResetsClear : Obligations.ChipResetsClear := by
  unfold Obligations.ChipResetsClear
  intro s hlive
  refine ⟨fun c cause rails hc => ?source, fun haccept => ?soft⟩
  case source =>
    have hexec : exec c s = .next (s.chipReset cause rails) := by
      obtain ⟨rfl, rfl, rfl⟩ | ⟨r, rfl, rfl, rfl⟩ | ⟨rfl, rfl, rfl⟩ | ⟨rfl, rfl, rfl⟩ := hc <;> rfl
    have hcause : 1 ≤ cause := by omega
    have hdev := Dev.chipReset_live (d := s.dev) cause rails hlive
    exact ⟨_, hexec, rfl, rfl, congrArg (fun d : Dev => d.power.inReset) hdev, congrArg (fun d : Dev => d.power.cause) hdev,
      congrArg (fun d : Dev => d.power.rails) hdev, congrArg Dev.regs hdev, congrArg Dev.tabs hdev, congrArg Dev.queues hdev,
      congrArg Dev.les hdev, congrArg Dev.grps hdev, congrArg Dev.locked hdev, (congrArg Dev.fuse hdev).trans rfl,
      Dev.chipReset_ret rails hlive hcause⟩
  case soft =>
    have hwait : (s.dev.wait 10000).power.inReset = false := by
      rw [Dev.wait, Dev.until_power]
      exact hlive
    have hdev := Dev.chipReset_live (d := s.dev.wait 10000) 5 0 hwait
    exact ⟨_, exec_softReset haccept, rfl, rfl, congrArg (fun d : Dev => d.power.inReset) hdev,
      congrArg (fun d : Dev => d.power.cause) hdev, congrArg Dev.regs hdev, congrArg Dev.tabs hdev,
      Dev.chipReset_ret 0 hwait (by decide)⟩

end

section
/-! Fuse load attempts (R482 to R484): what an attempt records, and what the seal and the third failure add to it. -/

namespace Sys2Proof.Machine

/-- The verdict on the two copies. -/
def fusesGood (a b : List Nat) : Bool := fuseMismatch a b == 0x7FF && fuseCrcOk a && fuseCrcOk b && fusePinsOk a

/-- An attempt as it is counted, with what the copies' checks show. -/
def Dev.attemptShown (d : Dev) (a b : List Nat) : Dev :=
  let n := d.get Reg.CHIP_SEAL.ATTEMPTS 0
  let e := (d.until (ms (2 * (n + 1)))).set Reg.CHIP_SEAL.ATTEMPTS 0 (n + 1)
  ((e.setB Reg.CHIP_SEAL.CRC_A 0 (fuseCrcOk a)).setB Reg.CHIP_SEAL.CRC_B 0 (fuseCrcOk b)).set Reg.CHIP_SEAL.MISMATCH 0 (fuseMismatch a b)

theorem Dev.fuseAttempt_open {d : Dev} (a b : List Nat) (hs : d.flag Reg.CHIP_SEAL.SEALED 0 = false)
    (hf : d.flag Reg.CHIP_SEAL.FAULT 0 = false) :
    d.fuseAttempt a b =
      if fusesGood a b then (d.attemptShown a b).seal a
      else onlyIf (d.get Reg.CHIP_SEAL.ATTEMPTS 0 == 2) (fun e => e.setB Reg.CHIP_SEAL.FAULT 0 true) (d.attemptShown a b) := by
  have hgood : (decide (fuseMismatch a b = 0x7FF) && fuseCrcOk a && fuseCrcOk b && fusePinsOk a) = fusesGood a b := rfl
  rw [← hgood]
  simp only [Dev.fuseAttempt, hs, hf, Bool.or_self, Bool.false_eq_true, if_false]
  rfl

theorem Dev.attemptShown_attempts {d : Dev} (a b : List Nat) (h : d.get Reg.CHIP_SEAL.ATTEMPTS 0 < 3) :
    (d.attemptShown a b).get Reg.CHIP_SEAL.ATTEMPTS 0 = d.get Reg.CHIP_SEAL.ATTEMPTS 0 + 1 := by
  rw [Dev.attemptShown, Dev.get_set_ne _ _ (by decide), Dev.setB, Dev.get_set_ne _ _ (by decide), Dev.setB,
    Dev.get_set_ne _ _ (by decide), Dev.get_set_same]
  exact Nat.mod_eq_of_lt (show _ < 4 by omega)

/-- The seal's own two flags are not among what an attempt shows. -/
theorem Dev.attemptShown_flag (d : Dev) (a b : List Nat) {f : Fld}
    (h : f.key 0 0 ∉ [Reg.CHIP_SEAL.ATTEMPTS, Reg.CHIP_SEAL.CRC_A, Reg.CHIP_SEAL.CRC_B, Reg.CHIP_SEAL.MISMATCH].map fun g => g.key 0 0) :
    (d.attemptShown a b).flag f 0 = d.flag f 0 := by
  simp only [List.map_cons, List.map_nil, List.mem_cons, List.not_mem_nil, or_false, not_or] at h
  obtain ⟨hattempts, ha, hb, hmismatch⟩ := h
  rw [Dev.attemptShown, Dev.flag_set_ne _ _ hmismatch, Dev.setB, Dev.flag_set_ne _ _ hb, Dev.setB, Dev.flag_set_ne _ _ ha,
    Dev.flag_set_ne _ _ hattempts, Dev.until_flag]

theorem Dev.attemptShown_now (d : Dev) (a b : List Nat) :
    (d.attemptShown a b).now = max d.now (2000000 * (d.get Reg.CHIP_SEAL.ATTEMPTS 0 + 1)) := by
  have hms : ms (2 * (d.get Reg.CHIP_SEAL.ATTEMPTS 0 + 1)) = 2000000 * (d.get Reg.CHIP_SEAL.ATTEMPTS 0 + 1) := by
    rw [ms_eq]
    omega
  rw [Dev.attemptShown, Dev.set_now, Dev.setB_now, Dev.setB_now, Dev.set_now, Dev.until_now, hms]

theorem Dev.attemptShown_fuse (d : Dev) (a b : List Nat) : (d.attemptShown a b).fuse = d.fuse := by
  rw [Dev.attemptShown, Dev.set_fuse, Dev.setB_fuse, Dev.setB_fuse, Dev.set_fuse, Dev.until_fuse]

/-! ### The seal (R483) -/

/-- A field of CHIP_SEAL. -/
abbrev Fld.OfSeal (f : Fld) : Prop := 0x4C * 8 ≤ f.key 0 0 ∧ f.key 0 0 < 0x50 * 8

theorem Dev.get_set_beside_seal (d : Dev) {f g : Fld} {i : Nat} (v : Nat) (hf : f.OfSeal)
    (hg : ¬(0x4C * 8 ≤ g.key i 0 ∧ g.key i 0 < 0x50 * 8)) : (d.set g i v).get f 0 = d.get f 0 :=
  Dev.get_set_ne _ _ fun h => hg (h ▸ hf)

theorem Dev.get_setJ_beside_seal (d : Dev) {f g : Fld} {i j : Nat} (v : Nat) (hf : f.OfSeal) (hg : 0x50 * 8 ≤ g.key i j) :
    (d.setJ g i j v).get f 0 = d.get f 0 := by
  obtain ⟨-, hlt⟩ := hf
  exact Dev.get_setJ_ne _ _ (by omega)

/-- The seal set, the fuses taken over. -/
def Dev.sealSet (d : Dev) (a : List Nat) : Dev :=
  { d.setB Reg.CHIP_SEAL.SEALED 0 true with fuse := a.map (trunc 32), trust := { d.trust with sealAt := d.now } }

/-- What the fuses say of the part, in its registers. -/
def Dev.fusesShown (d : Dev) (head : List Nat) : Dev :=
  let cipher := Config.fuseCipher head
  let mv := Config.fuseMv head
  let d := (d.setB Reg.CHIP_FEATURE.CIPHER 0 cipher).setB Reg.CYP_STAT.CIPHER 0 cipher
  let d := (d.set Reg.CHIP_VCORE_FLOOR.FUSE_MV 0 mv).set Reg.CHIP_VCORE_FLOOR.FLOOR_MV 0 mv
  let d := (d.set Reg.CHIP_VCORE_NOW.TARGET_MV 0 (max 750 (trunc 10 mv))).judgeApplied
  let d := ((d.set Reg.MCU_LIFECYCLE.STATE 0 (Config.fuseLifecycle head)).set Reg.MCU_LIFECYCLE.MIN_SVN 0 (Config.fuseMinSvn head)).set
    Reg.MCU_LIFECYCLE.REVOKED 0 (Config.fuseRevoked head)
  d.setB Reg.CAR_TRUST_STAT.ANCHOR_FUSED 0 d.anchorFused

/-- The trims of one lane. -/
def Dev.laneTrimmed (i : Nat) (d : Dev) : Dev :=
  let w := d.fuseWord (64 + i)
  (d.setJ Reg.HLN_LANE_DLY.RX_PS (i / 8) (i % 8) (bitsOf w Reg.HLN_LANE_DLY.RX_PS.lo Reg.HLN_LANE_DLY.RX_PS.width)).setJ
    Reg.HLN_LANE_DLY.TX_PS (i / 8) (i % 8) (bitsOf w Reg.HLN_LANE_DLY.TX_PS.lo Reg.HLN_LANE_DLY.TX_PS.width)

theorem Dev.seal_eq (d : Dev) (a : List Nat) : d.seal a =
    let e := ((d.sealSet a).fusesShown (a.take 8)).over (List.range 128) Dev.laneTrimmed
    { e with pins := [], power := { e.power with avsWrite := true } } := by
  unfold Dev.seal Dev.sealSet Dev.fusesShown Dev.laneTrimmed
  rfl

theorem Dev.fusesShown_get (d : Dev) (head : List Nat) {f : Fld} (h : f.OfSeal) : (d.fusesShown head).get f 0 = d.get f 0 := by
  simp only [Dev.fusesShown, Dev.setB, Dev.judgeApplied]
  iterate 10 rw [Dev.get_set_beside_seal _ _ h (by decide)]

theorem Dev.laneTrimmed_get (i : Nat) (d : Dev) {f : Fld} (h : f.OfSeal) : (d.laneTrimmed i).get f 0 = d.get f 0 := by
  have hlane {g : Fld} (hg : 0x50 ≤ g.base) : 0x50 * 8 ≤ g.key (i / 8) (i % 8) := by
    unfold Fld.key
    omega
  rw [Dev.laneTrimmed, Dev.get_setJ_beside_seal _ _ h (hlane (by decide)), Dev.get_setJ_beside_seal _ _ h (hlane (by decide))]

/-- Of CHIP_SEAL, the seal changes SEALED alone. -/
theorem Dev.seal_get (d : Dev) (a : List Nat) {f : Fld} (h : f.OfSeal) :
    (d.seal a).get f 0 = (d.setB Reg.CHIP_SEAL.SEALED 0 true).get f 0 := by
  have hend (e : Dev) (x : Store Nat) (y : Power) : ({ e with pins := x, power := y } : Dev).get f 0 = e.get f 0 := rfl
  have hset : (d.sealSet a).get f 0 = (d.setB Reg.CHIP_SEAL.SEALED 0 true).get f 0 := rfl
  rw [Dev.seal_eq, hend, Dev.over_keeps (fun e : Dev => e.get f 0) (fun i e => Dev.laneTrimmed_get i e h), Dev.fusesShown_get _ _ h,
    hset]

theorem Dev.seal_keeps {α : Type} (p : Dev → α) (hset : ∀ d f i v, p (Dev.set d f i v) = p d)
    (hsetJ : ∀ d f i j v, p (Dev.setJ d f i j v) = p d) (hend : ∀ d x y, p { d with pins := x, power := y } = p d)
    (d : Dev) (a : List Nat) : p (d.seal a) = p (d.sealSet a) := by
  have hlane (i : Nat) (e : Dev) : p (e.laneTrimmed i) = p e := by rw [Dev.laneTrimmed, hsetJ, hsetJ]
  rw [Dev.seal_eq, hend, Dev.over_keeps p hlane]
  simp only [Dev.fusesShown, Dev.setB, Dev.judgeApplied, hset]

theorem Dev.seal_now (d : Dev) (a : List Nat) : (d.seal a).now = d.now :=
  Dev.seal_keeps Dev.now (fun _ _ _ _ => rfl) (fun _ _ _ _ _ => rfl) (fun _ _ _ => rfl) d a

theorem Dev.seal_fuse (d : Dev) (a : List Nat) : (d.seal a).fuse = a.map (trunc 32) :=
  Dev.seal_keeps Dev.fuse (fun _ _ _ _ => rfl) (fun _ _ _ _ _ => rfl) (fun _ _ _ => rfl) d a

/-- A word is the number of its bits. -/
theorem trunc_words (a : List Word) : (a.map (·.toNat)).map (trunc 32) = a.map (·.toNat) := by
  rw [List.map_map]
  exact List.map_congr_left fun w _ => Nat.mod_eq_of_lt w.isLt

end Sys2Proof.Machine
end

section
/-! The statement about fuse load attempts. -/

open Sys2Proof Sys2Proof.Machine

/-- Settles O28: an attempt is counted and its checks shown; then the part is sealed, or the third failure is the fault. -/
theorem fuseAttemptSealsOrFails : Obligations.FuseAttemptSealsOrFails := by
  unfold Obligations.FuseAttemptSealsOrFails
  intro s a b hlive hsealed hfault n la lb good hn
  have hopen := Dev.fuseAttempt_open la lb hsealed hfault
  have hattempts := Dev.attemptShown_attempts la lb hn
  have hsealed' : (s.dev.attemptShown la lb).flag Reg.CHIP_SEAL.SEALED 0 = false :=
    (Dev.attemptShown_flag _ _ _ (by decide)).trans hsealed
  have hfault' : (s.dev.attemptShown la lb).flag Reg.CHIP_SEAL.FAULT 0 = false :=
    (Dev.attemptShown_flag _ _ _ (by decide)).trans hfault
  cases hgood : good with
  | true =>
    have hseal : s.dev.fuseAttempt la lb = (s.dev.attemptShown la lb).seal la := hopen.trans (if_pos hgood)
    refine ⟨_, exec_of_lift hlive rfl hseal, ?_, ?_, ?_, ?_, ?_, rfl⟩
    · exact (Dev.seal_get _ _ (by decide)).trans ((Dev.get_set_ne _ _ (by decide)).trans hattempts)
    · exact (congrArg (· == 1) (Dev.seal_get _ _ (by decide))).trans (Dev.flag_setB_same _ (by decide) _ _)
    · exact (congrArg (· == 1) (Dev.seal_get _ _ (by decide))).trans ((Dev.flag_set_ne _ _ (by decide)).trans hfault')
    · exact (Dev.seal_fuse _ _).trans (trunc_words a)
    · exact (Dev.seal_now _ _).trans (s.dev.attemptShown_now la lb)
  | false =>
    have hfail : s.dev.fuseAttempt la lb =
        onlyIf (n == 2) (fun e => e.setB Reg.CHIP_SEAL.FAULT 0 true) (s.dev.attemptShown la lb) :=
      hopen.trans (if_neg (Bool.eq_false_iff.1 hgood))
    refine ⟨_, exec_of_lift hlive rfl hfail, ?_, ?_, ?_, ?_, ?_, rfl⟩
    · exact (apply_onlyIf (fun e : Dev => e.get Reg.CHIP_SEAL.ATTEMPTS 0) _ (Dev.get_set_ne _ _ (by decide))).trans hattempts
    · exact (apply_onlyIf (fun e : Dev => e.flag Reg.CHIP_SEAL.SEALED 0) _ (Dev.flag_set_ne _ _ (by decide))).trans hsealed'
    · cases hthird : n == 2 with
      | true => exact Dev.flag_setB_same _ (by decide) _ _
      | false => exact hfault'
    · exact (apply_onlyIf Dev.fuse _ (Dev.setB_fuse _ _ _ _)).trans (s.dev.attemptShown_fuse la lb)
    · exact (apply_onlyIf Dev.now _ (Dev.setB_now _ _ _ _)).trans (s.dev.attemptShown_now la lb)

end

section
/-! Event queues (R461 to R467): pops, the bulk pop's write, the loss of a queue's positions, and the end of a holdoff. -/

namespace Sys2Proof.Machine

/-! ### What an accepted write stores -/

/-- A field's part of a word goes to the register fields alone. -/
theorem Dev.storeField_keeps {α : Type} (p : Dev → α) (hp : ∀ d x, p { d with regs := x } = p d) (d : Dev) (k : PageKind)
    (i off w : Nat) (r : FieldRow) : p (d.storeField k i off w r) = p d := by
  cases hacc : r.acc <;> simp only [Dev.storeField, hacc, hp]
  split
  · rfl
  · rw [hp]

/-- A stored word goes to the register fields alone. -/
theorem Dev.storeWord_keeps {α : Type} (p : Dev → α) (hp : ∀ d x, p { d with regs := x } = p d) (d : Dev) (k : PageKind)
    (i off w : Nat) : p (d.storeWord k i off w) = p d := by
  unfold Dev.storeWord
  generalize fieldsAt k off = rows
  induction rows generalizing d with
  | nil => rfl
  | cons r rows ih => rw [List.foldl_cons, ih, Dev.storeField_keeps p hp]

/-- A write to an enabled page, outside header and window, whose word fits its register and passes the chapters' checks. -/
theorem Dev.writeErrs_page {d : Dev} {k : PageKind} {i off w : Nat} (hpage : ¬(off < 0x40 ∨ 0x800 ≤ off))
    (hrows : (fieldsAt k off).isEmpty = false) (hreserved : reservedSet (fieldsAt k off) w = false)
    (hen : d.flag Hdr.CTRL.ENABLE (pageOf k i) = true) (hrange : rangeErrs (fieldsAt k off) w = []) :
    d.writeErrs k i off w = d.txErrs k i off w ++ d.rxErrs k i off w ++ d.flowErrs k i off w ++ d.timeErrs k off w ++ d.unitErrs k i off w := by
  simp only [Dev.writeErrs, hrows, hreserved, hen, hrange, if_neg hpage, failIf, Bool.not_true, Bool.and_false, Bool.false_eq_true,
    if_false, List.nil_append]

/-- A word whose fields lie in their ranges, in a register that is no counter, fails no range check. -/
theorem rangeErrs_of_fits {rows : List FieldRow} {w : Nat} (hcount : (rows.any fun r => r.count) = false)
    (h : ∀ r ∈ rows, r.written = true → r.rmin ≤ r.value w ∧ r.value w ≤ r.rmax) : rangeErrs rows w = [] := by
  have hfits : (rows.any fun r => r.written && (decide (r.value w < r.rmin) || decide (r.rmax < r.value w))) = false := by
    refine List.any_eq_false.2 fun r hr => ?_
    rw [Bool.and_eq_true, Bool.or_eq_true, decide_eq_true_eq, decide_eq_true_eq]
    rintro ⟨hwritten, hbeyond⟩
    have := h r hr hwritten
    omega
  simp only [rangeErrs, hcount, hfits, failIf, Bool.false_eq_true, if_false]

/-! ### The pages of the queues -/

theorem decodePage_evq (q : Fin 4) : decodePage (pageOf .evq q.val) = some (.evq, q.val) := by
  revert q
  decide

theorem pageOf_evq_ne_zero (q : Nat) : pageOf .evq q ≠ 0 := by simp [pageOf]

/-- A read of EVQ_POP0 on a page that is not frozen pops an entry (R461). -/
theorem Dev.readWord_pop {d : Dev} {q : Nat} (h : d.frozenPage .evq q = false) :
    d.readWord .evq q 0x60 = ((d.queue q).pop.popped.w0, d.setQueue q (d.queue q).pop) := by
  simp [Dev.readWord, h]

/-! ### The bulk pop (R461) -/

/-- A position below 1,024 sets no bit outside EVQ_RP. -/
theorem reservedSet_evqRp {w : Nat} (h : w < 1024) : reservedSet (fieldsAt .evq 0x4C) w = false := by
  have hrows (b : Nat) : ((fieldsAt .evq 0x4C).all fun r => !(decide (r.lo ≤ b) && decide (b < r.lo + r.width))) = decide (10 ≤ b) := by
    have hrow : fieldsAt .evq 0x4C = [⟨0x4C, 0x0, 1, 0, 10, .RW, false, 0, 0, 1023⟩] := rfl
    simp [hrow, ← decide_not]
  refine List.any_eq_false.2 fun b _ => ?_
  rw [hrows, Bool.and_eq_true, decide_eq_true_eq]
  rintro ⟨hbit, hb⟩
  have hpow : 2 ^ 10 ≤ 2 ^ b := Nat.pow_le_pow_right (by decide) hb
  have hzero : w / 2 ^ b = 0 := Nat.div_eq_of_lt (by omega)
  simp [bitOf, bitsOf, trunc, pow2, hzero] at hbit

/-- A bulk pop that the ring allows is accepted. -/
theorem State.accepts_evqRp {s : State} {q : Fin 4} {w : Nat} (hl : s.Live) (hs : s.dev.pageServed (pageOf .evq q.val) = true)
    (hen : s.dev.flag Hdr.CTRL.ENABLE (pageOf .evq q.val) = true) (hw : w < 1024) (hpop : (s.dev.queue q.val).popAllowed w = true) :
    s.Accepts .evq q.val 0x4C w := by
  refine ⟨hl, decodePage_evq q, hs, ?_⟩
  have hrange : rangeErrs (fieldsAt .evq 0x4C) w = [] := by
    have hvalue : bitsOf w 0 10 ≤ 1023 := Nat.le_of_lt_succ (Nat.mod_lt _ (by decide))
    exact rangeErrs_of_fits rfl (List.forall_mem_singleton.2 fun _ => ⟨Nat.zero_le _, hvalue⟩)
  rw [Dev.writeErrs_page (by decide) rfl (reservedSet_evqRp hw) hen hrange]
  have hunit : s.dev.unitErrs .evq q.val 0x4C w = failIf (!(s.dev.queue q.val).popAllowed w) .range := rfl
  rw [hunit, hpop]
  rfl

/-- An accepted bulk pop moves the queue's read position. -/
theorem Dev.writeEffect_evqRp (d : Dev) (q w : Nat) :
    d.writeEffect .evq q 0x4C w = (d.storeWord .evq q 0x4C w).setQueue q (((d.storeWord .evq q 0x4C w).queue q).popTo w) := rfl

@[simp] theorem Dev.queue_setQueue_same (d : Dev) (q : Nat) (x : Queue) : (d.setQueue q x).queue q = x := by
  simp only [Dev.queue, Dev.setQueue, Store.get_set_same]

theorem Dev.writeEffect_evqRp_queue (d : Dev) (q w : Nat) : (d.writeEffect .evq q 0x4C w).queue q = (d.queue q).popTo w := by
  rw [Dev.writeEffect_evqRp, Dev.queue_setQueue_same, Dev.storeWord_keeps (fun e : Dev => e.queue q) fun _ _ => rfl]

/-! ### The loss of a queue's positions (R464) -/

/-- Signalling a vector leaves the queues alone. -/
theorem Dev.sendVector_queue (d : Dev) (v q : Nat) : (d.sendVector v).queue q = d.queue q := by
  unfold Dev.sendVector
  repeat' split
  all_goals rfl

/-- A queue whose positions are lost is emptied, and marked in CHIP_STICKY. -/
def Dev.queueLost (d : Dev) (q : Nat) : Dev :=
  (d.setQueue q { d.queue q with wp := 0, rp := 0, depth := 0, slug0 := false, slug1 := false }).putBit Reg.CHIP_STICKY.EVQ_INTEGRITY 0 q true

theorem Dev.queueLost_queue (d : Dev) (q : Nat) :
    (d.queueLost q).queue q = { d.queue q with wp := 0, rp := 0, depth := 0, slug0 := false, slug1 := false } :=
  Dev.queue_setQueue_same _ _ _

theorem Dev.queueIntegrity_eq (d : Dev) (q : Nat) :
    d.queueIntegrity q = if d.bit Reg.CHIP_STICKY.EVQ_INTEGRITY 0 q then d.queueLost q else (d.queueLost q).sendVector 21 := rfl

theorem Dev.queueIntegrity_queue (d : Dev) (q : Nat) :
    (d.queueIntegrity q).queue q = { d.queue q with wp := 0, rp := 0, depth := 0, slug0 := false, slug1 := false } := by
  rw [Dev.queueIntegrity_eq]
  split
  · exact d.queueLost_queue q
  · rw [Dev.sendVector_queue, d.queueLost_queue q]

theorem Dev.queueIntegrity_sticky (d : Dev) (q : Fin 4) :
    (d.queueIntegrity q.val).bit Reg.CHIP_STICKY.EVQ_INTEGRITY 0 q.val = true := by
  have hlost : (d.queueLost q.val).bit Reg.CHIP_STICKY.EVQ_INTEGRITY 0 q.val = true := Dev.bit_putBit_same _ _ q.isLt _
  rw [Dev.queueIntegrity_eq]
  split
  · exact hlost
  · exact (Dev.bit_congr ((Dev.eventsOnly_sendVector _ _).get (by decide)) _).trans hlost

/-! ### The end of a holdoff (R467) -/

theorem Dev.holdoffEnd_pending {d : Dev} {q : Nat} (h : (d.queue q).holdPend = true) :
    d.holdoffEnd q = ((d.until (d.queue q).holdUntil).setQueue q { d.queue q with holdPend := false }).queueVector q := by
  simp only [Dev.holdoffEnd, h, if_true, Dev.until_queue]

end Sys2Proof.Machine
end

section
/-! The statement about event queues. -/

open Sys2Proof Sys2Proof.Machine

/-- Settles O18: the pop is the read of a window, the bulk pop an accepted write, and the other two act on the queue itself. -/
theorem queueCommandsTakeEffect : Obligations.QueueCommandsTakeEffect := by
  unfold Obligations.QueueCommandsTakeEffect
  intro s q hlive
  refine ⟨fun hserved hfree => ?pop, fun v hserved hen hv hpop => ?bulk, ?integrity, fun hpend => ?holdoff⟩
  case pop =>
    refine exec_of_lift hlive rfl ?_
    rw [Dev.pageRead_served _ (decodePage_evq q) hserved, Dev.readWord_pop hfree]
  case bulk =>
    have haccept := State.accepts_evqRp hlive hserved hen hv hpop
    exact ⟨_, exec_of_lift hlive rfl (Dev.pageWrite_accepted haccept fun h => pageOf_evq_ne_zero _ h.1),
      Dev.writeEffect_evqRp_queue _ _ _, State.withDev_mem _ _⟩
  case integrity =>
    have hqueue := s.dev.queueIntegrity_queue q.val
    exact ⟨_, exec_of_lift hlive rfl rfl, congrArg Queue.depth hqueue, congrArg Queue.wp hqueue, congrArg Queue.rp hqueue,
      congrArg Queue.slug0 hqueue, congrArg Queue.slug1 hqueue, s.dev.queueIntegrity_sticky q⟩
  case holdoff => exact exec_of_lift hlive rfl (Dev.holdoffEnd_pending hpend)

end

section
/-! Snapshots and captures (R443 to R446): what ends them, and the words of GO and NOW. -/

namespace Sys2Proof.Machine

theorem Dev.writeEffect_snapCtrl (d : Dev) (w : Nat) : d.writeEffect .hdm 0 0x040 w =
    if Reg.CXL_SNAP_CTRL.NOW.on w then
      { d.storeWord .hdm 0 0x040 w with host := { (d.storeWord .hdm 0 0x040 w).host with snapNow := true } }
    else d.storeWord .hdm 0 0x040 w := rfl

theorem Dev.writeEffect_capCtrl (d : Dev) (w : Nat) : d.writeEffect .hdm 0 0x04C w =
    if Reg.CXL_CAP_CTRL.GO.on w then (d.storeWord .hdm 0 0x04C w).captureArm else d.storeWord .hdm 0 0x04C w := rfl

/-! ### The end of a snapshot (R445) -/

/-- A slot with its SEQ advanced. -/
def SnapSlot.advanced (x : SnapSlot) : SnapSlot := { x with seq := (x.seq + 1) % pow2 32 }

/-- The slot in writing is complete. -/
def Dev.snapComplete (d : Dev) (p : Nat) : Dev :=
  ({ d with snaps := Store.set (fun _ => SnapSlot.reset) d.snaps p (d.snap p).advanced
            host := { d.host with snapBusy := none } } : Dev).set Reg.CXL_SNAP_STAT.LAST 0 p

theorem Dev.snapDone_busy {d : Dev} {p : Nat} (h : d.host.snapBusy = some p) :
    d.snapDone = (d.snapComplete p).raise Ev.snapDone 0 p ((d.snap p).advanced.seq % pow2 16) := by
  simp only [Dev.snapDone, h]
  rfl

theorem Dev.snapComplete_snap (d : Dev) (p : Nat) : (d.snapComplete p).snap p = (d.snap p).advanced :=
  Store.get_set_same _ _ _

/-! ### Captures (R446) -/

/-- The word of GO: the source, the line engine and the subcarrier, with GO. -/
def captureWord (src le dsc w : Nat) : Nat :=
  Reg.CXL_CAP_CTRL.GO.put 1 (Reg.CXL_CAP_CTRL.SRC.put src (Reg.CXL_CAP_CTRL.LE.put le (Reg.CXL_CAP_CTRL.DSC.put dsc w)))

/-- An accepted GO arms the capture. -/
theorem exec_captureGo {s : State} {src : Fin 16} {le : Fin 8} {dsc : Fin 16}
    (h : s.Accepts .hdm 0 0x04C (captureWord src.val le.val dsc.val (s.kept .hdm 0 0x04C))) :
    exec (.captureGo src le dsc) s = .next (s.withDev
      (s.stored .hdm 0 0x04C (captureWord src.val le.val dsc.val (s.kept .hdm 0 0x04C))).captureArm) := by
  have hcommand : exec (.captureGo src le dsc) s =
      .next (s.lift fun d => d.command .hdm 0 0x04C (captureWord src.val le.val dsc.val)) := rfl
  have hgo : Reg.CXL_CAP_CTRL.GO.on (captureWord src.val le.val dsc.val (s.kept .hdm 0 0x04C)) = true := Fld.on_put_one rfl _
  rw [hcommand, next_lift_command (by decide) h, Dev.writeEffect_capCtrl, if_pos hgo]
  rfl

theorem Dev.captureArm_flag (d : Dev) (f : Fld) : d.captureArm.flag f 0 =
    ((d.setB Reg.CXL_CAP_CTRL.RUN 0 true).setB Reg.CXL_CAP_CTRL.DONE 0 false).flag f 0 := by
  have hregs : d.captureArm.regs = ((d.setB Reg.CXL_CAP_CTRL.RUN 0 true).setB Reg.CXL_CAP_CTRL.DONE 0 false).regs := by
    simp only [Dev.captureArm]
  rw [Dev.flag, Dev.get, hregs, Dev.flag, Dev.get]

theorem Dev.captureArm_run (d : Dev) : d.captureArm.flag Reg.CXL_CAP_CTRL.RUN 0 = true := by
  rw [Dev.captureArm_flag, Dev.setB, Dev.flag_set_ne _ _ (by decide), Dev.flag_setB_same _ (by decide)]

theorem Dev.captureArm_done (d : Dev) : d.captureArm.flag Reg.CXL_CAP_CTRL.DONE 0 = false := by
  rw [Dev.captureArm_flag, Dev.flag_setB_same _ (by decide)]

/-- The bytes of a capture lie in the area that takes writes: no byte below it changes. -/
theorem State.hdmWrite_get_below (s : State) (base : Nat) (l : List (Option Byte)) {off : Nat} (h : off < 0x1000000) :
    Store.get memReset (s.hdmWrite base l).mem off = Store.get memReset s.mem off := by
  have hdiscards : hdmWritable off = false := by
    rw [hdmWritable, decide_eq_false (by omega), Bool.false_and]
  rw [State.hdmWrite_get, if_neg fun hw => Bool.false_ne_true (hdiscards.symm.trans hw.2.2)]

/-- The bytes of a capture that ends: its samples, then its header. -/
def State.captureWritten (s : State) (samples : List Byte) : State :=
  let data := samples.take (s.dev.get Reg.CXL_CAP_LEN.LEN_KIB 0 * 1024)
  (s.hdmWrite 0x1000040 (data.map some)).hdmWrite 0x1000000
    ((s.dev.captureHeader data.length).map fun v => some (BitVec.ofNat 8 v))

theorem State.captureWritten_get_below (s : State) (samples : List Byte) {off : Nat} (h : off < 0x1000000) :
    Store.get memReset (s.captureWritten samples).mem off = Store.get memReset s.mem off := by
  rw [State.captureWritten, State.hdmWrite_get_below _ _ _ h, State.hdmWrite_get_below _ _ _ h]

/-- The flags of a capture that has ended. -/
def Dev.captureEnded (d : Dev) : Dev := (d.setB Reg.CXL_CAP_CTRL.RUN 0 false).setB Reg.CXL_CAP_CTRL.DONE 0 true

theorem State.captureDone_running {s : State} (samples : List Byte) (hr : s.Runs)
    (hrun : s.dev.flag Reg.CXL_CAP_CTRL.RUN 0 = true) (ha : s.dev.cap.armed = false) :
    s.captureDone samples = (s.captureWritten samples).withDev
      ((s.captureWritten samples).dev.captureEnded.raise Ev.captureDone 0 0
        ((s.captureWritten samples).dev.captureEnded.get Reg.CXL_CAP_CTRL.SRC 0)) := by
  have hruns : s.dev.runs = true := hr
  simp only [State.captureDone, hruns, hrun, ha, Bool.not_true, Bool.or_self, Bool.false_eq_true, if_false]
  rfl

theorem Dev.captureEnded_run (d : Dev) : d.captureEnded.flag Reg.CXL_CAP_CTRL.RUN 0 = false :=
  (Dev.flag_set_ne _ _ (by decide)).trans (Dev.flag_setB_same _ (by decide) _ _)

theorem Dev.captureEnded_done (d : Dev) : d.captureEnded.flag Reg.CXL_CAP_CTRL.DONE 0 = true :=
  Dev.flag_setB_same _ (by decide) _ _

end Sys2Proof.Machine
end

section
/-! The statement about snapshots and captures. -/

open Sys2Proof Sys2Proof.Machine

/-- Settles O22: NOW and GO are bits of accepted words, and each end writes its flags and raises an event, which leaves them. -/
theorem snapshotsAndCaptures : Obligations.SnapshotsAndCaptures := by
  unfold Obligations.SnapshotsAndCaptures
  intro s
  refine ⟨fun haccept => ?asked, fun p hruns hbusy => ?taken, fun src le dsc haccept => ?armed, fun l hruns hrun harmed => ?ended⟩
  case asked =>
    exact ⟨_, next_lift_put_one (by decide) rfl
      (g := fun d => { d with host := { d.host with snapNow := true } }) (Dev.writeEffect_snapCtrl _) haccept, rfl⟩
  case taken =>
    refine ⟨_, exec_of_liftRun hruns rfl (Dev.snapDone_busy hbusy), ?_, ?_, ?_⟩
    · exact congrArg (·.snapBusy) ((s.dev.snapComplete p).raise_host _ _ _ _)
    · exact congrArg (·.seq) ((congrArg (Store.get (fun _ => SnapSlot.reset) · p) ((s.dev.snapComplete p).raise_snaps _ _ _ _)).trans
        (s.dev.snapComplete_snap p))
    · exact (Dev.raise_get _ _ _ _ _ _ (by decide)).trans (Dev.get_set_same _ _ _ _)
  case armed =>
    exact ⟨_, exec_captureGo haccept, Dev.captureArm_run _, Dev.captureArm_done _, rfl⟩
  case ended =>
    refine ⟨_, congrArg Host.Outcome.next (State.captureDone_running l hruns hrun harmed), ?_, ?_, fun off hoff => ?_⟩
    · exact (Dev.raise_flag _ _ _ _ _ _ (by decide)).trans (Dev.captureEnded_run _)
    · exact (Dev.raise_flag _ _ _ _ _ _ (by decide)).trans (Dev.captureEnded_done _)
    · rw [State.withDev_mem, State.captureWritten_get_below _ _ hoff]

end

section
/-! DMA (R468 to R471): the words of a channel's registers, a descriptor that starts, and one that completes. -/

namespace Sys2Proof.Machine

/-! ### Writes of a channel's registers (R468, R471) -/

/-- A write of a channel's register stores its word; RESET in a control register discards what is posted. -/
theorem Dev.writeEffect_dma (d : Dev) {off : Nat} (w : Nat) (h : ¬(off < 0x40 ∨ 0x800 ≤ off)) : d.writeEffect .dma 0 off w =
    if (decide ((off - 0x40) % 0x10 = 0) && Reg.DMA_CTRL.RESET.on w) = true then
      (d.storeWord .dma 0 off w).dmaReset ((off - 0x40) / 0x10)
    else d.storeWord .dma 0 off w := by
  rw [Dev.writeEffect, if_neg h]
  rfl

theorem Dev.writeEffect_dmaRing (d : Dev) (c : Fin 16) (w : Nat) :
    d.writeEffect .dma 0 (0x044 + 0x10 * c.val) w = d.storeWord .dma 0 (0x044 + 0x10 * c.val) w := by
  have hplace : ¬ (0x044 + 0x10 * c.val - 0x40) % 0x10 = 0 := by omega
  rw [Dev.writeEffect_dma _ _ (by omega), decide_eq_false hplace, Bool.false_and, if_neg Bool.false_ne_true]

theorem Dev.writeEffect_dmaCtrl (d : Dev) (c : Fin 16) {w : Nat} (h : Reg.DMA_CTRL.RESET.on w = true) :
    d.writeEffect .dma 0 (0x040 + 0x10 * c.val) w = (d.storeWord .dma 0 (0x040 + 0x10 * c.val) w).dmaReset c.val := by
  have hplace : (0x040 + 0x10 * c.val - 0x40) % 0x10 = 0 := by omega
  have hchannel : (0x040 + 0x10 * c.val - 0x40) / 0x10 = c.val := by omega
  rw [Dev.writeEffect_dma _ _ (by omega), decide_eq_true hplace, h, Bool.true_and, if_pos rfl, hchannel]

/-- The registers of one channel as RESET leaves them. -/
def Dev.dmaDiscarded (d : Dev) (c : Nat) : Dev :=
  ((d.setJ Reg.DMA_STAT.HALT 0 c 0).setJ Reg.DMA_STAT.RUN 0 c 0).setJ Reg.DMA_RING.HEAD 0 c (d.getJ Reg.DMA_RING.TAIL 0 c)

theorem Dev.dmaReset_getJ (d : Dev) (c : Nat) (f : Fld) : (d.dmaReset c).getJ f 0 c = (d.dmaDiscarded c).getJ f 0 c := by
  have hregs : (d.dmaReset c).regs = (d.dmaDiscarded c).regs := by simp only [Dev.dmaReset, Dev.dmaDiscarded]
  rw [Dev.getJ, hregs, Dev.getJ]

theorem Dev.dmaReset_halt (d : Dev) (c : Nat) : (d.dmaReset c).getJ Reg.DMA_STAT.HALT 0 c = 0 := by
  rw [Dev.dmaReset_getJ, Dev.dmaDiscarded, Dev.getJ_setJ_beside _ _ _ _ (by decide), Dev.getJ_setJ_beside _ _ _ _ (by decide),
    Dev.getJ_setJ_same]
  rfl

theorem Dev.dmaReset_run (d : Dev) (c : Nat) : (d.dmaReset c).getJ Reg.DMA_STAT.RUN 0 c = 0 := by
  rw [Dev.dmaReset_getJ, Dev.dmaDiscarded, Dev.getJ_setJ_beside _ _ _ _ (by decide), Dev.getJ_setJ_same]
  rfl

theorem Dev.dmaReset_tail (d : Dev) (c : Nat) : (d.dmaReset c).getJ Reg.DMA_RING.TAIL 0 c = d.getJ Reg.DMA_RING.TAIL 0 c := by
  rw [Dev.dmaReset_getJ, Dev.dmaDiscarded, Dev.getJ_setJ_beside _ _ _ _ (by decide), Dev.getJ_setJ_beside _ _ _ _ (by decide),
    Dev.getJ_setJ_beside _ _ _ _ (by decide)]

theorem Dev.dmaReset_head (d : Dev) (c : Nat) : (d.dmaReset c).dmaHead c = (d.dmaReset c).getJ Reg.DMA_RING.TAIL 0 c % 64 := by
  rw [Dev.dmaReset_tail, Dev.dmaHead, Dev.dmaReset_getJ, Dev.dmaDiscarded, Dev.getJ_setJ_same]
  rfl

/-! ### A descriptor starts (R470) -/

/-- A channel whose transfer is in progress. -/
def Dev.dmaRunning (d : Dev) (c len : Nat) : Dev :=
  { d.setJ Reg.DMA_STAT.RUN 0 c 1 with host := { d.host with moved := Store.set (fun _ => 0) d.host.moved c len } }

theorem Dev.dmaRunning_run (d : Dev) (c len : Nat) : (d.dmaRunning c len).getJ Reg.DMA_STAT.RUN 0 c = 1 :=
  Dev.getJ_setJ_same _ _ _ _ _

/-- The sides of the descriptor at HEAD. -/
def Dev.descSource (d : Dev) (c : Nat) : Nat := d.descWord c 2 + pow2 32 * d.descWord c 3
def Dev.descDest (d : Dev) (c : Nat) : Nat := d.descWord c 4 + pow2 32 * d.descWord c 5

/-- A descriptor whose sides are good, and whose transfer does not halt, moves its bytes and is in progress. -/
theorem State.dmaStart_moves {s : State} {c : Nat} {host : Option (List Nat)} (hr : s.Runs) (hready : s.dev.dmaReady c = true)
    (hsrc : s.dev.sideErr (bitsOf (s.dev.descWord c 0) 4 4) (s.dev.descSource c) (s.dev.descWord c 1) false = none)
    (hdst : s.dev.sideErr (bitsOf (s.dev.descWord c 0) 0 4) (s.dev.descDest c) (s.dev.descWord c 1) true = none)
    {r : DmaRead} (hread : s.dmaSource (bitsOf (s.dev.descWord c 0) 4 4) (s.dev.descSource c) (s.dev.descWord c 1) host = r)
    (hhalt : r.halt = none) {t : State}
    (hmove : r.state.dmaDest c (bitsOf (s.dev.descWord c 0) 0 4) (s.dev.descDest c) r.bytes = (t, none)) :
    s.dmaStart c host = t.withDev (t.dev.dmaRunning c (s.dev.descWord c 1)) := by
  have hruns : s.dev.runs = true := hr
  unfold Dev.descSource at hsrc hread
  unfold Dev.descDest at hdst hmove
  simp only [State.dmaStart, hruns, hready, Bool.not_true, Bool.or_self, Bool.false_eq_true, if_false, hsrc, hdst, hread, hmove, hhalt]
  rfl

/-! ### A descriptor completes (R470) -/

/-- The descriptor's status, and the channel's registers, once it has completed. -/
def Dev.dmaCompleted (d : Dev) (c : Nat) : Dev :=
  let e := (d.setDescWord c 7 (Store.get (fun _ => 0) d.host.moved c)).setDescWord c 6 (pow2 31)
  let e : Dev := { e with host := { e.host with moved := Store.set (fun _ => 0) e.host.moved c 0 } }
  ((e.setJ Reg.DMA_STAT.RUN 0 c 0).setJ Reg.DMA_RING.HEAD 0 c ((d.dmaHead c + 1) % 64)).addSatJ Reg.DMA_DONE.COUNT 0 c 1

theorem Dev.dmaDone_running {d : Dev} {c : Nat} (h : d.getJ Reg.DMA_STAT.RUN 0 c = 1) : d.dmaDone c =
    onlyIf (bitOf (d.descWord c 0) 8) (fun e => e.sendVector (4 + c))
      (onlyIf (bitOf (d.descWord c 0) 9) (fun e => e.raise Ev.dmaDone 0 c (d.dmaHead c)) (d.dmaCompleted c)) :=
  if_neg (by simp [h])

/-- Beside what completes, `DMA:DONE` and the channel's vector are all that follows. -/
theorem Dev.dmaDone_eventsOnly {d : Dev} {c : Nat} (h : d.getJ Reg.DMA_STAT.RUN 0 c = 1) :
    (d.dmaCompleted c).EventsOnly (d.dmaDone c) := by
  have honly {e : Dev} {f : Dev → Dev} (b : Bool) (hf : e.EventsOnly (f e)) : e.EventsOnly (onlyIf b f e) := by
    cases b
    · exact .refl e
    · exact hf
  rw [Dev.dmaDone_running h]
  exact (honly _ (Dev.eventsOnly_raise _ _ _ _ _)).trans (honly _ (Dev.eventsOnly_sendVector _ _))

theorem Dev.dmaCompleted_run (d : Dev) (c : Nat) : (d.dmaCompleted c).getJ Reg.DMA_STAT.RUN 0 c = 0 := by
  rw [Dev.dmaCompleted, Dev.addSatJ, Dev.getJ_setJ_beside _ _ _ _ (by decide), Dev.getJ_setJ_beside _ _ _ _ (by decide),
    Dev.getJ_setJ_same]
  rfl

theorem Dev.dmaCompleted_head (d : Dev) (c : Nat) : (d.dmaCompleted c).dmaHead c = (d.dmaHead c + 1) % 64 := by
  rw [Dev.dmaHead, Dev.dmaCompleted, Dev.addSatJ, Dev.getJ_setJ_beside _ _ _ _ (by decide), Dev.getJ_setJ_same]
  exact Nat.mod_mod _ _

theorem Dev.tab_setTab_same (d : Dev) (p sel idx w v : Nat) : (d.setTab p sel idx w v).tab p sel idx w = trunc 32 v :=
  Store.get_set_same _ _ _

theorem Dev.dmaCompleted_status (d : Dev) (c : Nat) :
    (d.dmaCompleted c).tab 0x11 0x01 (c * 64 + d.dmaHead c) 6 = 0x80000000 :=
  Dev.tab_setTab_same _ _ _ _ _ _

/-- A channel's registers are none of those that raising events writes. -/
theorem dmaStat_not_evKey (c : Fin 16) : evKey (Reg.DMA_STAT.RUN.key 0 c.val) = false ∧ evKey (Reg.DMA_RING.HEAD.key 0 c.val) = false := by
  revert c
  decide

end Sys2Proof.Machine
end

section
/-! The statement about DMA. -/

open Sys2Proof Sys2Proof.Machine

/-- Settles O23: TAIL and RESET are accepted writes; a descriptor starts where nothing halts it, and its end is one record with
events after it. -/
theorem dmaCommandsTakeEffect : Obligations.DmaCommandsTakeEffect := by
  unfold Obligations.DmaCommandsTakeEffect
  intro s c
  refine ⟨fun tail haccept => ?tail, fun host hruns hready => ?start, fun hruns hrun => ?done, fun haccept => ?reset⟩
  case tail =>
    have heffect := next_lift_command (k := .dma) (f := Reg.DMA_RING.TAIL.put tail.val) (by decide) haccept
    exact heffect.trans (congrArg (fun d => Host.Outcome.next (s.withDev d)) (Dev.writeEffect_dmaRing _ _ _))
  case start =>
    intro ctl len src dst hsrc hdst r hhalt hnone
    have hstart := State.dmaStart_moves (host := host.map natsOf) hruns hready hsrc hdst (r := r) rfl hhalt (Prod.ext rfl hnone)
    exact ⟨_, congrArg Host.Outcome.next hstart, Dev.dmaRunning_run _ _ _, State.withDev_mem _ _⟩
  case done =>
    have hevents := Dev.dmaDone_eventsOnly hrun
    obtain ⟨hstat, hring⟩ := dmaStat_not_evKey c
    refine ⟨_, exec_of_liftRun hruns rfl rfl, ?_, ?_, ?_⟩
    · exact (hevents.getJ hstat).trans (s.dev.dmaCompleted_run c.val)
    · exact (hevents.getJ hring).trans (s.dev.dmaCompleted_head c.val)
    · exact (congrArg (fun e : Dev => e.tab 0x11 0x01 (c.val * 64 + s.dev.dmaHead c.val) 6) hevents.1).trans
        (s.dev.dmaCompleted_status c.val)
  case reset =>
    have heffect := next_lift_command (k := .dma) (f := Reg.DMA_CTRL.RESET.put 1) (by decide) haccept
    have hreset := Dev.writeEffect_dmaCtrl s.dev c (Fld.on_put_one (f := Reg.DMA_CTRL.RESET) rfl (s.kept .dma 0 (0x040 + 0x10 * c.val)))
    exact ⟨_, heffect.trans (congrArg (fun d => Host.Outcome.next (s.withDev d)) hreset), Dev.dmaReset_halt _ _, Dev.dmaReset_run _ _,
      Dev.dmaReset_head _ _⟩

end

section
/-! The common header and the indirect window (R450, R453, R455, R457, R458): the words of their commands pass the checks of R452, and
what each accepted word does. -/

namespace Sys2Proof.Machine

/-! ### Which fields a stored word leaves -/

/-- A stored word leaves every field that is none of its register's. -/
theorem Dev.storeWord_regs_ne (d : Dev) {k : PageKind} {i off key : Nat} (w : Nat)
    (h : ∀ r ∈ fieldsAt k off, key ≠ r.key k i (r.index off)) :
    Store.get regReset (d.storeWord k i off w).regs key = Store.get regReset d.regs key := by
  unfold Dev.storeWord
  revert h
  generalize fieldsAt k off = rows
  intro h
  induction rows generalizing d with
  | nil => rfl
  | cons r rows ih =>
    rw [List.foldl_cons, ih _ fun r' hr' => h r' (List.mem_cons_of_mem _ hr')]
    have hne := h r List.mem_cons_self
    cases hacc : r.acc <;> simp only [Dev.storeField, hacc, Store.get_set_ne _ _ hne]
    split
    · rfl
    · rw [Store.get_set_ne _ _ hne]

/-! ### The checks of a header's word (R452) -/

/-- A word written to the header, or to the window of an enabled page, fails the header's own checks alone. -/
theorem Dev.writeErrs_header {d : Dev} {k : PageKind} {i off w : Nat} (hpage : off < 0x40 ∨ 0x800 ≤ off)
    (hrows : (fieldsAt k off).isEmpty = false) (hreserved : reservedSet (fieldsAt k off) w = false)
    (hen : off < 0x40 ∨ d.flag Hdr.CTRL.ENABLE (pageOf k i) = true) (hrange : rangeErrs (fieldsAt k off) w = []) :
    d.writeErrs k i off w = d.headerErrs k i off w := by
  have hlock : (decide (0x40 ≤ off) && !d.flag Hdr.CTRL.ENABLE (pageOf k i)) = false := by
    obtain hoff | hen := hen
    · rw [decide_eq_false (Nat.not_le.2 hoff), Bool.false_and]
    · rw [hen, Bool.not_true, Bool.and_false]
  simp only [Dev.writeErrs, hrows, hreserved, hlock, hrange, if_pos hpage, failIf, Bool.false_eq_true, if_false, List.nil_append]

theorem Dev.writeEffect_header (d : Dev) {k : PageKind} {i off : Nat} (w : Nat) (hpage : off < 0x40 ∨ 0x800 ≤ off) :
    d.writeEffect k i off w = (d.storeWord k i off w).headerEffect k i off w := if_pos hpage

/-! ### Table commands (R455) -/

/-- The word of a table command. -/
def tblWord (autoInc : Bool) (op : Nat) : Nat := Hdr.TBL_CMD.AUTO_INC.put (b1 autoInc) op

/-- TBL_CMD, on every page. -/
def tblCmdRows : List FieldRow := [⟨0x828, 0x0, 1, 8, 1, .RW, false, 0, 0, 1⟩, ⟨0x828, 0x0, 1, 0, 2, .WO, false, 0, 0, 3⟩]

theorem fieldsAt_tblCmd (k : PageKind) : fieldsAt k 0x828 = tblCmdRows := by
  rw [fieldsAt, if_pos (by decide)]
  decide

theorem tblWord_fits (a : Bool) {op : Nat} (h : op = 1 ∨ op = 2) :
    reservedSet tblCmdRows (tblWord a op) = false ∧ rangeErrs tblCmdRows (tblWord a op) = [] ∧
      Hdr.TBL_CMD.OP.of (tblWord a op) = op ∧ Hdr.TBL_CMD.AUTO_INC.on (tblWord a op) = a := by
  obtain rfl | rfl := h <;> revert a <;> decide

/-- On an enabled page, for an entry that exists, a table command fails the entry's own checks alone, and a READ fails none. -/
theorem Dev.writeErrs_tblCmd {d : Dev} {k : PageKind} {i : Nat} (a : Bool) {op : Nat} (hop : op = 1 ∨ op = 2)
    (hen : d.flag Hdr.CTRL.ENABLE (pageOf k i) = true)
    (hindex : tableIndexOk k (d.get Hdr.TBL_SEL.SEL (pageOf k i)) (d.get Hdr.TBL_INDEX.INDEX (pageOf k i)) = true) :
    d.writeErrs k i 0x828 (tblWord a op) =
      if op = 2 then
        d.entryErrs k i (d.get Hdr.TBL_SEL.SEL (pageOf k i)) (d.get Hdr.TBL_INDEX.INDEX (pageOf k i))
          ((List.range 8).map fun j => d.getJ Hdr.TBL_DATA.DATA (pageOf k i) j)
      else [] := by
  obtain ⟨hreserved, hrange, hof, -⟩ := tblWord_fits a hop
  rw [Dev.writeErrs_header (Or.inr (by decide)) (by rw [fieldsAt_tblCmd]; rfl) (by rw [fieldsAt_tblCmd, hreserved]) (Or.inr hen)
    (by rw [fieldsAt_tblCmd, hrange])]
  simp only [Dev.headerErrs, hof, hindex, Bool.not_true, Bool.false_eq_true, if_false]
  rw [if_neg (by omega), if_neg (by omega)]

/-- A command's word leaves the selection and the data of the window. -/
theorem Dev.storeWord_tblCmd_getJ (d : Dev) {k : PageKind} {i w j : Nat} {f : Fld} (hf : f.base = 0 ∧ f.stride = 1 ∧ f.lo = 0)
    (hoff : f.off + f.step * j < 0x828) :
    (d.storeWord k i 0x828 w).getJ f (pageOf k i) j = d.getJ f (pageOf k i) j := by
  obtain ⟨hbase, hstride, hlo⟩ := hf
  refine Dev.storeWord_regs_ne d w fun r hr => ?_
  rw [fieldsAt_tblCmd] at hr
  have hrow : r.off = 0x828 ∧ r.step = 0 := by
    revert hr
    simp only [tblCmdRows, List.mem_cons, List.not_mem_nil, or_false]
    rintro (rfl | rfl) <;> exact ⟨rfl, rfl⟩
  obtain ⟨hroff, hrstep⟩ := hrow
  simp only [Fld.key, FieldRow.key, hbase, hstride, hlo, hroff, hrstep]
  omega

/-- The entries of a field's array written one after another: each reads as it was written. -/
theorem Dev.getJ_over_setJ {f : Fld} (hstep : 0 < f.step) (i : Nat) (v : Nat → Nat) (n : Nat) :
    ∀ (d : Dev) (j : Nat), j < n → (d.over (List.range n) fun j d => d.setJ f i j (v j)).getJ f i j = trunc f.width (v j) := by
  induction n with
  | zero => exact fun d j h => absurd h (Nat.not_lt_zero j)
  | succ n ih =>
    intro d j h
    rw [Dev.over, List.range_succ, List.foldl_append, List.foldl_cons, List.foldl_nil]
    by_cases hj : j = n
    · rw [hj, Dev.getJ_setJ_same]
    · have hkey : f.key i j ≠ f.key i n := by
        intro h
        simp only [Fld.key] at h
        have hsteps : f.step * j = f.step * n := by omega
        exact hj (Nat.eq_of_mul_eq_mul_left hstep hsteps)
      rw [Dev.getJ_setJ_ne _ _ hkey]
      exact ih d j (by omega)

theorem Dev.entryRead_regs (d : Dev) (k : PageKind) (sel idx : Nat) : (d.entryRead k sel idx).regs = d.regs := by
  unfold Dev.entryRead
  split <;> rfl

/-- The window's data loaded with the words of an entry. -/
def Dev.dataLoaded (d : Dev) (p : Nat) (l : List Nat) : Dev :=
  d.over (List.range 8) fun j d => d.setJ Hdr.TBL_DATA.DATA p j (l.getD j 0)

/-- The selected entry of a page's table. -/
def Dev.selected (d : Dev) (k : PageKind) (i : Nat) : List Nat :=
  d.readEntry k i (d.get Hdr.TBL_SEL.SEL (pageOf k i)) (d.get Hdr.TBL_INDEX.INDEX (pageOf k i))

theorem Dev.tblRead_eq (d : Dev) (k : PageKind) (i w : Nat) : d.tblRead k i w =
    ((d.dataLoaded (pageOf k i) (d.selected k i)).entryRead k (d.get Hdr.TBL_SEL.SEL (pageOf k i))
      (d.get Hdr.TBL_INDEX.INDEX (pageOf k i))).tblNext (pageOf k i) w := rfl

/-- INDEX is none of the window's data. -/
theorem index_key_ne_data (p j : Nat) : Hdr.TBL_INDEX.INDEX.key p 0 ≠ Hdr.TBL_DATA.DATA.key p j := by
  simp only [Fld.key, Hdr.TBL_INDEX.INDEX, Hdr.TBL_DATA.DATA]
  omega

theorem Dev.dataLoaded_index (d : Dev) (p : Nat) (l : List Nat) :
    (d.dataLoaded p l).get Hdr.TBL_INDEX.INDEX p = d.get Hdr.TBL_INDEX.INDEX p :=
  Dev.over_keeps (f := fun j d => d.setJ Hdr.TBL_DATA.DATA p j (l.getD j 0)) (fun e : Dev => e.get Hdr.TBL_INDEX.INDEX p)
    (fun j _ => Dev.get_setJ_ne _ _ (index_key_ne_data p j)) _ d

theorem Dev.tblNext_data (d : Dev) (p w j : Nat) :
    (d.tblNext p w).getJ Hdr.TBL_DATA.DATA p j = d.getJ Hdr.TBL_DATA.DATA p j := by
  unfold Dev.tblNext
  split
  · exact Dev.getJ_set_ne _ _ (index_key_ne_data p j).symm
  · rfl

theorem Dev.tblNext_index (d : Dev) (p w : Nat) : (d.tblNext p w).get Hdr.TBL_INDEX.INDEX p =
    if Hdr.TBL_CMD.AUTO_INC.on w = true then (d.get Hdr.TBL_INDEX.INDEX p + 1) % 65536 else d.get Hdr.TBL_INDEX.INDEX p := by
  unfold Dev.tblNext
  split
  · rw [Dev.get_set_same]
    rfl
  · rfl

/-- A READ shows the entry's words. -/
theorem Dev.tblRead_data (d : Dev) (k : PageKind) (i w : Nat) (j : Fin 8) :
    (d.tblRead k i w).getJ Hdr.TBL_DATA.DATA (pageOf k i) j.val = trunc 32 ((d.selected k i).getD j.val 0) := by
  rw [Dev.tblRead_eq, Dev.tblNext_data, Dev.getJ, Dev.entryRead_regs]
  exact Dev.getJ_over_setJ (by decide) _ (fun j => (d.selected k i).getD j 0) 8 d j.val j.isLt

theorem Dev.tblRead_index (d : Dev) (k : PageKind) (i w : Nat) :
    (d.tblRead k i w).get Hdr.TBL_INDEX.INDEX (pageOf k i) =
      if Hdr.TBL_CMD.AUTO_INC.on w = true then (d.get Hdr.TBL_INDEX.INDEX (pageOf k i) + 1) % 65536
      else d.get Hdr.TBL_INDEX.INDEX (pageOf k i) := by
  have hread (e : Dev) (sel idx : Nat) : (e.entryRead k sel idx).get Hdr.TBL_INDEX.INDEX (pageOf k i) = e.get Hdr.TBL_INDEX.INDEX (pageOf k i) :=
    congrArg (Store.get regReset · _) (e.entryRead_regs k sel idx)
  rw [Dev.tblRead_eq, Dev.tblNext_index, hread, Dev.dataLoaded_index]

/-! ### CTRL (R450) -/

/-- CTRL, on every page. -/
def ctrlRows : List FieldRow :=
  [⟨0x8, 0x0, 1, 2, 1, .RW, false, 0, 0, 1⟩, ⟨0x8, 0x0, 1, 1, 1, .WO, false, 0, 0, 1⟩, ⟨0x8, 0x0, 1, 0, 1, .RW, false, 1, 0, 1⟩]

theorem fieldsAt_ctrl (k : PageKind) : fieldsAt k 0x008 = ctrlRows := by
  rw [fieldsAt, if_pos (by decide)]
  decide

/-- The settings of CTRL as a word. -/
def ctrlWord (freeze enable : Nat) : Nat := 4 * freeze + enable

theorem Dev.keepWord_ctrl (d : Dev) (k : PageKind) (i : Nat) :
    d.keepWord k i 0x008 = ctrlWord (d.get Hdr.CTRL.FREEZE (pageOf k i)) (d.get Hdr.CTRL.ENABLE (pageOf k i)) := by
  have hfreeze : (⟨0x8, 0x0, 1, 2, 1, .RW, false, 0, 0, 1⟩ : FieldRow).key k i 0 = Hdr.CTRL.FREEZE.key (pageOf k i) 0 := by
    simp [FieldRow.key, Fld.key, Hdr.CTRL.FREEZE]
  have henable : (⟨0x8, 0x0, 1, 0, 1, .RW, false, 1, 0, 1⟩ : FieldRow).key k i 0 = Hdr.CTRL.ENABLE.key (pageOf k i) 0 := by
    simp [FieldRow.key, Fld.key, Hdr.CTRL.ENABLE]
  rw [Dev.keepWord, fieldsAt_ctrl]
  have hword : wordOf (ctrlRows.filter fun r => (r.acc == .RW && !r.count) || (r.acc == .WC && r.width != 1)) 0x008
      (fun r j => Store.get regReset d.regs (r.key k i j)) =
      0 + Store.get regReset d.regs ((⟨0x8, 0x0, 1, 2, 1, .RW, false, 0, 0, 1⟩ : FieldRow).key k i 0) * pow2 2 +
        Store.get regReset d.regs ((⟨0x8, 0x0, 1, 0, 1, .RW, false, 1, 0, 1⟩ : FieldRow).key k i 0) * pow2 0 := rfl
  rw [hword, hfreeze, henable, ctrlWord, Dev.get, Dev.get]
  simp only [pow2]
  omega

/-- A word of CTRL as its three bits. -/
theorem ctrlWord_freeze (a : Bool) {f e : Nat} (hf : f ≤ 1) (he : e ≤ 1) :
    reservedSet ctrlRows (Hdr.CTRL.FREEZE.put (b1 a) (ctrlWord f e)) = false ∧
      rangeErrs ctrlRows (Hdr.CTRL.FREEZE.put (b1 a) (ctrlWord f e)) = [] ∧
      Hdr.CTRL.ENABLE.on (Hdr.CTRL.FREEZE.put (b1 a) (ctrlWord f e)) = (e == 1) ∧
      Hdr.CTRL.BLK_RESET.on (Hdr.CTRL.FREEZE.put (b1 a) (ctrlWord f e)) = false ∧
      Hdr.CTRL.FREEZE.on (Hdr.CTRL.FREEZE.put (b1 a) (ctrlWord f e)) = a := by
  have hall : ∀ (a : Bool) (f e : Fin 2),
      reservedSet ctrlRows (Hdr.CTRL.FREEZE.put (b1 a) (ctrlWord f e)) = false ∧
        rangeErrs ctrlRows (Hdr.CTRL.FREEZE.put (b1 a) (ctrlWord f e)) = [] ∧
        Hdr.CTRL.ENABLE.on (Hdr.CTRL.FREEZE.put (b1 a) (ctrlWord f e)) = (e.val == 1) ∧
        Hdr.CTRL.BLK_RESET.on (Hdr.CTRL.FREEZE.put (b1 a) (ctrlWord f e)) = false ∧
        Hdr.CTRL.FREEZE.on (Hdr.CTRL.FREEZE.put (b1 a) (ctrlWord f e)) = a := by decide
  exact hall a ⟨f, by omega⟩ ⟨e, by omega⟩

theorem ctrlWord_blkReset {f : Nat} (hf : f ≤ 1) :
    reservedSet ctrlRows (Hdr.CTRL.BLK_RESET.put 1 (ctrlWord f 0)) = false ∧
      rangeErrs ctrlRows (Hdr.CTRL.BLK_RESET.put 1 (ctrlWord f 0)) = [] ∧
      Hdr.CTRL.ENABLE.on (Hdr.CTRL.BLK_RESET.put 1 (ctrlWord f 0)) = false ∧
      Hdr.CTRL.BLK_RESET.on (Hdr.CTRL.BLK_RESET.put 1 (ctrlWord f 0)) = true ∧
      Hdr.CTRL.FREEZE.on (Hdr.CTRL.BLK_RESET.put 1 (ctrlWord f 0)) = (f == 1) := by
  have hall : ∀ f : Fin 2,
      reservedSet ctrlRows (Hdr.CTRL.BLK_RESET.put 1 (ctrlWord f 0)) = false ∧
        rangeErrs ctrlRows (Hdr.CTRL.BLK_RESET.put 1 (ctrlWord f 0)) = [] ∧
        Hdr.CTRL.ENABLE.on (Hdr.CTRL.BLK_RESET.put 1 (ctrlWord f 0)) = false ∧
        Hdr.CTRL.BLK_RESET.on (Hdr.CTRL.BLK_RESET.put 1 (ctrlWord f 0)) = true ∧
        Hdr.CTRL.FREEZE.on (Hdr.CTRL.BLK_RESET.put 1 (ctrlWord f 0)) = (f.val == 1) := by decide
  exact hall ⟨f, by omega⟩

/-- A word that CTRL takes fails BLK_RESET's own checks alone. -/
theorem Dev.writeErrs_ctrl (d : Dev) {k : PageKind} (i : Nat) {w : Nat} (hreserved : reservedSet ctrlRows w = false)
    (hrange : rangeErrs ctrlRows w = []) : d.writeErrs k i 0x008 w =
      if Hdr.CTRL.BLK_RESET.on w then
        failIf (fixedEnable (pageOf k i)) .locked ++ failIf (d.flag Hdr.CTRL.ENABLE (pageOf k i)) .state ++ failIf (!d.idle k i) .notIdle
      else [] :=
  Dev.writeErrs_header (Or.inl (by decide)) (by rw [fieldsAt_ctrl]; rfl) (by rw [fieldsAt_ctrl, hreserved]) (Or.inl (by decide))
    (by rw [fieldsAt_ctrl, hrange])

/-- An accepted CTRL word sets ENABLE, resets the block where it says so, and latches or releases the page's view. -/
theorem Dev.writeEffect_ctrl (d : Dev) (k : PageKind) (i w : Nat) : d.writeEffect k i 0x008 w =
    (onlyIf (Hdr.CTRL.BLK_RESET.on w) (fun e => e.blkReset k i)
      ((d.storeWord k i 0x008 w).setB Hdr.CTRL.ENABLE (pageOf k i) (Hdr.CTRL.ENABLE.on w))).freezePage k i (Hdr.CTRL.FREEZE.on w) := rfl

theorem Dev.freezePage_frozenPage (d : Dev) (k : PageKind) (i : Nat) (on : Bool) : (d.freezePage k i on).frozenPage k i = on :=
  Dev.flag_setB_same d (f := Hdr.CTRL.FREEZE) (by decide) (pageOf k i) on

/-! ### EV_FORCE (R457, R458) -/

/-- EV_FORCE, on every page. -/
def evForceRows : List FieldRow := [⟨0x2C, 0x0, 1, 0, 32, .WO, false, 0, 0, 4294967295⟩]

theorem fieldsAt_evForce (k : PageKind) : fieldsAt k 0x02C = evForceRows := by
  rw [fieldsAt, if_pos (by decide)]
  decide

/-- Every bit of EV_FORCE belongs to its field. -/
theorem reservedSet_evForce (w : Nat) : reservedSet evForceRows w = false := by
  have hcovered : ∀ b ∈ List.range 32, (evForceRows.all fun r => !(decide (r.lo ≤ b) && decide (b < r.lo + r.width))) = false := by decide
  refine List.any_eq_false.2 fun b hb => ?_
  simp only [hcovered b hb, Bool.and_false, Bool.false_eq_true, not_false_eq_true]

/-- A word that names events of the page alone is accepted. -/
theorem Dev.writeErrs_evForce (d : Dev) {k : PageKind} (i : Nat) {w : Nat}
    (h : ∀ b, b < 32 → bitOf w b = true → b < (eventsOf k).2) : d.writeErrs k i 0x02C w = [] := by
  have hvalue : bitsOf w 0 32 ≤ 4294967295 := Nat.le_of_lt_succ (Nat.mod_lt _ (by decide))
  have hrange : rangeErrs evForceRows w = [] :=
    rangeErrs_of_fits rfl (List.forall_mem_singleton.2 fun _ => ⟨Nat.zero_le _, hvalue⟩)
  have hnone : ((List.range 32).any fun b => bitOf w b && decide ((eventsOf k).2 ≤ b)) = false := by
    refine List.any_eq_false.2 fun b hb => ?_
    rw [Bool.and_eq_true, decide_eq_true_eq]
    rintro ⟨hbit, hbeyond⟩
    exact absurd (h b (List.mem_range.1 hb) hbit) (Nat.not_lt.2 hbeyond)
  have hheader : d.headerErrs k i 0x02C w = failIf ((List.range 32).any fun b => bitOf w b && decide ((eventsOf k).2 ≤ b)) .reserved := rfl
  rw [Dev.writeErrs_header (Or.inl (by decide)) (by rw [fieldsAt_evForce]; rfl) (by rw [fieldsAt_evForce, reservedSet_evForce])
    (Or.inl (by decide)) (by rw [fieldsAt_evForce, hrange]), hheader, hnone]
  rfl

/-! ### The commands -/

section
variable {s : State} {k : PageKind} {i : Nat} (hl : s.Live) (hd : decodePage (pageOf k i) = some (k, i))
  (hs : s.dev.pageServed (pageOf k i) = true)
include hl hd hs

/-- A command of a page's header or window whose word passes the checks has that word's effect. -/
theorem next_lift_header {off w : Nat} {f : Nat → Nat} (hw : f (s.kept k i off) = w) (herrs : s.dev.writeErrs k i off w = [])
    (hoff : off ≠ 0x80) :
    (.next (s.lift fun d => d.pageCommand (pageOf k i) off f) : Host.Outcome State Fault Refusal) =
      .next (s.withDev (s.dev.writeEffect k i off w)) := by
  subst hw
  exact congrArg Host.Outcome.next (State.lift_pageCommand rfl ⟨hl, hd, hs, herrs⟩ fun h => hoff h.2)

section
variable (hen : s.dev.flag Hdr.CTRL.ENABLE (pageOf k i) = true)
  (hindex : tableIndexOk k (s.dev.get Hdr.TBL_SEL.SEL (pageOf k i)) (s.dev.get Hdr.TBL_INDEX.INDEX (pageOf k i)) = true)
include hen hindex

/-- A READ of an entry that exists is carried out. -/
theorem exec_tblCmdRead (a : Bool) : exec (.tblCmdRead (pageOf k i) a) s =
    .next (s.withDev ((s.stored k i 0x828 (tblWord a 1)).tblRead k i (tblWord a 1))) := by
  obtain ⟨-, -, hop, -⟩ := tblWord_fits a (Or.inl rfl)
  have hexec : exec (.tblCmdRead (pageOf k i) a) s = .next (s.withDev (s.dev.writeEffect k i 0x828 (tblWord a 1))) :=
    next_lift_header hl hd hs rfl (Dev.writeErrs_tblCmd a (Or.inl rfl) hen hindex) (by decide)
  rw [hexec, Dev.writeEffect_header _ _ (Or.inr (by decide))]
  exact congrArg (fun d => Host.Outcome.next (s.withDev d)) (if_pos hop)

/-- A WRITE of an entry that exists, whose words pass the entry's checks, is carried out. -/
theorem exec_tblCmdWrite (a : Bool)
    (herrs : s.dev.entryErrs k i (s.dev.get Hdr.TBL_SEL.SEL (pageOf k i)) (s.dev.get Hdr.TBL_INDEX.INDEX (pageOf k i))
      ((List.range 8).map fun j => s.dev.getJ Hdr.TBL_DATA.DATA (pageOf k i) j) = []) :
    exec (.tblCmdWrite (pageOf k i) a) s =
      .next (s.withDev ((s.stored k i 0x828 (tblWord a 2)).tblWrite k i (tblWord a 2))) := by
  obtain ⟨-, -, hop, -⟩ := tblWord_fits a (Or.inr rfl)
  have hexec : exec (.tblCmdWrite (pageOf k i) a) s = .next (s.withDev (s.dev.writeEffect k i 0x828 (tblWord a 2))) :=
    next_lift_header hl hd hs rfl ((Dev.writeErrs_tblCmd a (Or.inr rfl) hen hindex).trans herrs) (by decide)
  rw [hexec, Dev.writeEffect_header _ _ (Or.inr (by decide))]
  exact congrArg (fun d => Host.Outcome.next (s.withDev d))
    ((if_neg (by rw [hop]; decide)).trans (if_pos hop))

end

/-- BLK_RESET of a disabled, idle page that has an ENABLE is carried out. -/
theorem exec_blkReset (he : s.dev.get Hdr.CTRL.ENABLE (pageOf k i) = 0) (hf : s.dev.get Hdr.CTRL.FREEZE (pageOf k i) ≤ 1)
    (hfixed : fixedEnable (pageOf k i) = false) (hidle : s.dev.idle k i = true) :
    exec (.blkReset (pageOf k i)) s = .next (s.withDev
      ((((s.stored k i 0x008 (Hdr.CTRL.BLK_RESET.put 1 (s.kept k i 0x008))).setB Hdr.CTRL.ENABLE (pageOf k i) false).blkReset k i).freezePage
        k i (s.dev.flag Hdr.CTRL.FREEZE (pageOf k i)))) := by
  have hkept : s.kept k i 0x008 = ctrlWord (s.dev.get Hdr.CTRL.FREEZE (pageOf k i)) 0 :=
    (Dev.keepWord_ctrl _ _ _).trans (congrArg _ he)
  have hdisabled : s.dev.flag Hdr.CTRL.ENABLE (pageOf k i) = false := by rw [Dev.flag, he]; rfl
  obtain ⟨hreserved, hrange, henable, hreset, hfreeze⟩ := ctrlWord_blkReset hf
  rw [← hkept] at hreserved hrange henable hreset hfreeze
  have herrs : s.dev.writeErrs k i 0x008 (Hdr.CTRL.BLK_RESET.put 1 (s.kept k i 0x008)) = [] := by
    rw [Dev.writeErrs_ctrl _ _ hreserved hrange, if_pos hreset, hfixed, hdisabled, hidle]
    rfl
  have hexec : exec (.blkReset (pageOf k i)) s =
      .next (s.withDev (s.dev.writeEffect k i 0x008 (Hdr.CTRL.BLK_RESET.put 1 (s.kept k i 0x008)))) :=
    next_lift_header hl hd hs rfl herrs (by decide)
  rw [hexec, Dev.writeEffect_ctrl, henable, hreset, hfreeze]
  rfl

/-- FREEZE of a page latches or releases its view. -/
theorem exec_freeze (a : Bool) (he : s.dev.get Hdr.CTRL.ENABLE (pageOf k i) ≤ 1) (hf : s.dev.get Hdr.CTRL.FREEZE (pageOf k i) ≤ 1) :
    exec (.freeze (pageOf k i) a) s = .next (s.withDev
      (((s.stored k i 0x008 (Hdr.CTRL.FREEZE.put (b1 a) (s.kept k i 0x008))).setB Hdr.CTRL.ENABLE (pageOf k i)
        (s.dev.flag Hdr.CTRL.ENABLE (pageOf k i))).freezePage k i a)) := by
  have hkept : s.kept k i 0x008 = ctrlWord (s.dev.get Hdr.CTRL.FREEZE (pageOf k i)) (s.dev.get Hdr.CTRL.ENABLE (pageOf k i)) :=
    Dev.keepWord_ctrl _ _ _
  obtain ⟨hreserved, hrange, henable, hreset, hfreeze⟩ := ctrlWord_freeze a hf he
  rw [← hkept] at hreserved hrange henable hreset hfreeze
  have herrs : s.dev.writeErrs k i 0x008 (Hdr.CTRL.FREEZE.put (b1 a) (s.kept k i 0x008)) = [] := by
    rw [Dev.writeErrs_ctrl _ _ hreserved hrange, if_neg (by rw [hreset]; decide)]
  have hexec : exec (.freeze (pageOf k i) a) s =
      .next (s.withDev (s.dev.writeEffect k i 0x008 (Hdr.CTRL.FREEZE.put (b1 a) (s.kept k i 0x008)))) :=
    next_lift_header hl hd hs rfl herrs (by decide)
  rw [hexec, Dev.writeEffect_ctrl, henable, hreset, hfreeze]
  rfl

/-- EV_FORCE raises each event whose bit is written. -/
theorem exec_evForce {v : Word} (h : ∀ b, b < 32 → bitOf v.toNat b = true → b < (eventsOf k).2) :
    exec (.evForce (pageOf k i) v) s = .next (s.withDev
      ((s.stored k i 0x02C v.toNat).over ((List.range 32).filter fun b => bitOf v.toNat b) fun b d => d.raiseForced ⟨k, b⟩ i)) :=
  exec_of_lift hl rfl ((Dev.pageWrite_accepted ⟨hl, hd, hs, Dev.writeErrs_evForce _ _ h⟩ (by simp)).trans
    (Dev.writeEffect_header _ _ (Or.inl (by decide))))

end

/-- What a table command stores leaves the entry that it selects. -/
theorem State.stored_tblCmd_window (s : State) (k : PageKind) (i w : Nat) :
    (s.stored k i 0x828 w).get Hdr.TBL_SEL.SEL (pageOf k i) = s.dev.get Hdr.TBL_SEL.SEL (pageOf k i) ∧
      (s.stored k i 0x828 w).get Hdr.TBL_INDEX.INDEX (pageOf k i) = s.dev.get Hdr.TBL_INDEX.INDEX (pageOf k i) ∧
      (List.range 8).map (fun j => (s.stored k i 0x828 w).getJ Hdr.TBL_DATA.DATA (pageOf k i) j) =
        (List.range 8).map fun j => s.dev.getJ Hdr.TBL_DATA.DATA (pageOf k i) j := by
  refine ⟨Dev.storeWord_tblCmd_getJ _ (by decide) (by decide), Dev.storeWord_tblCmd_getJ _ (by decide) (by decide), ?_⟩
  refine List.map_congr_left fun j hj => Dev.storeWord_tblCmd_getJ _ (by decide) ?_
  have hlt : j < 8 := List.mem_range.1 hj
  simp only [Hdr.TBL_DATA.DATA]
  omega

end Sys2Proof.Machine
end

section
/-! The statement about the header's commands. -/

open Sys2Proof Sys2Proof.Machine

/-- Settles O16: each command's word is accepted, and the stored word leaves the window that a table command works on. -/
theorem headerCommandsTakeEffect : Obligations.HeaderCommandsTakeEffect := by
  unfold Obligations.HeaderCommandsTakeEffect
  refine ⟨fun s k i p hlive hp hd hserved => ?commands, fun d k i j => Dev.tblRead_data d k i 1 j⟩
  subst hp
  refine ⟨fun a hen hindex => ?read, fun a hen hindex => ?write, fun he hf hfixed hidle => exec_blkReset hlive hd hserved he hf hfixed hidle,
    fun a he hf => ⟨_, exec_freeze hlive hd hserved a he hf, Dev.freezePage_frozenPage _ _ _ _, rfl⟩,
    fun v hv => exec_evForce hlive hd hserved hv⟩
  case read =>
    obtain ⟨hsel, hidx, -⟩ := s.stored_tblCmd_window k i (tblWord a 1)
    obtain ⟨-, -, -, hinc⟩ := tblWord_fits a (Or.inl rfl)
    refine ⟨_, exec_tblCmdRead hlive hd hserved hen hindex a, rfl, fun j => ?_, ?_⟩
    · rw [State.withDev_dev, Dev.tblRead_data, Dev.selected, hsel, hidx]
      rfl
    · rw [State.withDev_dev, Dev.tblRead_index, hinc, hidx]
  case write =>
    intro l herrs
    obtain ⟨hsel, hidx, hdata⟩ := s.stored_tblCmd_window k i (tblWord a 2)
    rw [exec_tblCmdWrite hlive hd hserved hen hindex a herrs, Dev.tblWrite, hsel, hidx, hdata]
    rfl

end
